-- ==== Sys2Proof/Word.lean ====
section
/-! DEFINITION. The word types of the block (00 R10) and their plainest arithmetic. -/

namespace Sys2Proof

/-- A register word (00 R10). -/
abbrev Word32 := BitVec 32
/-- A descriptor, record or message word (00 R10). -/
abbrev Word64 := BitVec 64
/-- A memory-port beat of 16 bytes (13 R394). -/
abbrev Beat := BitVec 128

/-- Cluster index 0 to 63 (02 R41). -/
abbrev CluIx := Fin 64
/-- Local cell index 0 to 15 (02 R42). -/
abbrev CellIx := Fin 16
/-- Domain index 0 to 127 (02 R41). -/
abbrev DomIx := Fin 128
/-- Context 0 to 15 (06 R172). -/
abbrev CtxIx := Fin 16
/-- Half of a cluster: 0 for cells 0 to 7 or the whole cluster, 1 for cells 8 to 15 (02 R37). -/
abbrev HalfIx := Fin 2
/-- Tag slot (13 R408). -/
abbrev Slot := Fin 512
/-- Memory-port transfer ID (13 R394). -/
abbrev PortId := Fin 64
/-- Requester of a register access: protection IDs 0 to 15, 16 for test access (15 R474). -/
abbrev AccId := Fin 17
/-- Slate port 0 to 3 (08 R247). -/
abbrev SltPort := Fin 4
/-- Vertical channel: clusters 0 to 63, then G0 and G1 (12 R393). -/
abbrev ChIx := Fin 66
/-- Host processor 0 to 15 (14 R437). -/
abbrev ProcIx := Fin 16
/-- Interrupt source (14 R437). -/
abbrev SrcIx := Fin 256

end Sys2Proof
end

