-- ==== Sys2Proof/Syntax.lean ====
section
/-! DEFINITION. The commands of the block: one constructor for every row of spec/opcode_table.json, with the
row's operands. The block has no decoder of a processor's kind; a command is what reaches it at its ports (a
register access, a doorbell, a pin edge, a word on a port), the passing of a stored command through a stage of the
command pipeline (named by its tag slot), the expiry of one of its timers, or a physical event with what the
block's own converters and comparators measured. -/

namespace Sys2Proof

/-- Scope of a fault (14 Table 14-1): a unit address, or a context. -/
inductive Scope where
  | unit (u : Nat)
  | ctx (c : Nat)
  deriving DecidableEq, Repr, Inhabited

/-- What a cell's own amplifiers and comparators say about the carrier period that has just ended
(03 R90, R96): VOUT and VIN in microvolts, mean current in milliamperes, whether the cycle-by-cycle comparator
ended its on-time, and whether the duty clamp of R65 acted. -/
structure PeriodMeas where
  vout : Nat
  vin : Nat
  imean : Int
  cbc : Bool
  deriving DecidableEq, Repr, Inhabited

/-- What TEST of a cell measures (03 Table 3-7): ADC-A's reading of VOUT, microvolts; the current-sense zero, mA; the times of
the droop, overshoot, shunt and cycle-by-cycle comparators, ps; whether the switch node toggled in each of the 16 pulses and
freewheel conduction was seen; the ripple, mA peak to peak; and the switch node with the isolation switch open, microvolts. -/
structure CellTest where
  vAdc : Nat
  iZero : Int
  trips : List Nat
  toggles : Bool
  freewheel : Bool
  ripple : Nat
  open_ : Nat
  deriving DecidableEq, Repr, Inhabited

/-- What one frame of a sense unit converts (09 R282 to R294): ADC-A's value of each channel at its hold, ADC-V's of VIN,
ADC-B's of the check pair, and the value of each slice's urgent hold, in counts before clamping; and the cells in TEST whose
stage pulses (03 Table 3-7 step 4). -/
structure FrameMeas where
  a : List Int
  vin : Int
  bI : Int
  bV : Int
  pulse : BitVec 16
  urg : List Int
  deriving DecidableEq, Repr, Inhabited

/-- Result of one vertical-channel transfer (12 R378, R380): whether the strobe came, the poisoned beats delivered, the
lane of each corrected bit (one entry a correction), and clock bonds found open (R384): two each of CKD_P, CKD_N, CKU_P
and CKU_N. The words themselves are those of the slice. -/
structure LineMeas where
  strobe : Bool
  /-- Words that the slice corrected, and a double-bit error that it met in the line (R376). -/
  fixed : Nat
  dbl : Bool
  poison : Nat
  corr : List Nat
  ck : List Nat
  deriving DecidableEq, Repr, Inhabited

/-- What a sweep of one lane finds: where its eye begins and how wide it is, in steps of its delay line (12 R381). -/
structure LaneEye where
  lo : Nat
  width : Nat
  deriving DecidableEq, Repr, Inhabited

/-- Result of flash discovery (14 R444): the density in bytes and the opcode of the 4 KiB erase that the SFDP table gives, or the
failing DETAIL. -/
inductive NvDiscovery where
  | found (bytes : Nat) (erase : BitVec 8)
  | failed (detail : Nat)
  deriving DecidableEq, Repr, Inhabited

/-- One cluster's entry of the secure page (15 Table 15-4). -/
structure SecCluster where
  fBin : Nat
  sBin : Nat
  ageRef : Nat
  oTrim : List Int
  gTrim : List Int
  tTrim : List Int
  sensTrim : List Int
  deriving DecidableEq, Repr, Inhabited

/-- What the secure fill port returns (15 R469). T_CRIT is in 0.0625 degC (10 R307). -/
structure SecStore where
  readable : Bool
  crcOk : Bool
  tCrit : Int
  soaVmax : Nat
  devId : Word64
  lc : Nat
  clus : List SecCluster
  cellTrim : List Word64
  deriving DecidableEq, Repr, Inhabited

/-- What a cluster finds at its wake in bring-up step 5 (11 Table 11-3): the results of the 33 inputs at the ends of the two
phases of the open-wire test, in counts (09 R295), the first thermal sample (10 R308), and whether a start-up march of its
memories failed: the memory and the failing words (15 R467). -/
structure WakeMeas where
  phase1 : List Int
  phase2 : List Int
  temps : List Int
  marchFail : Option (Nat × Nat)
  deriving DecidableEq, Repr, Inhabited

/-- Readings of one board regulator (17 R502): none of one whose transfer was abandoned. -/
structure PmbusReading where
  status : Option (BitVec 16)
  vin : Option (BitVec 16)
  iout : Option (BitVec 16)
  temp : Option (BitVec 16)
  deriving DecidableEq, Repr, Inhabited

/-- One device's turn on the PMBus (17 R502): its four readings, and whether it has acknowledged an OPERATION written to it. -/
structure PmbusPoll where
  read : PmbusReading
  off : Bool
  deriving DecidableEq, Repr, Inhabited

/-- What lane training finds (08 R248, R278): the flight a child reports, in 0.125 ns, and whether the far end sends the other
ordered set. -/
structure LaneTrain where
  flight : Nat
  other : Bool
  deriving DecidableEq, Repr, Inhabited

/-- A clock domain that sleeps (01 R23, R25). -/
inductive SleepDom where
  | clu (n : CluIx)
  | gaf
  deriving DecidableEq, Repr, Inhabited

/-- The commands. Operands named `id`, `v` and `be` are the requester, the data word and the byte enables of a
register write; `slot` is the tag slot of a stored command; `chk` is the check byte of a slate marker. -/
inductive Instr where
  -- commands of the rings, each named by its tag slot (13 Table 13-5)
  | nop (slot : Slot)
  | fence (slot : Slot)
  | setTarget (slot : Slot)
  | ramp (slot : Slot)
  | domainOn (slot : Slot)
  | domainOff (slot : Slot)
  | loadBank (slot : Slot)
  | swapBank (slot : Slot)
  | callSheetLoad (slot : Slot)
  | contextOpen (slot : Slot)
  | contextClose (slot : Slot)
  | reelLoad (slot : Slot)
  | planArm (slot : Slot)
  | planDisarm (slot : Slot)
  | creditConfig (slot : Slot)
  | capSet (slot : Slot)
  | slateJoin (slot : Slot)
  | slateLeave (slot : Slot)
  | marginProbe (slot : Slot)
  | selfTest (slot : Slot)
  | march (slot : Slot)
  | telemetryRead (slot : Slot)
  | nvRead (slot : Slot)
  | stampConfig (slot : Slot)
  | unitDisable (slot : Slot)
  | unitEnable (slot : Slot)
  -- the pipeline and the memory port
  | doorbell (off : BitVec 12) (data : Word64) (be : BitVec 8)
  | descriptorFetch
  | descriptorDecode
  | commandDispatch (slot : Slot)
  | completionRecord (q : Fin 16)
  | writeAcknowledge (pid : PortId) (err : Bool)
  | writeReissue (pid : PortId)
  | readData (pid : PortId) (beats : List Beat) (bad : Bool)
  -- register accesses with an effect of their own
  | ringEnable (id : AccId) (v : Word32) (be : BitVec 4)
  | ringDisable (id : AccId) (v : Word32) (be : BitVec 4)
  | eventRingEnable (id : AccId) (v : Word32) (be : BitVec 4)
  | eventRingDisable (id : AccId) (v : Word32) (be : BitVec 4)
  | callSheetGo (id : AccId) (v : Word32) (be : BitVec 4)
  | epochWrite (id : AccId) (v : Word32) (be : BitVec 4)
  | pairLoRead (id : AccId) (off : BitVec 20)
  | bootLock (id : AccId) (v : Word32) (be : BitVec 4)
  | lcRequest (id : AccId) (v : Word32) (be : BitVec 4)
  | irqVecRead (id : AccId) (p : ProcIx)
  | irqFvecRead (id : AccId) (p : ProcIx)
  | irqAck (id : AccId) (p : ProcIx) (v : Word32) (be : BitVec 4)
  | irqFack (id : AccId) (p : ProcIx) (v : Word32) (be : BitVec 4)
  | irqPendSet (id : AccId) (w : Fin 8) (v : Word32) (be : BitVec 4)
  | irqPendClr (id : AccId) (w : Fin 8) (v : Word32) (be : BitVec 4)
  | irqMaskSet (id : AccId) (w : Fin 8) (v : Word32) (be : BitVec 4)
  | irqMaskClr (id : AccId) (w : Fin 8) (v : Word32) (be : BitVec 4)
  | firstErrorClear (id : AccId) (v : Word32) (be : BitVec 4)
  | faultInjection (id : AccId) (v : Word32) (be : BitVec 4)
  | singleShot (id : AccId) (n : CluIx) (v : Word32) (be : BitVec 4)
  | queueHeadRead (id : AccId) (n : CluIx)
  | legacyDataRead (id : AccId)
  | legacySelectWrite (id : AccId) (v : Word32) (be : BitVec 4)
  | registerWrite (id : AccId) (off : BitVec 20) (v : Word32) (be : BitVec 4)
  -- power, resets and pins
  | powerUp (vaon : Bool)
  | blockReset
  | blockResetRelease (tripCool : Bool)
  | hostFunctionalReset
  | hostResetRelease
  | tamper (ns : Nat)
  | externalThrottle (ns : Nat)
  | externalThrottleEnd
  | cue (w : Word64)
  | stampRequest (g : Fin 64)
  -- VIN and trips
  | vinWarning (mv : Nat)
  | vinRecovery (mv : Nat)
  | longDip
  | vcutRestore
  | vinReset (mv : Nat)
  | cellVinStop (n : CluIx) (k : CellIx) (mv : Nat)
  | cellVinResume (n : CluIx) (k : CellIx) (mv : Nat) (vout : Nat)
  | criticalTrip (n : CluIx) (e : Fin 8)
  | vudcLoss
  -- the carrier
  | syncQualified (n : CluIx) (hz : Nat)
  | syncLock (n : CluIx) (hz : Nat)
  | syncLoss (n : CluIx)
  | ditherStep (n : CluIx)
  -- the power cell
  | cellCommandWord (n : CluIx) (k : CellIx) (w : BitVec 40) (m : PeriodMeas)
  | parkTimeout (n : CluIx) (k : CellIx) (periods : Nat)
  | kick (n : CluIx) (k : CellIx) (vout : Nat)
  | kickEnd (n : CluIx) (k : CellIx) (vout : Nat)
  | kickRearm (n : CluIx) (k : CellIx)
  | truncation (n : CluIx) (k : CellIx) (vout : Nat)
  | truncationEnd (n : CluIx) (k : CellIx) (vout : Nat)
  | shunt (n : CluIx) (k : CellIx) (vout : Nat)
  | shuntEnd (n : CluIx) (k : CellIx) (vout : Nat)
  | overloadTimer (n : CluIx) (k : CellIx)
  | hiccup (n : CluIx) (k : CellIx) (cycles : Nat)
  | hiccupHold (n : CluIx) (k : CellIx) (m : PeriodMeas)
  | retryReset (n : CluIx) (k : CellIx)
  | cellSelfTest (n : CluIx) (k : CellIx) (x : CellTest) (lcal : Nat) (m : PeriodMeas)
  | startDone (n : CluIx) (k : CellIx) (vout : Nat)
  | startTimeout (n : CluIx) (k : CellIx) (vout : Nat)
  | stuckSwitch (n : CluIx) (k : CellIx) (periods : Nat)
  | noSwitching (n : CluIx) (k : CellIx) (periods : Nat)
  | openPhase (n : CluIx) (k : CellIx) (periods : Nat)
  | senseImplausible (n : CluIx) (k : CellIx) (periods : Nat)
  -- the control engine and the share bus
  | controlSample (n : CluIx) (mism : BitVec 16)
  | setpointSettled (d : DomIx)
  | settleTimeout (d : DomIx)
  | swapEffect (n : CluIx)
  | swapTimeout (n : CluIx)
  | continuityWindow (n : CluIx)
  | shareBusBroadcast
  | shareBusRecord (n : CluIx) (seq : BitVec 8)
  | gafferLoss (n : CluIx)
  -- sensing
  | senseFrame (n : CluIx) (m : FrameMeas)
  | backgroundCorrection (n : CluIx)
  | openWireTest (n : CluIx)
  | openWirePhase (n : CluIx) (value : Int)
  | boardSenseCheck (moved0 moved1 : Int)
  -- temperature and throttling
  | thermalSample (n : CluIx)
  | thermalSampleDelivered (n : CluIx) (t : List Int)
  | ageingMeasurement (n : CluIx) (stressed reference : Nat)
  | vfStepDown (d : DomIx)
  | capacitanceEstimate (n : CluIx) (est : List (Nat × Nat))
  -- credits
  | request (n : CluIx) (w : Word64)
  | returnW (n : CluIx) (w : Word64)
  | digest (n : CluIx) (w : Word64)
  | admissionRound (n : CluIx)
  | borrow (w : Word64)
  | give (w : Word64)
  | call (w : Word64)
  | lend (w : Word64)
  | bank (w : Word64)
  | recall (w : Word64)
  | withhold (w : Word64)
  | borrowRetry (n : CluIx) (h : HalfIx)
  | quietEnd (n : CluIx)
  | sliceBoundary (n : CluIx)
  | brollRelease (n : CluIx) (h : HalfIx)
  -- the Storyboard
  | preparationStart (n : CluIx) (h : HalfIx)
  | stepWinExpiry (n : CluIx) (h : HalfIx)
  | shotSwitch (c : CtxIx)
  | shotOnset (c : CtxIx)
  | missingCue (c : CtxIx)
  | shotEndEvaluation (c : CtxIx)
  | watermarkWrite (c : CtxIx)
  -- the slate
  | laneUp (p : SltPort) (m : LaneTrain)
  | laneDown (p : SltPort)
  | mkArrive (p : SltPort) (pay : BitVec 16) (chk : BitVec 8)
  | mkRelease (p : SltPort) (pay : BitVec 16) (chk : BitVec 8)
  | mkAbort (p : SltPort) (pay : BitVec 16) (chk : BitVec 8)
  | mkTime (p : SltPort) (pay : BitVec 16) (chk : BitVec 8)
  | mkPing (p : SltPort) (pay : BitVec 16) (chk : BitVec 8) (turn : Nat)
  | mkEcho (p : SltPort) (pay : BitVec 16) (chk : BitVec 8) (rtt : Nat)
  | mkEnum (p : SltPort) (arg : BitVec 12) (chk : BitVec 8)
  | mkCount (p : SltPort) (arg : BitVec 12) (chk : BitVec 8)
  | mkCountOver (p : SltPort) (arg : BitVec 12) (chk : BitVec 8)
  | mkReach (p : SltPort) (arg : BitVec 12) (chk : BitVec 8)
  | mkSize (p : SltPort) (arg : BitVec 12) (chk : BitVec 8)
  | mkStart (p : SltPort) (arg : BitVec 12) (chk : BitVec 8)
  | mkJoin (p : SltPort) (arg : BitVec 12) (chk : BitVec 8)
  | mkAdmit (p : SltPort) (arg : BitVec 12) (chk : BitVec 8)
  | mkLeave (p : SltPort) (arg : BitVec 12) (chk : BitVec 8)
  | mkDetach (p : SltPort) (arg : BitVec 12) (chk : BitVec 8)
  | mkDissolve (p : SltPort) (arg : BitVec 12) (chk : BitVec 8)
  | pingInterval
  | pingTimeout
  | timeTick
  | tickMissing
  | arriveSend
  | slateReleaseInstant
  | slateTimeout
  | localTimeout
  | joinTimeout
  -- the vertical channels
  | channelTraining (ch : ChIx) (ok : Bool) (eyes : List LaneEye)
  | channelRead (ch : ChIx) (m : LineMeas)
  | recalibration (ch : ChIx) (eyes : List LaneEye)
  | scrub (slice : Fin 65) (corrected poisoned : List Nat)
  -- faults, events, interrupts, records
  | faultRecord
  | mergeExpiry (code : Nat) (sc : Scope)
  | eventRecordWrite (j : Fin 4)
  | moderationTimer (p : ProcIx)
  | nvProgram (fail : Bool)
  | sectorErase
  | lcProgramDone (ok : Bool)
  -- bring-up and domain switching
  | bringupVinReady (marchFail : List Nat)
  | nvReplay (r : NvDiscovery)
  | securePageFill (st : SecStore) (sramFail : Bool)
  | callSheetAccepted
  | clusterWakeReport (n : CluIx) (m : WakeMeas)
  | treeAssembly
  | waveStart
  | headerStage (d : DomIx)
  | nbWaitExpiry (d : DomIx)
  | waveSettleExpiry (d : DomIx)
  | domainOnTimeout (d : DomIx)
  | upperDieClear (slice : Fin 65)
  | ready
  -- sleep and cluster reset
  | clusterSleep (n : CluIx)
  | gafferSleep
  | wake (x : SleepDom)
  | clockRunning (x : SleepDom)
  | wakeFailure (n : CluIx)
  | clusterResetRelease (n : CluIx)
  | marginProbeDwell (slot : Slot)
  | avsStatusPoll (st : List (BitVec 16))
  | avsCurrentPoll (cur : BitVec 16)
  | pmbusPoll (r : PmbusPoll)
  | shuntRearm (n : CluIx) (k : CellIx)
  | cellsModeOff (d : DomIx)
  | powerLoss (vaon : Bool)
  | correctedFaultClose (code : Nat) (sc : Scope)
  | processorIdle (p : ProcIx) (pri : BitVec 5)
  | secureWordRefill (w : Fin 2048) (ok : Bool) (val : Word64)
  | marchComplete (slot : Slot) (failing : Nat)
  | sectorEraseDone
  | boardSenseReading (b : Fin 3) (mv : Int)
  deriving DecidableEq, Repr

end Sys2Proof
end

