-- ==== Sys2Proof/Decode.lean ====
section
/-! DEFINITION. The word a command is spelled by. No row of spec/opcode_table.json gives bits: the commands reach the
block at its ports and not as words of one instruction memory, so no word spells a command. -/

namespace Sys2Proof

/-- The command that the word `w` of `nbits` bits spells by the table's bits: none, for the table gives no row bits. -/
def decodeTableWord (_nbits _w : Nat) : Option Instr := none

end Sys2Proof
end

