-- ==== Sys2Proof/Machine/State.lean ====
section
/-! DEFINITION. The state of the block, all of it, as plain data. Counts, sizes, times (in ns of elapsed time) and
exact quantities are natural numbers or integers; words, masks and register images are bit vectors. A docstring names
the rule of spec/ that gives the field. Fields marked MODEL'S OWN belong to the model and not to the spec. -/

namespace Sys2Proof.Machine
open Sys2Proof

/-- A sparse table: pairs of a key and an entry, keys strictly rising. -/
abbrev Tab (α : Type) := List (Nat × α)

/-- Every field of a vector at one value. -/
def vrep (n : Nat) {α : Type} (x : α) : Vector α n := Vector.replicate n x

/-! ## The power cell (chapter 03) -/

/-- Cell states, 03 Table 3-5. -/
inductive CellState where
  | idle | test | start | run | ballast | park | hiccup | latched | disabled
  deriving DecidableEq, Repr, Inhabited

/-- MODE of the cell command word, 03 Table 3-2. -/
inductive CellMode where
  | idle | start | run | ballast | park | test | off
  deriving DecidableEq, Repr, Inhabited

/-- The fast paths of one cell, 03 R85 to R89. -/
structure CellFast where
  /-- A kick is in progress, and the instant KICK_T ends it, in half ns. -/
  kickOn : Bool := false
  kickBy : Nat := 0
  /-- The kick path is armed; otherwise the instant KICK_REARM ends, in half ns. -/
  kickArmed : Bool := true
  kickRearmAt : Nat := 0
  /-- The high side is forced on for the rest of the period. -/
  forced : Bool := false
  /-- Ballast dropped by a kick, until the next word with MODE BALLAST after the kick (R87). -/
  balDropped : Bool := false
  truncOn : Bool := false
  /-- The duty word held during truncation (R88): DUTY and FRAC. -/
  heldDuty : Option (Nat × Nat) := none
  shuntOn : Bool := false
  shuntBy : Nat := 0
  shuntArmed : Bool := true
  shuntRearmAt : Nat := 0
  /-- Counts of the present sample (R89). -/
  nKick : Nat := 0
  nTrunc : Nat := 0
  nShunt : Nat := 0
  deriving DecidableEq, Repr, Inhabited

/-- Over-current, hiccup and detectors of one cell, 03 R77, R90 to R92, R99. -/
structure CellProt where
  /-- Consecutive limited cycles. -/
  limN : Nat := 0
  /-- Start of the run of periods above 5.0 A, and whether OVL_T has run out in it. -/
  ovlSince : Option Nat := none
  ovlExp : Bool := false
  /-- End of the HICCUP hold-off; whether HICCUP was entered from PARK. -/
  hiccBy : Nat := 0
  fromPark : Bool := false
  /-- Failed retries, and whether a retry is under way. -/
  retry : Nat := 0
  retrying : Bool := false
  /-- Entry into RUN, BALLAST or PARK since the last hiccup. -/
  cleanSince : Option Nat := none
  /-- Consecutive periods of each detector's condition and of missing words. -/
  stuckN : Nat := 0
  noswN : Nat := 0
  openN : Nat := 0
  senseN : Nat := 0
  missN : Nat := 0
  deriving DecidableEq, Repr, Inhabited

/-- The latched and reported bits of one cell, 03 R100. -/
structure CellBits where
  kick : Bool := false
  trunc : Bool := false
  shunt : Bool := false
  prebiasHigh : Bool := false
  /-- A limited cycle in the last sample, and in the present one. -/
  lim : Bool := false
  limNow : Bool := false
  /-- A duty clamp in the present sample (R65, R96). -/
  clampNow : Bool := false
  /-- The cell was in RUN or BALLAST at the last sample boundary and has not left them (R96). -/
  whole : Bool := false
  /-- Duty-limit flags reported to the cluster (R65, 01 R14). -/
  clampHi : Bool := false
  clampLo : Bool := false
  senseSusp : Bool := false
  /-- BAL values clamped to BALLAST_MAX (R94). -/
  balClamps : Nat := 0
  deriving DecidableEq, Repr, Inhabited

/-- When a cell's stage pulses and what on-time is commanded, as the hold of its sense channels needs them (09 R283): the
instants at which it last began and last ceased to switch, and for each of the last eight command words its arrival and the duty
applied before it, in quarter steps of DUTY, newest first. -/
structure CellPulse where
  onAt : Nat := 0
  offAt : Nat := 0
  earlier : List (Nat × Nat) := []
  deriving DecidableEq, Repr, Inhabited

/-- One power cell, ZN3-PC. -/
structure Cell where
  st : CellState := .idle
  pulse : CellPulse := {}
  /-- MODE of the last word applied; a change of it acts (R66). -/
  mode : CellMode := .idle
  /-- DUTY and FRAC (R64). -/
  duty : Nat := 0
  frac : Nat := 0
  /-- Target code of the last word (R63) and the reference, in microvolts (R82, R83). -/
  vref : Nat := 0
  refUv : Nat := 0
  /-- The reference still moves toward VREF after START (R82). -/
  ramping : Bool := false
  /-- Ballast counts of the last word, clamped (R94), and the ballast drawn now. -/
  bal : Nat := 0
  drawn : Nat := 0
  shadow : Bool := false
  flt : Bool := false
  safeCode : Nat := 0
  safeValid : Bool := false
  /-- Inductance estimate, pH (Table 3-7); 0 before the first TEST since power-off. -/
  lcal : Nat := 0
  /-- Pre-bias reading of TEST, microvolts, and the self-test pass bit (R81). -/
  preBias : Nat := 0
  pass : Bool := false
  cause : Nat := 0
  /-- Input isolation switch open (R76, R80); switching stopped for VIN (R80). -/
  isoOpen : Bool := true
  vinStop : Bool := false
  /-- UNIT_DISABLE has come: the cell is DISABLED at its next carrier start (11 R370). -/
  disDue : Bool := false
  /-- A soft start after a VIN stop or a hiccup in PARK: the rules of START hold (R80, R91). -/
  softStart : Bool := false
  /-- Entry into START; START_TO has not expired (R83). -/
  startAt : Nat := 0
  preHigh : Bool := false
  startArmed : Bool := false
  /-- Last entry into RUN (12 R389). -/
  runFrom : Nat := 0
  /-- State left for the cluster's sleep (01 R24), none when not parked for sleep. -/
  sleepFrom : Option CellState := none
  /-- Park duty last reported on the status path, 1/8,192 (R97): a free value each time. -/
  parkDuty : Nat := 0
  fast : CellFast := {}
  prot : CellProt := {}
  bits : CellBits := {}
  deriving DecidableEq, Repr, Inhabited

/-- A motion of the reference edge: a glide from one frequency to another, and the turns made up to an instant. -/
structure Turn where
  freqFrom : Nat
  freqTo : Nat
  glideAt : Nat
  rate : Nat
  ph : Nat
  phAt : Nat
  phFree : Bool
  pull : Int
  pullAt : Nat
  deriving DecidableEq, Repr, Inhabited

/-- The carrier of one cluster's timing master, 03 R67 to R75, R103, R515. Frequencies are in units of
0.5 MHz / 13,107,200, in which every dither frequency of R74 is exact. -/
structure Carrier where
  qualified : Bool := false
  locked : Bool := false
  /-- Frequency at the start of the glide, its target, its start instant; equal ends mean no glide. -/
  freqFrom : Nat := 0
  freqTo : Nat := 0
  glideAt : Nat := 0
  /-- Glide rate, frequency units per microsecond. -/
  rate : Nat := 0
  /-- Dither position m (R74, R75). -/
  m : Nat := 0
  /-- The reference edge: turns made since power-up, in 2^-1 frequency units x ns, up to an instant; until the first lock a
  free phase is added, which is arbitrary at power-up (R67, R515). -/
  ph : Nat := 0
  phAt : Nat := 0
  phFree : Bool := true
  /-- The phase that the edge still has to be pulled, at 5 degrees a period, from an instant on (R71). -/
  pull : Int := 0
  pullAt : Nat := 0
  /-- The motion before the last change, which a sense window that began in it still needs (09 R283). -/
  was : Option Turn := none
  deriving DecidableEq, Repr, Inhabited

/-- ZN_SYNC_IN as last reported by the masters that qualify it: its frequency in hertz, 0 before the first report, and its
phase at an instant, in the carrier's units (R67, R70). -/
structure SyncIn where
  hz : Nat := 0
  ph : Nat := 0
  phAt : Nat := 0
  deriving DecidableEq, Repr, Inhabited

/-! ## The control engine (chapter 04) -/

/-- One loop's coefficient set, 04 Table 4-6. Coefficients are Q2.22 integers. -/
structure LoopCoef where
  ki : Int := 0
  b0 : Int := 0
  b1 : Int := 0
  b2 : Int := 0
  a1 : Int := 0
  a2 : Int := 0
  imax : Int := 0
  imin : Int := 0
  sh : Nat := 0
  deriving DecidableEq, Repr, Inhabited

/-- One lane block, 04 Tables 4-6 and 4-7. -/
structure LaneCoef where
  loops : Vector LoopCoef 4 := vrep 4 {}
  clPeak : Nat := 0
  clCont : Nat := 0
  clTime : Nat := 0
  slMult : Nat := 0
  thOffset : Int := 0
  n0 : Int := 0
  n1 : Int := 0
  n2 : Int := 0
  m1 : Int := 0
  m2 : Int := 0
  notchEn : Bool := false
  rff : Nat := 0
  trkMargin : Nat := 0
  deriving DecidableEq, Repr, Inhabited

/-- A coefficient bank, 04 R134. `valid` is INACT_VALID when the bank is inactive. -/
structure Bank where
  fswLo : Nat := 0
  fswHi : Nat := 0
  cls : Nat := 0
  red : Bool := false
  lanes : Vector LaneCoef 16 := vrep 16 {}
  valid : Bool := false
  deriving DecidableEq, Repr, Inhabited

/-- One loop's state in one lane, Q18.22 (04 R108, R115). -/
structure LoopSt where
  i : Int := 0
  w1 : Int := 0
  w2 : Int := 0
  e1 : Int := 0
  e2 : Int := 0
  /-- Law output of the last sample (R140), and loop output (R115). -/
  l : Int := 0
  u : Int := 0
  deriving DecidableEq, Repr, Inhabited

/-- One lane of the control engine. -/
structure Lane where
  loops : Vector LoopSt 4 := vrep 4 {}
  x1 : Int := 0
  x2 : Int := 0
  y1 : Int := 0
  y2 : Int := 0
  /-- Winner's code of the last sample (R117). -/
  win : Nat := 0
  /-- Stage 5 duty and the limiter's 13-bit duty of the last sample (R121, R123). -/
  duty5 : Int := 0
  duty : Nat := 0
  /-- The last sample's duty was clamped at the upper or the lower limit (R119). -/
  clampHi : Bool := false
  clampLo : Bool := false
  /-- Consecutive samples with mean cell current above 5.0 A (R112). -/
  ovl : Nat := 0
  /-- Consecutive samples in which the swap conditions held (R139). -/
  calm : Nat := 0
  /-- Consecutive redundancy mismatches, and the park that follows three (R144). -/
  mism : Nat := 0
  redPark : Bool := false
  /-- Thermal error, refreshed when a thermal sample arrives (R113). -/
  thErr : Int := 0
  /-- Share trim, 8 fraction bits (05 R148). -/
  trim : Int := 0
  /-- In shadow-share (05 R168); voltage substituted (05 R165); current confirmed faulty. -/
  shadow : Bool := false
  vSub : Bool := false
  iSusp : Bool := false
  /-- Parked by the cluster under 05 R169. -/
  shParked : Bool := false
  /-- Its cell has received UNIT_DISABLE; UNIT_ENABLE then ends shadow-share (05 R170). -/
  udis : Bool := false
  /-- Continuity class (0 consistent, 1 phase, 2 current, 3 voltage, 4 common), windows of it in a row, the start of
  the first, and sums over the present window (05 R163, R164). -/
  cmClass : Nat := 0
  cmN : Nat := 0
  cmOpen : Nat := 0
  sumV : Int := 0
  sumI : Int := 0
  sumD : Int := 0
  winN : Nat := 0
  winBad : Bool := false
  /-- The other lanes' current of the previous window and of the one before it: its sum over lanes and samples, and the
  lanes (R164). -/
  prevSum : Int := 0
  prevCnt : Nat := 0
  olderSum : Int := 0
  olderCnt : Nat := 0
  /-- When the cell's SENSE_SUSP was set (05 R168). -/
  susSince : Option Nat := none
  /-- Energy of the cell in the interval, 2^-16 nJ (10 R333). -/
  energy : Nat := 0
  deriving DecidableEq, Repr, Inhabited

/-- The set-point change that takes effect at the next sample boundary (04 R126, R128). -/
structure Change where
  tgt : Nat
  /-- Rate code, 0.25 mV/us. -/
  rate : Nat
  /-- The command's slot; none for a shot or a change the block makes itself. -/
  cmd : Option Nat
  /-- From a shot: applied before command operations of the same sample (01 R18). -/
  shot : Bool
  /-- A ramp that stops at its present value, in one sample (11 R367). -/
  stop : Bool := false
  deriving DecidableEq, Repr, Inhabited

/-- The ramp of one half of a cluster, 04 R127 to R131. -/
structure Ramp where
  /-- Reference r, 12 integer and 12 fraction bits. -/
  r : Nat := 0
  tgt : Nat := 0
  step : Nat := 0
  cmd : Option Nat := none
  /-- Settled samples in a row, whether the cluster has reported settled, and when r reached the target. -/
  settled : Nat := 0
  done : Bool := false
  reachedAt : Option Nat := none
  chg : List Change := []
  deriving DecidableEq, Repr, Inhabited

/-- The ballast swap of one half of a cluster, 05 R154 to R160. h is in 1/4,096 code. -/
structure Prep where
  on : Bool := false
  /-- Ballast of the preparation sent now to each lane, and its target BAL_P. -/
  bal : Vector Nat 16 := vrep 16 0
  balP : Nat := 0
  /-- Begun since the last sample: the kicks of that sample were made before it. -/
  new : Bool := false
  h : Nat := 0
  hMax : Nat := 0
  onset : Nat := 0
  /-- Cells prepared, and cells that have made their swap (R157). -/
  cells : BitVec 16 := 0
  swapped : BitVec 16 := 0
  /-- h is being removed; BAL is being withdrawn (R158). -/
  falling : Bool := false
  withdrawn : Bool := false
  /-- Raised for kick support of staging (11 R360), and the instant from which it is lowered. -/
  support : Bool := false
  lowerAt : Option Nat := none
  /-- Shot that the preparation is for, until its STEP_WIN has passed or it is withdrawn. -/
  key : Option Nat := none
  /-- Shot whose preparation was withdrawn: its boundary gets no other (R158). -/
  gone : Option Nat := none
  deriving DecidableEq, Repr, Inhabited

/-- The ledger accounts of one half of a cluster, 07 R214 to R224. -/
structure Acc where
  ord : Nat := 0
  res : Nat := 0
  bh : Nat := 0
  debt : Nat := 0
  /-- Fade-in budget and its increment per ns, 16 fraction bits (R222). -/
  b : Nat := 0
  inc : Nat := 0
  /-- Accrual stopped by a preparation or by kick support (R222, 11 R360). -/
  frozen : Bool := false
  /-- Recycle allowance (R223). -/
  rc : Nat := 0
  /-- An outstanding BORROW and when the next may go (R225). -/
  borrowBy : Option Nat := none
  /-- Reservation shortfall still wanted (R224). -/
  short : Nat := 0
  /-- RES taken for the header stage in progress (11 R359). -/
  stageRes : Nat := 0
  /-- Surrender of Bh into ORD in progress (R235, R242, R371), 16 fraction bits carried. -/
  drain : Bool := false
  drainFrac : Nat := 0
  deriving DecidableEq, Repr, Inhabited

/-- B-roll of one half of a cluster, 07 R238 to R242. -/
structure Broll where
  /-- A HOLD shot is current, its forecast T_c in whole credits and its release instant once known. -/
  hold : Bool := false
  tc : Nat := 0
  release : Option Nat := none
  /-- The level is held: a HOLD shot was current and B-roll active when last judged (R238). -/
  held : Bool := false
  /-- The release instant that has passed, while Bh that remains still serves requests (R242). -/
  freed : Option Nat := none
  shortN : Nat := 0
  /-- Ballast counts sent to each lane for B-roll. -/
  bal : Nat := 0
  balExtra : Nat := 0
  /-- Raise of BAL after a dip in progress (11 R346). -/
  resume : Bool := false
  /-- HOLD shots that are current already while the release before them is still to come, oldest first, each with its own
  release once known: holding goes on to the last of them. -/
  further : List (Option Nat) := []
  deriving DecidableEq, Repr, Inhabited

/-- What one half of a cluster applies from its contexts' shots (06 R178, R179, R189). -/
structure Feed where
  /-- Context whose shot is applied, profile forecast in 1/32 credit (LOSHARE), trim in duty counts, predictor weight. -/
  ctx : Option Nat := none
  armed : Bool := false
  fProf : Nat := 0
  fft : Int := 0
  pbl : Nat := 0
  /-- Predictor output, 1/32 mA, and forecast F, mA. -/
  fPred : Int := 0
  forecast : Int := 0
  deriving DecidableEq, Repr, Inhabited

/-- One half of a cluster: what it keeps for the domain it serves. -/
structure Half where
  ramp : Ramp := {}
  prep : Prep := {}
  acc : Acc := {}
  broll : Broll := {}
  feed : Feed := {}
  /-- Domain offset o_d, 8 fraction bits (05 R151). -/
  offs : Int := 0
  /-- The ceiling on duty in force, where a protective limit sets one, 12-bit counts (04 R124). -/
  dutyCeil : Option Nat := none
  /-- Sums of sensed current of the last four samples, 4 mA, newest first (04 R111). -/
  hist : List Int := []
  /-- Share-bus interval: sum of contributing current and lane count at the last sample (05 R150). -/
  sumI : Int := 0
  cnt : Nat := 0
  /-- Winners of the interval and of the present sample: current, slope, thermal (04 R120). -/
  wonI : Bool := false
  wonS : Bool := false
  wonT : Bool := false
  nowProt : Bool := false
  /-- Energy of the interval, 2^-16 nJ (10 R333), and Bh credit-samples (10 R335). -/
  energy : Nat := 0
  bhSamples : Nat := 0
  /-- MEAN_I, contributing lanes and CAPACITY of the last record applied (05 Table 5-1). -/
  recMean : Int := 0
  recValid : Bool := false
  recCells : Nat := 0
  recCap : Nat := 0
  /-- Allotment A_c of the last broadcast, and CAP_c at it (07 R215, R216). -/
  allot : Nat := 0
  lastCap : Nat := 0
  /-- ORD, HELD_c and CAPACITY of the last report (05 R150, 07 R216). -/
  repOrd : Nat := 0
  repHeld : Nat := 0
  repCap : Nat := 0
  /-- Sum, number and lowest of the running cells' measured VOUT at the last sample (14 Table 14-6). -/
  vSum : Int := 0
  vCnt : Nat := 0
  vLow : Nat := 0
  deriving DecidableEq, Repr, Inhabited

/-! ## The ledger of a cluster (chapter 07) -/

/-- A pending request (07 R220). -/
structure Pend where
  amt : Nat
  filler : Bool
  /-- When it arrived (01 R28). -/
  at_ : Nat
  deriving DecidableEq, Repr, Inhabited

/-- A live grant slot (07 R230). -/
structure Grant where
  req : Nat
  gen : Nat
  left : Nat
  filler : Bool
  atRel : Bool
  half : Nat
  deriving DecidableEq, Repr, Inhabited

/-- The ledger shared by a cluster's halves. -/
structure Ledger where
  pend : Tab Pend := []
  /-- HELD_r of the lower and of the upper half, per requester (07 R214, R244). -/
  heldLo : Tab Nat := []
  heldHi : Tab Nat := []
  grants : Tab Grant := []
  /-- Slot generations that are not 0 (07 R230, R234). -/
  gens : Tab Nat := []
  /-- FILL asked and not yet ended, requester and amount, newest first (07 R240). -/
  fill : List (Nat × Nat) := []
  /-- Credit-samples of each requester in the broadcast interval (10 R335). -/
  samples : Tab Nat := []
  p : Nat := 0
  fp : Nat := 0
  /-- The half the next round examines first is fixed by p; slicing and requesters served in the slice. -/
  sliced : Bool := false
  sliceAt : Nat := 0
  served : List Nat := []
  quietBy : Option Nat := none
  /-- The cycle of the last admission round. -/
  roundAt : Nat := 0
  /-- Up to when the budgets of 07 R222 have accrued. -/
  accAt : Nat := 0
  /-- Events of the present cycle that wait for one that goes before them (07 R227; MODEL'S OWN). -/
  defer : List Instr := []
  stale : Nat := 0
  overRet : Nat := 0
  clamp : Nat := 0
  bad : Nat := 0
  resShort : Bool := false
  holdShort : Bool := false
  deriving DecidableEq, Repr, Inhabited

/-- A word of 07 Table 7-3 in flight. `up` is true from a cluster to the Gaffer. -/
structure LMsg where
  up : Bool
  op : Nat
  dom : Nat
  amt : Nat
  clu : Nat
  /-- For CALL and LEND: the borrower that the Gaffer forwards to (07 R225). -/
  to_ : Nat
  deriving DecidableEq, Repr, Inhabited

/-! ## The predictor (chapter 06) -/

/-- A predictor image in a cluster, 06 Table 6-11. -/
structure PredImg where
  w1 : List (List Int) := []
  b1 : List Int := []
  w2 : List Int := []
  b2 : Int := 0
  hsh : Nat := 0
  osh : Nat := 0
  /-- MU, an FP16 pattern. -/
  mu : BitVec 16 := 0
  fsh : List Nat := []
  fmtE : List Nat := []
  csc : List Int := []
  csr : List Int := []
  csw : Int := 0
  adapt : Bool := false
  qint : Nat := 0
  deriving DecidableEq, Repr, Inhabited

/-- A digest accepted in the window (06 Table 6-9). -/
structure Dig where
  req : Nat
  opc : Nat
  fmt : Nat
  tile : Nat
  tog : Nat
  ops : Nat
  /-- The sample in which it arrived. -/
  sample : Nat
  deriving DecidableEq, Repr, Inhabited

/-- One predictor of a cluster half, 06 R201 to R203. -/
structure Pred where
  img : Option PredImg := none
  ctx : Nat := 0
  stop : Bool := false
  /-- Evaluations, consecutive failed column or row checks. -/
  e : Nat := 0
  fails : Nat := 0
  /-- FP16 copies of W2 and applied updates since the last requantisation. -/
  w : List (BitVec 16) := []
  upd : Nat := 0
  /-- Evaluations that await their measurement: sample due, pred and hidden outputs (R203). -/
  due : List (Nat × Int × List Int) := []
  /-- Newest pred values, newest first. -/
  preds : List Int := []
  deriving DecidableEq, Repr, Inhabited

/-- The predictor's shared state in one cluster. -/
structure PredUnit where
  lo : Pred := {}
  hi : Pred := {}
  digs : List Dig := []
  digNow : Nat := 0
  /-- Measured current of each half, 4 mA, newest first, 128 samples. -/
  histLo : List Int := []
  histHi : List Int := []
  rangeCnt : Nat := 0
  csumCnt : Nat := 0
  skipCnt : Nat := 0
  digDrop : Nat := 0
  fcClamp : Nat := 0
  fftClamp : Nat := 0
  deriving DecidableEq, Repr, Inhabited

/-! ## The sense unit (chapter 09) -/

/-- A result of one channel, 09 Table 9-2. -/
structure SRes where
  code : Int := 0
  held : Bool := false
  clip : Bool := false
  hold : Nat := 0
  deriving DecidableEq, Repr, Inhabited

/-- An urgent request of one slice (09 R292). -/
structure Urgent where
  ch : Nat
  single : Bool
  at_ : Nat
  deriving DecidableEq, Repr, Inhabited

/-- The voltage comparison of a frame, whose ADC-B result exists 8 ns after the frame's boundary (09 R288): the channel, its
ADC-A result and the one before it, ADC-B's value, the instant, whether an offset was injected, and its queue entry. -/
structure VoltCheck where
  ch : Nat
  res : SRes
  prev : SRes
  b : Int
  due : Nat
  inj : Bool
  entry : Option Word64
  deriving DecidableEq, Repr, Inhabited

/-- Corrections of one ADC-A slice (09 R287): o in 1/8 LSB, g in 2^-16, tau in 62.5 fs. -/
structure Corr where
  o : Int := 0
  g : Int := 0
  tau : Int := 0
  lim : Bool := false
  /-- Sums over the 16 frames: differences and their count, signed by mid-scale and by slope. -/
  sumD : Int := 0
  n : Nat := 0
  sumG : Int := 0
  sumT : Int := 0
  deriving DecidableEq, Repr, Inhabited

/-- Open-wire rotation of one sense unit (09 R296). -/
structure OwTest where
  ch : Nat := 0
  /-- 0 idle, 1 first phase, 2 second phase. -/
  phase : Nat := 0
  first : Int := 0
  startAt : Nat := 0
  nextAt : Nat := 0
  phaseBy : Nat := 0
  /-- Start of each input's previous test. -/
  prev : Tab Nat := []
  deriving DecidableEq, Repr, Inhabited

/-- Section 0x0003 (09 R304). -/
structure Sec3 where
  trigV : Bool := false
  trigI : Bool := false
  dlyV : Nat := 0
  dlyI : Nat := 0
  pwV : Nat := 12
  pwI : Nat := 25
  chkN : Nat := 2
  align : Bool := false
  owInt : Nat := 64
  owT : Nat := 2
  dcapDly : Nat := 10
  dcapDis : Bool := false
  vinPw : Nat := 100
  deriving DecidableEq, Repr, Inhabited

/-- One sense unit. -/
structure Sense where
  res : Vector SRes 33 := vrep 33 {}
  susp : BitVec 33 := 0
  open_ : BitVec 33 := 0
  /-- Package VIN of the latest record, mV (09 R297). -/
  vinPkg : Option Nat := none
  /-- Consecutive disagreements per channel and the hold of the first (09 R289). -/
  dis : Tab Nat := []
  disAt : Tab Nat := []
  frame : Nat := 0
  frameAt : Nat := 0
  sliceFail : BitVec 4 := 0
  chkFail : Bool := false
  /-- Channels that disagreed in the present 16-frame cycle (R291). -/
  cycle : List Nat := []
  /-- Section 0x0003 before the last broadcast that changed it, and that broadcast (R305). -/
  s3Was : Option (Sec3 × Nat) := none
  /-- The voltage comparison that is still to be made (R288). -/
  volt : Option VoltCheck := none
  corr : Vector Corr 4 := vrep 4 {}
  ow : OwTest := {}
  /-- VIN channel: records in a row that differ and that agree (R297). -/
  vinBad : Nat := 0
  vinGood : Nat := 0
  urgent : List Urgent := []
  queue : List Word64 := []
  ovr : Bool := false
  qLost : Nat := 0
  urgCh : Nat := 0
  urgBusy : Bool := false
  urgDone : Bool := false
  urgRes : BitVec 16 := 0
  heldCnt : Nat := 0
  trigMiss : Nat := 0
  urgDrop : Nat := 0
  deriving DecidableEq, Repr, Inhabited

/-! ## Temperature (chapter 10) -/

/-- One sensor element (10 R310). Readings are in 0.0625 degC (R307). -/
structure Sensor where
  t : Int := 0
  openN : Nat := 0
  shortN : Nat := 0
  implN : Nat := 0
  broken : Bool := false
  elec : Bool := false
  deriving DecidableEq, Repr, Inhabited

/-- The thermal unit of one cluster. -/
structure Therm where
  sens : Vector Sensor 8 := vrep 8 {}
  allBad : Bool := false
  fast : Bool := false
  tMax : Int := 0
  tMin : Int := 0
  /-- Warnings that have not been cleared, and the low stop (R313, R314). -/
  lWarn : Bool := false
  hWarn : Bool := false
  lStop : Bool := false
  nextAt : Nat := 0
  /-- A sample taken and not yet delivered: its delivery instant. -/
  dueAt : Option Nat := none
  /-- Ageing slowdown a, the previous measurement, the next instant (R328). -/
  a : Nat := 0
  aPrev : Nat := 0
  ageAt : Nat := 0
  /-- Factory figures of the secure page (R326, R328). -/
  fBin : Nat := 0
  sBin : Nat := 0
  ageRef : Nat := 0
  deriving DecidableEq, Repr, Inhabited

/-! ## Settings of the cells -/

/-- Threshold words of 03 Table 3-11, defaults substituted. -/
structure Thresh where
  dmin : Nat := 82
  dmax : Nat := 1638
  droopTh : Nat := 10
  ovsTh : Nat := 8
  shuntTh : Nat := 10
  kickT : Nat := 6
  kickRearm : Nat := 16
  shuntT : Nat := 50
  hiccupN : Nat := 64
  hiccupHold : Nat := 20
  hiccupRetry : Nat := 8
  ilimCbc : Nat := 76
  ovlT : Nat := 10
  ballastMax : Nat := 20
  ssRate : Nat := 10
  startWin : Nat := 4
  startTo : Nat := 500
  openN : Nat := 32
  senseN : Nat := 16
  noswN : Nat := 4
  deriving DecidableEq, Repr, Inhabited

/-- Section 0x0001 (03 R101). -/
structure Sec1 where
  fsw : Nat := 250
  syncDis : Bool := false
  dspan : Nat := 0
  dseed : Nat := 0
  base : Thresh := {}
  ovr : List (Nat × Thresh) := []
  deriving DecidableEq, Repr, Inhabited

/-! ## The cluster controller -/

/-- Sleep state of a clock domain (01 R23 to R29). -/
inductive Clock where
  | running | asleep | waking
  deriving DecidableEq, Repr, Inhabited

/-- The engine part of a cluster. -/
structure Ctl where
  lanes : Vector Lane 16 := vrep 16 {}
  bankA : Bank := {}
  bankB : Bank := {}
  activeB : Bool := false
  loadBusy : Bool := false
  /-- A deferred swap: the command's slot and its deadline (04 R139). -/
  swap : Option (Nat × Nat) := none
  redMism : Bool := false
  swapClamp : Bool := false
  satCnt : Nat := 0
  mismCnt : Nat := 0
  /-- The next sample boundary and the count of samples. -/
  sampleAt : Nat := 0
  nSample : Nat := 0
  deriving DecidableEq, Repr, Inhabited

/-- RW configuration of a cluster, also held in the Gaffer's shadow (16 R486). -/
structure CluCfg where
  shr : Word32 := 0x01402008
  cm : Word32 := 0x0004218C
  prep : Word32 := 0x00000409
  qCtrl : Word32 := 0
  qMask : Word32 := 0
  deriving DecidableEq, Repr, Inhabited

/-- Capacitance estimates of one cell (12 R389): references, failed judgement of the last estimate. -/
structure CapEst where
  cRef : Nat := 0
  fRef : Nat := 0
  cEst : Nat := 0
  fRes : Nat := 0
  bad : Bool := false
  failed : Bool := false
  deriving DecidableEq, Repr, Inhabited

/-- One cluster controller, ZN3-CLU. -/
structure Cluster where
  cells : Vector Cell 16 := vrep 16 {}
  carrier : Carrier := {}
  /-- Carrier settings and thresholds in force in its cells (03 R103). -/
  s1 : Sec1 := {}
  ctl : Ctl := {}
  halves : Vector Half 2 := vrep 2 {}
  led : Ledger := {}
  pred : PredUnit := {}
  sense : Sense := {}
  therm : Therm := {}
  cfg : CluCfg := {}
  shadow : CluCfg := {}
  clock : Clock := .running
  /-- Sleep conditions have held since; consecutive failed wakes; the instant a wake must have succeeded. -/
  idleSince : Option Nat := none
  wakeFails : Nat := 0
  wakeBy : Nat := 0
  /-- In cluster reset (11 R368), since; the command that asked for it; reset released. -/
  inReset : Option Nat := none
  resetRel : Bool := false
  resetCmd : Option Nat := none
  /-- Reported in bring-up step 5. -/
  woke : Bool := false
  /-- Share bus: SEQ of the last record, missed records in a row, BUS_MISS (05 R152). -/
  busSeq : Nat := 0
  busMissRow : Nat := 0
  busMiss : Nat := 0
  /-- A record of the last broadcast came, or none was expected; records counted as missing since the last one that came. -/
  busGot : Bool := true
  busGone : Nat := 0
  gafLost : Bool := false
  caps : Vector CapEst 16 := vrep 16 {}
  capAt : Nat := 0
  /-- Samples or frames in the present window of the continuity monitor (05 R163). -/
  winAt : Nat := 0
  /-- Corrections and march failures (15 R478 MEM_CNT). -/
  stateCorr : Nat := 0
  coefCorr : Nat := 0
  ledgCorr : Nat := 0
  marchFail : Nat := 0
  deriving DecidableEq, Repr, Inhabited

/-! ## The call sheet (chapter 02, sections in their chapters), defaults substituted -/

/-- Cluster record, 02 Table 2-7. -/
structure CluRec where
  clu : Nat
  cells : BitVec 16
  domLo : Nat
  domHi : Nat
  deriving DecidableEq, Repr, Inhabited

/-- Domain record, 02 Table 2-8. -/
structure DomRec where
  dom : Nat
  dtype : Nat
  vmin : Nat
  vmax : Nat
  vboot : Nat
  vreset : Nat
  parent : Nat
  ilim : Nat
  slope : Nat
  fmax : Nat
  thrDom : Nat
  thrEn : Bool
  stackMask : BitVec 16
  deriving DecidableEq, Repr, Inhabited

/-- Group record, 02 Table 2-9. -/
structure GrpRec where
  grp : Nat
  level : Nat
  parent : Nat
  deriving DecidableEq, Repr, Inhabited

/-- One image entry of section 0x0002 (04 Table 4-9). -/
structure BankEntry where
  mask : BitVec 64
  addr : Nat
  dest : Nat
  deriving DecidableEq, Repr, Inhabited

/-- Section 0x0002 (04 R145). -/
structure Sec2 where
  slewDef : Nat := 40
  slewShot : Nat := 200
  swapErr : Nat := 4
  swapTo : Nat := 100
  settleWin : Nat := 8
  settleTo : Nat := 20
  entries : List BankEntry := []
  deriving DecidableEq, Repr, Inhabited

/-- The four call-sheet limits of 10 Table 10-1, degC. -/
structure TLimits where
  lstop : Int := -20
  lwarn : Int := -10
  hwarn : Int := 95
  thr : Int := 105
  deriving DecidableEq, Repr, Inhabited

/-- Section 0x0004 (10 R336). -/
structure Sec4 where
  base : TLimits := {}
  hyst : Int := 3
  fastBand : Int := 5
  plaus : Int := 20
  tsN : Nat := 3
  ovr : List (BitVec 64 × TLimits) := []
  deriving DecidableEq, Repr, Inhabited

/-- A rank of the blend table (10 R320). -/
structure Rank where
  act : Nat
  s : Nat
  e : Nat
  deriving DecidableEq, Repr, Inhabited

/-- Section 0x0005 (10 R337). -/
structure Sec5 where
  ranks : List Rank := [⟨1, 0, 255⟩, ⟨2, 256, 511⟩, ⟨3, 512, 767⟩, ⟨4, 768, 1023⟩]
  bubMax : Nat := 32
  skipMax : Nat := 12
  divMax : Nat := 3
  vfNmax : Nat := 4
  vfDv : Nat := 40
  vfWait : Nat := 1
  ageInt : Nat := 10
  capG : Nat := 64
  thG : Nat := 8
  curStep : Nat := 32
  slopeStep : Nat := 16
  sensorD : Nat := 256
  extD : Nat := 512
  deriving DecidableEq, Repr, Inhabited

/-- Section 0x0006, and the operands of CAP_SET MODE 1 (10 R331, R338). -/
structure Sec6 where
  capChip : Nat := 0
  fracNone : Nat := 0
  frac : List Nat := []
  deriving DecidableEq, Repr, Inhabited

/-- Domain record of section 0x0007 (11 Table 11-6). -/
structure StageRec where
  dom : Nat
  stageT : Nat
  istg : Nat
  deriving DecidableEq, Repr, Inhabited

/-- Section 0x0007 (11 R363). -/
structure Sec7 where
  stageT : Nat := 100
  stretch : Nat := 4
  nbPeak : Nat := 224
  waveSettle : Nat := 20
  nbWait : Nat := 50
  vcutDip : Nat := 192
  recs : List StageRec := []
  pairs : List (Nat × Nat) := []
  deriving DecidableEq, Repr, Inhabited

/-- Section 0x0008 (07 R243). -/
structure Sec8 where
  burst : Nat := 2
  rcShift : Nat := 3
  lendQ : Nat := 16
  fillQ : Nat := 2
  slice : Nat := 8
  sliceHold : Nat := 8
  force : Bool := false
  half : List (Nat × BitVec 256) := []
  deriving DecidableEq, Repr, Inhabited

/-- Section 0x0009 (08 R277). -/
structure Sec9 where
  role : Nat := 0
  dnen : BitVec 3 := 0
  sltTo : Nat := 200
  localMult : Nat := 4
  exclMax : Nat := 3
  joinTo : Nat := 100
  pingInt : Nat := 64
  rmargin : Nat := 80
  deriving DecidableEq, Repr, Inhabited

/-- Header fields of the call sheet, 02 Table 2-6, defaults substituted. -/
structure CshHdr where
  seq : Word32 := 0
  vinWarn : Nat := 1720
  vinHyst : Nat := 30
  vinReset : Nat := 1550
  vinWin : Nat := 50
  cluSleep : Nat := 10
  gafSleep : Nat := 10
  sleepI : Nat := 50
  parkN : Nat := 64
  deriving DecidableEq, Repr, Inhabited

/-- A call sheet in force. -/
structure CallSheet where
  hdr : CshHdr := {}
  clus : List CluRec := []
  doms : List DomRec := []
  grps : List GrpRec := []
  s1 : Sec1 := {}
  s2 : Sec2 := {}
  s3 : Sec3 := {}
  s4 : Sec4 := {}
  s5 : Sec5 := {}
  s6 : Sec6 := {}
  s7 : Sec7 := {}
  s8 : Sec8 := {}
  s9 : Sec9 := {}
  deriving DecidableEq, Repr, Inhabited

/-! ## Domains (chapters 02, 07, 10, 11) -/

/-- Throttle demands of one domain, 8 fraction bits (10 R318), and what they drive (R320, R326, R327). -/
structure Throttle where
  dCap : Nat := 0
  dTh : Nat := 0
  dCur : Nat := 0
  dSl : Nat := 0
  /-- THR_REASON, bit 0 CAP upward (02 Table 2-2). -/
  reason : BitVec 7 := 0
  stage : Nat := 0
  bub : Nat := 0
  skip : Nat := 0
  div : Nat := 0
  vf : Nat := 0
  /-- Steps whose ceiling is applied, and a step-down waiting for VF_WAIT: its steps and instant. -/
  vfCeil : Nat := 0
  vfWait : Option (Nat × Nat) := none
  fceil : Nat := 0xFFF
  /-- Share in force, W, as numerator and denominator; energy of the last interval, 2^-16 nJ. -/
  share : Nat × Nat := (0, 1)
  power : Nat := 0
  /-- Share formed at the last broadcast, applied at the next when it is higher (R330). -/
  shareNew : Nat × Nat := (0, 1)
  /-- HELD exceeded CAPACITY, a lane's current loop won, the slope loop won, in the broadcast interval (R318). -/
  sawHeld : Bool := false
  sawI : Bool := false
  sawS : Bool := false
  deriving DecidableEq, Repr, Inhabited

/-- A staging sequence in progress (11 R357 to R361). -/
structure Staging where
  /-- Closing (DOMAIN_ON or a wave) or opening (DOMAIN_OFF). -/
  closing : Bool
  /-- The command's slot; none for a wave of bring-up. -/
  cmd : Option Nat
  /-- Cells are still on their way to RUN; deadline of R357. -/
  waitRun : Bool
  runBy : Nat
  /-- Instant of the next stage, deadline of case D, deadline of WAVE_SETTLE or of MODE OFF. -/
  nextAt : Option Nat
  waitBy : Option Nat
  settleBy : Option Nat
  /-- When the stage before the present check closed. -/
  prevAt : Nat := 0
  /-- Case of the present check: 0 A, 1 B, 2 C, 3 D; paused by the VIN reason. -/
  case_ : Nat
  paused : Bool
  /-- Neighbours at peak at the present check: they accrue no fade-in budget until the stage closes (R360). -/
  froze : List Nat
  deriving DecidableEq, Repr, Inhabited

/-- The fields of the last share-bus broadcast for one domain (02 R47, 05 Table 5-1). -/
structure BRec where
  setpoint : Nat := 0
  cap : Nat := 0
  current : Int := 0
  held : Nat := 0
  free : Nat := 0
  energy : Nat := 0
  valid : Bool := false
  meanI : Int := 0
  ncell : Nat := 0
  time : Nat := 0
  thrStage : Nat := 0
  thrReason : BitVec 7 := 0
  deriving DecidableEq, Repr, Inhabited

/-- One domain. -/
structure Domain where
  /-- Pool size S_d, bank BF, withheld W (07 R214, R215). -/
  pool : Nat := 0
  bf : Nat := 0
  wh : Nat := 0
  /-- Shortfall of a fall in ILIM not yet taken from returns (02 R59). -/
  owed : Nat := 0
  /-- ILIM and SLOPE in force (07 R245), assembled capacity (02 R60). -/
  ilim : Nat := 0
  slope : Nat := 0
  asmCap : Nat := 0
  disabled : Bool := false
  /-- Target before the ceilings T (10 R327), and the pending set-point command's slot. -/
  tgt : Nat := 0
  cmd : Option Nat := none
  /-- Rate of the last change, for the re-ramp when a ceiling moves. -/
  rate : Nat := 0
  /-- Header stages closed, ON, and the sequencer's flags (11 R373). -/
  stages : Nat := 0
  nbWait : Bool := false
  stretched : Bool := false
  heldOff : Bool := false
  stg : Option Staging := none
  /-- Switched on: its cells regulate or are on their way (11 R357, R352). -/
  on : Bool := false
  /-- Its cells are sent MODE OFF (11 R361). -/
  modeOff : Bool := false
  /-- Ceiling of CAP_SET MODE 0, W (10 R331). -/
  ceilW : Nat := 0
  thr : Throttle := {}
  /-- Energy, exact, 2^-16 nJ (10 R334). -/
  energy : Nat := 0
  bc : BRec := {}
  /-- What the clusters' last reports give for the next broadcast (05 R150). -/
  rep : BRec := {}
  /-- FCEIL held by a MARGIN_PROBE at its T (14 R453). -/
  probeT : Option Nat := none
  /-- CREDIT_CONFIG waiting for its broadcast: slot, ILIM, SLOPE (07 R245). -/
  cfgWait : Option (Nat × Nat × Nat) := none
  deriving DecidableEq, Repr, Inhabited

/-! ## Contexts and the Storyboard (chapter 06) -/

/-- Context states, 06 Table 6-1. -/
inductive CtxState where
  | closed | reactive | armed | coasting
  deriving DecidableEq, Repr, Inhabited

/-- Context record, 06 Table 6-2, defaults substituted. -/
structure CtxRec where
  sbaseU : Nat := 0
  ssizeU : Nat := 0
  pbaseU : Nat := 0
  psizeU : Nat := 0
  doms : BitVec 128 := 0
  wmAddr : Nat := 0
  fftLim : Nat := 64
  predAddr : Nat := 0
  guard : List Nat := []
  cueWait : Nat := 2000
  ph : Nat := 2
  dwin : Nat := 4
  pdev : Nat := 256
  deriving DecidableEq, Repr, Inhabited

/-- A resident reel (06 R181, R184). -/
structure Reel where
  num : Nat
  sbase : Nat
  nshot : Nat
  pbase : Nat
  nprof : Nat
  /-- FR_LOGIC, FR_ARRAY, FR_MEMIF, FR_LINK when FR_EN is 1. -/
  fr : Option (Nat × Nat × Nat × Nat)
  deriving DecidableEq, Repr, Inhabited

/-- How far the notice of a played shot has come (06 R208, R210). -/
inductive Notice where
  | none | waiting | acked | lost
  deriving DecidableEq, Repr, Inhabited

/-- A played shot that the watermark has not passed. -/
structure Played where
  seq : Nat
  shot : Nat
  step : Nat
  guard : Nat
  onset : Option Nat
  end_ : Option Nat
  evaluated : Bool
  notice : Notice
  /-- A clamped set-point makes it retake-flagged (R189): the first clamped domain. -/
  flagged : Option Nat
  /-- Its onset has come. -/
  begun : Bool
  deriving DecidableEq, Repr, Inhabited

/-- The next shot in play order and its place on the timeline (06 R187). -/
structure NextShot where
  /-- None while it lies in a reel that is not resident (R185). -/
  shot : Option Nat
  reel : Nat
  onset : Option Nat
  cueAt : Option Nat
  late : Bool
  /-- LAST shots that its cue has skipped (R192). -/
  drops : List Nat := []
  deriving DecidableEq, Repr, Inhabited

/-- A trigger window (06 R206): its cause, its domain, which a VIN window has none of, its unit, and its bounds. -/
structure Trig where
  cause : Nat
  dom : Option Nat
  unit : Nat
  open_ : Nat
  close : Option Nat
  /-- T_CLOSE of an open phase has passed; a protective loop holds the window open (05 R166). -/
  spilt : Bool := false
  /-- Played shots, by context and SEQ, that have had their notice from this trigger (R208). -/
  hit : List (Nat × Nat) := []
  deriving DecidableEq, Repr, Inhabited

/-- A REEL_LOAD held or loading (06 R182, R183): its slot, whether its body loads, the OPEN_N it was accepted under,
and its header words once read. -/
structure Load where
  slot : Nat
  loading : Bool
  openN : Nat
  hdr : List Word64
  deriving DecidableEq, Repr, Inhabited

/-- A stored shot: two words, and poison (06 Table 6-3, 12 R376). -/
structure ShotEnt where
  w0 : Word64
  w1 : Word64
  poison : Bool
  deriving DecidableEq, Repr, Inhabited

/-- A profile entry of one cluster (06 Table 6-4). -/
structure ProfEnt where
  w : Word32
  poison : Bool
  deriving DecidableEq, Repr, Inhabited

/-- One context. -/
structure Context where
  st : CtxState := .closed
  pageWait : Bool := false
  poisoned : Bool := false
  openN : Nat := 0
  recd : CtxRec := {}
  reels : List Reel := []
  /-- REEL_LOADs of the context in order (06 R183). -/
  loads : List Load := []
  /-- LAST shots that a switched shot has skipped, until its onset (R192); first shot of the reel armed. -/
  dropReels : List Nat := []
  armShot : Option Nat := none
  /-- Shots of the window held in the Gaffer's SRAM, and the profile entries that they name held in the state RAM of the
  clusters: cluster, profile, entry (R180). -/
  pre : List (Nat × ShotEnt) := []
  ram : List (Nat × Nat × ProfEnt) := []
  /-- Current shot, none before the first; its SEQ and reel; SEQ of the next shot played (R209). -/
  cur : Option Nat := none
  curReel : Nat := 0
  curOnset : Option Nat := none
  seq : Nat := 0
  next : Option NextShot := none
  lastSwitch : Option Nat := none
  heldCue : Option (Word64 × Nat) := none
  /-- An uncued shot's switch is due in the present cycle, behind a cue that has come in it (R196; MODEL'S OWN). -/
  switchDue : Bool := false
  played : List Played := []
  /-- Watermark SEQ and the STEP of that shot, none before a shot is passed; stopped under R512. -/
  wm : Option (Nat × Nat) := none
  wmStop : Bool := false
  /-- The watermark does not advance in REACTIVE after poison (R211). -/
  wmFrozen : Bool := false
  wmAt : Nat := 0
  /-- The watermark moved since the word was last written. -/
  wmDirty : Bool := false
  /-- PLAN_DISARM or poison that takes effect at the next sample boundary. -/
  leaving : Bool := false
  poisoning : Option Nat := none
  /-- CONTEXT_CLOSE that waits for the watermark. -/
  closing : Option Nat := none
  /-- Fractions in force: falling part applied, rising part due at the next broadcast (R197). -/
  fr : Option (Nat × Nat × Nat × Nat) := none
  late : Nat := 0
  miss : Nat := 0
  unk : Nat := 0
  pageLate : Nat := 0
  rtMerge : Nat := 0
  deriving DecidableEq, Repr, Inhabited

/-- The upper die (12 R374): shot slice, profile columns, archives and dailies overflows. -/
structure Upper where
  shots : Tab ShotEnt := []
  prof : Vector (Tab ProfEnt) 64 := vrep 64 []
  arch : Vector (Vector Bank 4) 64 := vrep 64 (vrep 4 {})
  /-- Slices cleared since power-up (11 R355): clusters 0 to 63, then the shot slice. -/
  cleared : BitVec 65 := 0
  /-- Archive slots with a poisoned line (12 R376). -/
  archPoison : Vector (BitVec 4) 64 := vrep 64 0
  deriving DecidableEq, Repr, Inhabited

/-! ## The slate (chapter 08) -/

/-- One slate port. -/
structure SPort where
  /-- 0 DOWN, 1 TRAIN, 2 UP. -/
  st : Nat := 0
  child : Bool := false
  incl : Bool := false
  flight : Nat := 0
  excl : Nat := 0
  sub : Nat := 0
  /-- READY received for the open slate, ns of slate time. -/
  arrived : Option Int := none
  /-- Discovery: forwarded on, answered, answered COUNT_OVER, REACH. -/
  asked : Bool := false
  counted : Bool := false
  overrun : Bool := false
  reach : Option Nat := none
  /-- JOIN received and waiting for admission: participants. -/
  joinWait : Option Nat := none
  /-- The good copy of a paired marker that came last, and when: a copy that follows it at once is ignored (R251). -/
  last : Option (Word32 × Nat) := none
  /-- PING and ECHO exchanges since training began (R248). -/
  exch : Nat := 0
  deriving DecidableEq, Repr, Inhabited

/-- Slate time keeping (08 R254, R255). Times in 0.125 ns where said. -/
structure STime where
  /-- Offset of slate time from elapsed time at the last tick, 0.125 ns, and the trim of the rate, 0.125 ns per 4,096 ns. -/
  offs : Int := 0
  trim : Int := 0
  good : Nat := 0
  missing : Nat := 0
  lastTick : Nat := 0
  tickAt : Nat := 0
  locked : Bool := false
  /-- Round trips less turnaround of the last 64 exchanges of port 0, 0.125 ns, newest first. -/
  flights : List Nat := []
  pingSeq : Nat := 0
  pingAt : Nat := 0
  /-- PING sent and not answered: sequence and deadline. -/
  pingOut : Option (Nat × Nat) := none
  deriving DecidableEq, Repr, Inhabited

/-- The slate port of the Gaffer. -/
structure Slate where
  ports : Vector SPort 4 := vrep 4 {}
  time : STime := {}
  joined : Bool := false
  relay : Bool := false
  lost : Bool := false
  level : Nat := 0
  n : Nat := 0
  /-- N that the next release instant brings; at the root, N as it has changed since the last SIZE (R267). -/
  nNext : Option Nat := none
  nPend : Option Nat := none
  ctx : Nat := 0
  reach : Nat := 0
  rlead : Nat := 0
  /-- Discovery: 0 none, 1 ENUM sent or received and not answered, 2 answered (R258). -/
  disc : Nat := 0
  /-- SLATE_JOIN pending: slot and deadline. -/
  join : Option (Nat × Nat) := none
  /-- Leaving at the next release (R274), and the SLATE_LEAVE that asked for it. -/
  leaving : Bool := false
  leave : Option Nat := none
  /-- Open slate: own READY and when own ARRIVE went, elapsed ns; the combine has been sent upward (R263). -/
  open_ : Bool := false
  ready : Option Nat := none
  /-- READY of the chip's own ARRIVE in the open slate. -/
  own : Option Nat := none
  sentAt : Nat := 0
  upSent : Bool := false
  /-- SEQ of the SLATE shot whose ARRIVE has gone, or whose skip has been paid; SEQ and release instant of the one
  whose release is known. -/
  sentFor : Option Nat := none
  relFor : Option (Nat × Nat) := none
  /-- Release instant, elapsed ns, not yet reached; that of the last RELEASE or ABORT forwarded; own last release. -/
  rel : Option Nat := none
  /-- A skip's own release behind it (R270). -/
  relNext : Option Nat := none
  lastFwd : Nat := 0
  lastRel : Option Nat := none
  skips : Nat := 0
  abortCnt : Nat := 0
  skipCnt : Nat := 0
  raceCnt : Nat := 0
  mkErr : Nat := 0
  lateRel : Bool := false
  earlyRel : Bool := false
  /-- Events of the present word clock that await the rest of it, in order of receipt (R276). -/
  defer : List Instr := []
  deriving DecidableEq, Repr, Inhabited

/-! ## Vertical channels (chapter 12) -/

/-- A read waiting on a channel. -/
inductive ChJob where
  /-- A profile entry of a shot for a cluster (06 R180). -/
  | prof (ctx : Nat) (p : Nat)
  /-- An archive slot for LOAD_BANK, with the command's slot (04 R136). -/
  | arch (slot : Nat) (s : Nat)
  /-- A profile entry prefetched for a context, and a line of the shot slice (06 R180). -/
  | fill (ctx : Nat) (p : Nat)
  | shots (ctx : Nat) (line : Nat)
  deriving DecidableEq, Repr, Inhabited

/-- One vertical channel. -/
structure Channel where
  /-- 0 training, 1 full width, 2 half width, 3 offline (12 R393). -/
  st : Nat := 3
  dqFail : BitVec 80 := 0
  caFail : BitVec 10 := 0
  /-- Clock bonds lost, two each of CKD_P, CKD_N, CKU_P, CKU_N. -/
  ckFail : BitVec 8 := 0
  /-- Spare lane map: failed lane and the spare that stands for it. -/
  map : List (Nat × Nat) := []
  vudcLost : Bool := false
  /-- Corrections of the last 1 ms: lane and instant of each (12 R384). -/
  corrs : List (Nat × Nat) := []
  recalAt : Nat := 0
  group : Nat := 0
  /-- The last lane failure (12 R388), and when the scrubber next ends a pass over the slice (12 R376). -/
  failAt : Option Nat := none
  scrubAt : Nat := 0
  fenced : Bool := false
  jobs : List ChJob := []
  /-- Commands that the fence found issued and that still return (12 R392). -/
  issued : Nat := 0
  /-- Lines of the archive read in progress that have come, and one of them was bad (12 R379). -/
  archAt : Nat := 0
  archBad : Bool := false
  /-- Delay setting of each DQ and CA lane, in steps of 15.625 ps (12 R381, R383). -/
  delay : Vector Nat 90 := vrep 90 0
  /-- The DQ lanes that carry a word in half width (12 R385). -/
  half : List Nat := []
  corr : Nat := 0
  uncorr : Nat := 0
  caErr : Nat := 0
  fencePoison : Nat := 0
  capSusp : Nat := 0
  capFail : Bool := false
  capK : Nat := 256
  cMin : Nat := 0
  fRes : Nat := 0
  deriving DecidableEq, Repr, Inhabited

/-! ## The host interface (chapter 13) -/

/-- One of the 36 rings, 13 Table 13-2. -/
structure Ring where
  on : Bool := false
  /-- Disable written and not yet drained. -/
  dis : Bool := false
  /-- Enable written, entry read outstanding. -/
  arming : Bool := false
  base : Nat := 0
  log2n : Nat := 6
  idxAddr : Nat := 0
  pid : Nat := 0
  cpl : Nat := 0
  slotBase : Nat := 0
  slotCnt : Nat := 0
  tf : Bool := false
  tr : Bool := false
  ctxMask : BitVec 16 := 0
  /-- Producer and consumer indices (R402); for a command ring `issued` is the next index a fetch reads, and `cons`
  moves on when the descriptors are in the Gaffer (R403). -/
  prod : BitVec 32 := 0
  cons : BitVec 32 := 0
  issued : BitVec 32 := 0
  /-- Producer index already covered by acknowledged records (R403). -/
  acked : BitVec 32 := 0
  /-- The last doorbell accepted: its instant and the host-side index before it; the instant of the last disable (R407). -/
  db : Option (Nat × BitVec 32) := none
  disAt : Option Nat := none
  deriving DecidableEq, Repr, Inhabited

/-- Where a command stands in the pipeline of 01 Table 1-4. -/
inductive Stage where
  /-- Decoded and in scope; its own validation follows. -/
  | decoded
  /-- Validated; waits in resolve and arbitrate. -/
  | held
  /-- Chosen by arbitrate; its own command word dispatches it. -/
  | selected
  /-- Dispatched; its operations run. -/
  | dispatched
  /-- In the complete stage: its record is formed. -/
  | complete
  deriving DecidableEq, Repr, Inhabited

/-- Completion status, 13 Table 13-7. -/
inductive Status where
  | done | superseded | abortedDisabled | abortedReset | rejectedLimit | rejectedFormat | rejectedState
  | poisoned | timeout
  deriving DecidableEq, Repr, Inhabited

/-- A command in a tag slot. -/
structure Cmd where
  opc : Nat
  gen : Nat
  unit : Nat
  ctx : Nat
  pred0 : Option Nat
  pred1 : Option Nat
  ops : List Word64
  cookie : Word64
  ring : Nat
  index : BitVec 32
  /-- Order of fetch (R415). -/
  age : Nat
  stage : Stage
  /-- Parts of a group command that are not ended: domains; and the ends of the others (04 R513). -/
  parts : List Nat
  ends : List (Nat × Status)
  /-- RESULT that a part gives with its failure (13 Table 13-5). -/
  fails : List (Nat × Nat)
  /-- Broadcasts still to wait (10 R331). -/
  wait : Nat
  /-- Tags whose records must be formed before this command's (R416): the commands it superseded. -/
  holdFor : List Nat
  deriving DecidableEq, Repr, Inhabited

/-- A completion record waiting in the complete stage, 13 Table 13-6. -/
structure CplRec where
  ring : Nat
  slot : Option Nat
  tag : Nat
  status : Status
  opc : Nat
  index : BitVec 32
  result : Word64
  time : Nat
  cookie : Word64
  /-- Held until the records of these tags have been formed (R416, R369). -/
  after : List Nat
  deriving DecidableEq, Repr, Inhabited

/-- What a memory-port write carries. -/
inductive WrUse where
  | cpl (ring : Nat) (slot : Option Nat) (idx : BitVec 32)
  | event (ring : Nat) (idx : BitVec 32) (notice : Option (Nat × Nat))
  | index (ring : Nat)
  | wm (ctx : Nat)
  | data (slot : Nat) (last : Bool)
  | verdict (slot : Nat) (last : Bool)
  /-- Its command has ended. -/
  | drop
  deriving DecidableEq, Repr, Inhabited

/-- A write outstanding (13 R395, R398). -/
structure WrReq where
  addr : Nat
  words : List Word64
  use : WrUse
  issues : Nat
  /-- Waiting to be issued again until this instant. -/
  retryAt : Option Nat
  /-- SRC of the transfer (13 R396). -/
  src : Nat
  deriving DecidableEq, Repr, Inhabited

/-- What a memory-port read is for. -/
inductive RdUse where
  | desc (ring : Nat) (idx : BitVec 32) (n age : Nat)
  | ringEntry (ring : Nat)
  | bank (slot : Nat)
  | csh (slot : Option Nat)
  | cshBank (slot : Option Nat) (entry : Nat)
  /-- An archive slot filled from a second read of its image (11 R355). -/
  | archBank (clu : Nat) (slot : Nat)
  | ctx (slot : Nat)
  | pred (slot : Nat) (clu : Nat)
  | reel (slot : Nat)
  | verdict (slot : Nat)
  | rebank (clu : Nat)
  | repred (clu : Nat) (half : Nat)
  /-- Its command has ended: the data is not used. -/
  | drop
  deriving DecidableEq, Repr, Inhabited

/-- A read outstanding: address of its next beat, bytes it still needs, beats due of the present transfer, bytes of its
first beat in front of its data, the words so far and the positions of the poisoned ones. -/
structure RdReq where
  addr : Nat
  left : Nat
  due : Nat
  skip : Nat
  use : RdUse
  words : List Word64
  bads : List Nat
  src : Nat
  deriving DecidableEq, Repr, Inhabited

/-- A descriptor that a fetch has brought and decode has not yet taken. -/
structure Fetched where
  ring : Nat
  index : BitVec 32
  words : List Word64
  poison : Bool
  age : Nat
  deriving DecidableEq, Repr, Inhabited

/-- An event record waiting for its ring (13 R423). -/
structure EvRec where
  ring : Nat
  words : List Word64
  /-- Cluster in which it arose. -/
  clu : Option Nat
  /-- A retake notice: context and SEQ. -/
  notice : Option (Nat × Nat)
  /-- Order in which it arose. -/
  ord : Nat
  /-- Bound straight for its ring, waiting in no buffer (13 R423); its line of an overflow is poisoned (12 R376). -/
  direct : Bool := false
  poison : Bool := false
  deriving DecidableEq, Repr, Inhabited

/-- The LOST place of one event ring (13 R424). -/
structure LostPlace where
  count : Nat := 0
  first : Nat := 0
  last : Nat := 0
  deriving DecidableEq, Repr, Inhabited

/-- Rings, tags and the memory port. -/
structure HostIf where
  /-- A host functional reset is in progress (11 R367). -/
  reset : Bool := false
  tbl : Nat := 0
  rings : Vector Ring 36 := vrep 36 {}
  errRing : Nat := 0
  errCode : Nat := 0
  rr : Nat := 0
  /-- Live commands by slot, and generations that are not 0. -/
  cmds : Tab Cmd := []
  gens : Tab Nat := []
  ages : Nat := 0
  fetched : List Fetched := []
  /-- Completion records in the order of entry, and those issued: slot kept until acknowledged. -/
  cpls : List CplRec := []
  reads : Tab RdReq := []
  writes : Tab WrReq := []
  dbBad : Nat := 0
  dbDrop : Nat := 0
  portErr : Nat := 0
  /-- Dailies buffer and cluster overflows, oldest first (R423). -/
  buf : List EvRec := []
  ovf : Vector (List EvRec) 64 := vrep 64 []
  /-- The place of the oldest record of each overflow, 0 to 3,071, and records whose write a fence holds (12 R392). -/
  ovfAt : Vector Nat 64 := vrep 64 0
  held : List EvRec := []
  evOrd : Nat := 0
  lost : Vector LostPlace 4 := vrep 4 {}
  lostCnt : Nat := 0
  unrouted : Nat := 0
  deriving DecidableEq, Repr, Inhabited

/-! ## Faults, interrupts and records (chapter 14) -/

/-- A raise in the collector's queue. -/
structure Raise where
  code : Nat
  cls : Nat
  sc : Scope
  inj : Bool
  detail : Nat
  addr : Nat
  master : Nat
  acc : Nat
  time : Nat
  /-- Captured as the first error (R434). -/
  first : Bool
  deriving DecidableEq, Repr, Inhabited

/-- An open fault, or the merge record of a code and scope (14 R432, R433). -/
structure Flt where
  code : Nat
  cls : Nat
  sc : Scope
  last : Nat
  deriving DecidableEq, Repr, Inhabited

/-- Merge state of one code and scope. -/
structure Merge where
  code : Nat
  sc : Scope
  /-- Instant of the last record and raises merged since; the latest of them. -/
  at_ : Nat
  count : Nat
  last : Raise
  deriving DecidableEq, Repr, Inhabited

/-- The first-error capture (14 R434). -/
structure FirstErr where
  valid : Bool := false
  cls : Nat := 0
  code : Nat := 0
  sc : Scope := .unit 0
  addr : Nat := 0
  master : Nat := 0
  acc : Nat := 0
  time : Nat := 0
  multi : Nat := 0
  deriving DecidableEq, Repr, Inhabited

/-- An armed injection of kinds 1 to 4 (14 Table 14-8). -/
structure Inject where
  kind : Nat
  unit : Nat
  arg : Word32
  left : Nat
  deriving DecidableEq, Repr, Inhabited

/-- The fault collector. -/
structure Faults where
  queue : List Raise := []
  qLost : Nat := 0
  opens : List Flt := []
  merges : List Merge := []
  fseq : Nat := 0
  first : FirstErr := {}
  fatal : Bool := false
  map : Word32 := 0x0003E83A
  injReg : Word32 := 0
  injArg : Word32 := 0
  injects : List Inject := []
  /-- What is being done now is caused by an injection: its raises carry INJ 1 (MODEL'S OWN). -/
  injNow : Bool := false
  deriving DecidableEq, Repr, Inhabited

/-- One interrupt source (14 R437, R438). -/
structure IrqSrc where
  cfg : Word32 := 0x00000001
  masked : Bool := true
  pending : Bool := false
  target : Option Nat := none
  insvc : Option Nat := none
  lost : Nat := 0
  coal : Nat := 0
  deriving DecidableEq, Repr, Inhabited

/-- One processor's side of the controller. -/
structure IrqProc where
  mod : Word32 := 0
  /-- Moderation timer: its start, none while stopped; it has reached MOD_T. -/
  timer : Option Nat := none
  expired : Bool := false
  pri : BitVec 5 := 0
  ackBad : Nat := 0
  fackBad : Nat := 0
  deriving DecidableEq, Repr, Inhabited

/-- A source that has fired at the present instant: how often, and what it was before (14 R442). -/
structure Fired where
  src : Nat
  at_ : Nat
  n : Nat
  pending : Bool
  lost : Nat
  coal : Nat
  deriving DecidableEq, Repr, Inhabited

/-- The interrupt controller. -/
structure Irq where
  src : Vector IrqSrc 256 := vrep 256 {}
  proc : Vector IrqProc 16 := vrep 16 {}
  procEn : BitVec 16 := 0
  last : Nat := 15
  /-- Firings of the present instant. -/
  fires : List Fired := []
  deriving DecidableEq, Repr, Inhabited

/-- A staged NV record (14 R446, R447): its words, NSEQ, flash slot, and programs completed. -/
structure NvRec where
  nseq : Nat
  kind : Nat
  words : List Word64
  slot : Nat
  replayed : Bool
  step : Nat
  deriving DecidableEq, Repr, Inhabited

/-- A slot of the flash area: its words and COMMIT. -/
structure FlashSlot where
  words : List Word64
  committed : Bool
  deriving DecidableEq, Repr, Inhabited

/-- The NV record store. -/
structure Nv where
  ready : Bool := false
  addr4 : Bool := false
  base : Word32 := 0
  /-- Opcode of the 4 KiB erase, from the SFDP table (14 R444). -/
  eraseOp : Nat := 0
  erasing : Bool := false
  /-- Sector being erased. -/
  sector : Nat := 0
  staged : List NvRec := []
  flash : Tab FlashSlot := []
  seq : Nat := 0
  next : Nat := 0
  nextSeq : Nat := 0
  boots : Nat := 0
  replay : Bool := false
  lost : Nat := 0
  /-- Retention slots withdrawn (15 R467). -/
  withdrawn : Nat := 0
  deriving DecidableEq, Repr, Inhabited

/-- A stamp region (14 R451): domain, enable, and a mapping that waits for the next sample boundary. -/
structure StampReg where
  dom : Nat := 0
  en : Bool := false
  chg : Option (Nat × Bool × Nat) := none
  deriving DecidableEq, Repr, Inhabited

/-- A MARGIN_PROBE under way (14 R453). -/
structure Probe where
  slot : Nat
  dom : Nat
  t : Nat
  k : Nat
  last : Nat
  stop : Nat
  /-- Cells in RUN or BALLAST when last looked at. -/
  run : Nat
  /-- 0 ramping to a step, 1 TEST written, 2 dwelling, 3 reading the verdict, 4 restoring, 5 END written. -/
  phase : Nat
  dwellBy : Nat
  deriving DecidableEq, Repr, Inhabited

/-- A SELF_TEST under way (14 R456): clusters, operations, seed, next operation, mismatches. -/
structure SelfT where
  slot : Nat
  a : Nat
  b : Nat
  nops : Nat
  seed : Nat
  ia : Nat
  ib : Nat
  sigA : List (BitVec 16)
  sigB : List (BitVec 16)
  cmp : Nat
  mism : Nat
  deriving DecidableEq, Repr, Inhabited

/-! ## Secure page, registers, boards (chapters 15 to 17) -/

/-- Distributed chip limits and what the secure page holds (15 Table 15-4). -/
structure Secure where
  filled : Bool := false
  wiped : Bool := false
  tamper : Bool := false
  lcFail : Bool := false
  refill : Bool := false
  lc : Nat := 0
  lcReq : Option Nat := none
  lock : Bool := false
  /-- Values in force (R471): T_CRIT in 0.0625 degC, SOA_VMAX. -/
  tCrit : Int := 0
  soaVmax : Nat := 0
  /-- The page: what the last fill brought, none when never filled or wiped. -/
  page : Option SecStore := none
  /-- Words filled again from the store after an uncorrectable read: word index and value; the words that await it, and
  whether an injection made the read fail (R461). -/
  patches : Tab Word64 := []
  refillWait : List (Nat × Bool) := []
  /-- A word could not be filled again, so that the page fails its check (R469). -/
  bad : Bool := false
  /-- What the secure store last presented: its one-time contents (MODEL'S OWN). -/
  store : Option SecStore := none
  /-- Protection entries, 8 words each (R478). -/
  prot : Vector (Vector Word32 8) 16 := vrep 16 (vrep 8 0)
  violCnt : Nat := 0
  violId : Nat := 0
  violKind : Nat := 0
  deriving DecidableEq, Repr, Inhabited

/-- Board-facing sense (09 R302, R303): readings in mV and states of B0 and B1. -/
structure Board where
  b : Vector Int 3 := vrep 3 0
  /-- Package VIN sent with the last broadcast, mV (09 R297), and the AVSBus reference, mV (09 R303). -/
  sent : Nat := 0
  avsRef : Nat := 0
  st0 : Nat := 0
  st1 : Nat := 0
  /-- Consecutive readings: low or high, and short, of B0 and B1. -/
  bad0 : Nat := 0
  bad1 : Nat := 0
  short0 : Nat := 0
  short1 : Nat := 0
  rev0 : Nat := 0
  rev1 : Nat := 0
  /-- The power-up judgement has been made, and the next open-wire test in service is due (Table 9-5). -/
  judged : Bool := false
  checkAt : Nat := 0
  deriving DecidableEq, Repr, Inhabited

/-- The regulator buses (17 R501 to R503). -/
structure Buses where
  avsSt : List (BitVec 16) := []
  avsDone : Bool := false
  avsCur : Tab (BitVec 16) := []
  avsRail : Nat := 0
  pmb : Tab PmbusReading := []
  pmbNext : Nat := 0
  /-- Regulators that have not acknowledged the OPERATION of a critical trip (17 R502). -/
  pmbOff : List Nat := []
  /-- Instants of the next polls; the status poll begins with the first voltage write. -/
  avsAt : Nat := 0
  curAt : Nat := 0
  pmbAt : Nat := 0
  deriving DecidableEq, Repr, Inhabited

/-- The legacy sense window (09 R301). -/
structure Legacy where
  sel : Word32 := 0
  res : BitVec 16 := 0
  valid : Bool := false
  ovr : Bool := false
  deriving DecidableEq, Repr, Inhabited

/-- Bring-up (11 R350, R373). -/
structure Boot where
  step : Nat := 1
  halt : Bool := false
  waitGo : Bool := false
  waitVin : Bool := false
  wave : Nat := 0
  /-- Domains of the wave in progress that have not settled; waves still to run. -/
  inWave : List Nat := []
  waves : List (List Nat) := []
  us : Nat := 0
  relAt : Nat := 0
  /-- This bring-up follows a power-up of the logic, and one of ZN_VAON (R355, 15 R460). -/
  power : Bool := true
  vaonUp : Bool := true
  por : Bool := true
  pin : Bool := false
  vinRst : Bool := false
  trip : Bool := false
  host : Bool := false
  cluRst : Nat := 0
  /-- Call-sheet loading (16 R490). -/
  cshBase : Nat := 0
  cshCheck : Nat := 0
  cshState : Nat := 0
  /-- The image that GO fetched, waiting for its checks: words, poison, the bank images read. -/
  cshImg : Option (List Word64 × Bool) := none
  cshBanks : List (List Word64) := []
  deriving DecidableEq, Repr, Inhabited

/-- VIN supervision (11 R343 to R349). -/
structure Vin where
  mv : Nat := 1900
  warn : Bool := false
  dip : Bool := false
  long : Bool := false
  rstreq : Bool := false
  dips : Nat := 0
  minMv : Nat := 0
  /-- VIN_WIN deadline of the dip; end of the 1 ms of R347. -/
  dipBy : Option Nat := none
  okBy : Option Nat := none
  vcut : Nat := 256
  /-- Thresholds in force once a call sheet has been accepted (R343). -/
  thr : Option (Nat × Nat × Nat × Nat) := none
  /-- Admission and ballast frozen (R345). -/
  frozen : Bool := false
  deriving DecidableEq, Repr, Inhabited

/-- Pin levels and tied inputs (chapter 17). -/
structure Pins where
  rstN : Bool := true
  hrstN : Bool := true
  rdy : Bool := false
  rstreqN : Bool := true
  thermtripN : Bool := true
  exthrN : Bool := true
  /-- The instant at which the last low level on ZN_TAMPER_N ends (15 R471). -/
  tamperBy : Nat := 0
  /-- Hardware park level to every cell (03 R77). -/
  park : Bool := false
  thr : Vector (BitVec 24) 64 := vrep 64 0xFFFC00
  thrTgl : BitVec 64 := 0
  /-- From when each bus may change again, and a value is still to be sent (17 Table 17-4). -/
  thrAt : Vector Nat 64 := vrep 64 0
  thrWait : Bool := false
  /-- Tied: connected cell ports of each cluster (0 where the cluster is absent), nominal VIN code, board
  regulators, slate ports. -/
  cells : Vector (BitVec 16) 64 := vrep 64 0xFFFF
  vinNom : Nat := 40
  nReg : Nat := 1
  sltCon : BitVec 4 := 0xF
  deriving DecidableEq, Repr, Inhabited

/-- What the Gaffer keeps of one cell at the last broadcast (02 R46, R47): its capacity, sensed current, 4 mA, and
energy, 2^-16 nJ. -/
structure CSnap where
  cap : Nat := 0
  cur : Int := 0
  energy : Nat := 0
  deriving DecidableEq, Repr, Inhabited

/-- Chip-wide power accounting (10 R329 to R335). -/
structure Power where
  caps : Sec6 := {}
  energyChip : Nat := 0
  energyCtx : Vector Nat 16 := vrep 16 0
  /-- Exact accumulations of the host queues, 2^-16 nJ. -/
  energyQ : Tab Nat := []
  /-- The cells in the last broadcast, and as the last report found them (02 R47). -/
  snap : Vector (Vector CSnap 16) 64 := vrep 64 (vrep 16 {})
  snapRep : Vector (Vector CSnap 16) 64 := vrep 64 (vrep 16 {})
  /-- Durations: 17 sets of 7, in ns. -/
  dur : Vector Nat 119 := vrep 119 0
  /-- The THR buses still carry their reset value (R324). -/
  busReset : Bool := true
  deriving DecidableEq, Repr, Inhabited

/-- A word the block has put on one of its output ports. -/
inductive Out where
  | stationDown (clu req : Nat) (w : Word64)
  | stationsDown (clu half : Nat) (w : Word64)
  | memRead (id addr beats src : Nat)
  /-- A write: ADDR, the two words of each data beat, BE of each beat, SRC (13 Table 13-1). -/
  | memWrite (id addr : Nat) (words : List Word64) (be : List (BitVec 16)) (src : Nat)
  | regData (id : Nat) (v : Word32)
  | stamp (g : Nat) (w : BitVec 128)
  | marker (port : Nat) (w : Word32)
  | avs (cmd rail val : Nat)
  /-- A PMBus transfer: device, command, and the data and PEC bytes that the block sends (17 R502). -/
  | pmbus (dev cmd : Nat) (data : List Nat)
  /-- An operation of the NOR flash: opcode, address, data (14 R444). -/
  | spi (op addr : Nat) (data : List Word64)
  | storeProg (lc : Nat)
  | cellWord (clu cell : Nat) (w : BitVec 40)
  deriving DecidableEq, Repr, Inhabited

/-- The state of the block. -/
structure State where
  /-- Commands waiting, first in, first out (MODEL'S OWN). -/
  pending : List Instr := []
  /-- Words put on output ports, newest first (MODEL'S OWN: the record of what the ports carried). -/
  out : List Out := []
  /-- Free values drawn so far (MODEL'S OWN). -/
  freeCtr : Nat := 0
  /-- Elapsed time, ns, and the phase of the 32 MHz oscillator while the Gaffer clock is stopped (11 R340). -/
  elapsed : Nat := 0
  oscPhase : Nat := 0
  /-- ZN_VAON and the block supply are up. -/
  vaon : Bool := true
  supply : Bool := true
  epoch : Word64 := 0
  /-- ZN_SYNC_IN, and the number of the power-up to which the free phases of the reference edges belong (03 R515; the
  number is MODEL'S OWN). -/
  sync : SyncIn := {}
  edgeKey : Nat := 0
  clu : Vector Cluster 64 := vrep 64 {}
  dom : Vector Domain 128 := vrep 128 {}
  csh : Option CallSheet := none
  /-- A new call sheet accepted in service that waits for its broadcast: the command's slot (02 R58). -/
  cshNew : Option (Nat × CallSheet) := none
  assembled : Bool := false
  ctx : Vector Context 16 := vrep 16 {}
  /-- Cue port: words held with their receipt times while the Gaffer sleeps, and its counters (06 R194). -/
  cueQ : List (Word64 × Nat) := []
  cueDrop : Nat := 0
  cueSkip : Nat := 0
  up : Upper := {}
  msgs : List LMsg := []
  reclaim : Nat := 0
  ledgerErr : Nat := 0
  /-- The Gaffer's record of each cluster half's balance (07 R234). -/
  bal : Vector (Vector Nat 2) 64 := vrep 64 (vrep 2 0)
  /-- Share bus: SEQ of the last broadcast and the next instant. -/
  busSeq : Nat := 0
  busAt : Nat := 1000
  /-- The broadcast formed from the last report is due to be sent, 256 ns after it (05 R150). -/
  busDue : Option Nat := none
  /-- Trigger windows that are open (06 R206). -/
  trigs : List Trig := []
  slt : Slate := {}
  ch : Vector Channel 66 := vrep 66 {}
  vrtCfg : Word32 := 0x0A0A0A08
  vrtCap : Word32 := 0x00000DDA
  host : HostIf := {}
  flt : Faults := {}
  irq : Irq := {}
  nv : Nv := {}
  stamps : Vector StampReg 64 := vrep 64 {}
  /-- Probes under way, by the command's slot (14 R453). -/
  probes : Tab Probe := []
  selft : Option SelfT := none
  march : Option Nat := none
  sec : Secure := {}
  /-- Latches of _LO/_HI pairs: requester * 512 + pair, upper half (16 R484); staged EPOCH_LO per requester. -/
  latches : Tab Word32 := []
  epochLo : Tab Word32 := []
  board : Board := {}
  buses : Buses := {}
  legacy : Legacy := {}
  boot : Boot := {}
  vin : Vin := {}
  trip : Bool := false
  tripClu : Nat := 0
  pins : Pins := {}
  pow : Power := {}
  gafClock : Clock := .running
  gafIdle : Option Nat := none
  /-- Register accesses stalled on the host port until their domain is awake, oldest first (01 R28). -/
  stalled : List Instr := []
  /-- Corrections in the Gaffer's memories (15 R478). -/
  sramCorr : Nat := 0
  secCorr : Nat := 0
  retCorr : Nat := 0
  deriving DecidableEq, Repr

/-- Reasons the block stops with a fault. No command of the block stops it: every event the spec describes is an
effect on the state, so the type is empty. -/
inductive Fault where
  deriving DecidableEq, Repr

/-- Reasons a command has no meaning. -/
inductive Refusal where
  /-- The command's meaning is not written; raised by Dispatch alone; safe. -/
  | notModelled (mnemonic : String)
  deriving DecidableEq, Repr

/-- The block right after power-up (11 R341, R355): every field at the value its structure gives above. The values
that the spec states for reset are the registers' reset values of R100, R147, R171, R213, R246, R278, R306, R339,
R373, R393, R428, R459, R478 and R489 to R493, IDLE cells (Table 11-7), cleared memories (R355), and the ports'
values of Table 17-1; the rest are named in the assumption log. -/
def State.reset : State :=
  { irq := { src := (vrep 256 {} : Vector IrqSrc 256).set 20 { cfg := 0x00010001, masked := false } } }

end Sys2Proof.Machine
end

