-- ==== Sys2Proof/Config.lean ====
section
/-! DEFINITION. Values that the spec leaves open. Each is an opaque constant: nothing in Lean can evaluate it, so a
statement holds whatever it is. -/

namespace Sys2Proof.Config
open Sys2Proof Sys2Proof.Machine

/-- Lane block `k` of the built-in default bank, whose coefficients the spec does not give (04 R146). -/
opaque builtinLane : Nat → LaneCoef

/-- A free natural number, applied to the count of free values drawn so far. -/
opaque freeNat : Nat → Nat

/-- A free integer, applied to the count of free values drawn so far. -/
opaque freeInt : Nat → Int

/-- Phase of a cluster's reference edge at the power-up of its cells, applied to the number of the power-up and to the
cluster (03 R515). -/
opaque edgePhase : Nat → Nat → Nat

/-- The trim of a member's slate rate after a tick, from the one before and the tick's correction, 0.125 ns (08 R255 names the
trim and gives no rule for it): a free value. -/
opaque slateTrim : Int → Int → Int

/-- The resonance around which a cell is first dithered, 10 kHz: the spec has f_ref only after the first estimate (12 R389). -/
opaque capStart : Nat

end Sys2Proof.Config
end

