-- ==== Sys2Proof/Machine/Tab.lean ====
section
/-! DEFINITION. Plain arithmetic and containers that every meaning uses: bit fields of words, saturating counters,
two's-complement fields, sparse tables in canonical form, indexed access to vectors. -/

namespace Sys2Proof.Machine
open Sys2Proof

/-! ## Bit fields -/

/-- Bits `lo` to `lo + w - 1` of a natural number. -/
def fld (x lo w : Nat) : Nat := x / 2 ^ lo % 2 ^ w

/-- One bit of a natural number. -/
def bit (x i : Nat) : Bool := x / 2 ^ i % 2 == 1

/-- A field in two's complement. -/
def sfld (x lo w : Nat) : Int :=
  let v := fld x lo w
  if v < 2 ^ (w - 1) then (v : Int) else (v : Int) - (2 ^ w : Nat)

/-- Fields from bit 0 upward, each as its width and its value, packed into one number. -/
def pack : List (Nat × Nat) → Nat
  | [] => 0
  | (w, v) :: t => v % 2 ^ w + 2 ^ w * pack t

/-- The two's complement of width `w` of an integer, as a natural number. -/
def tc (w : Nat) (i : Int) : Nat := (i % (2 ^ w : Nat)).toNat

/-- A Boolean as a one-bit field. -/
def b2n (b : Bool) : Nat := if b then 1 else 0

/-- Word `i` of a list of 64-bit words, zero past its end. -/
def wordAt (l : List Word64) (i : Nat) : Nat := (l.getD i 0).toNat

/-- A counter of `w` bits that saturates at its all-ones value (01 R12). -/
def satAdd (w x n : Nat) : Nat := min (x + n) (2 ^ w - 1)

/-- One more on a saturating counter of `w` bits. -/
def satInc (w x : Nat) : Nat := satAdd w x 1

/-- An integer held within bounds. -/
def clampI (lo hi x : Int) : Int := max lo (min hi x)

/-- Floor of the quotient by a positive number. -/
def fdivI (a : Int) (b : Nat) : Int := a.fdiv (b : Int)

/-- Quotient rounded to nearest, halves away from zero. -/
def rdiv (a : Int) (b : Nat) : Int :=
  if a ≥ 0 then (2 * a + b).fdiv (2 * (b : Int)) else - ((2 * (-a) + b).fdiv (2 * (b : Int)))

/-- Ceiling of the quotient of natural numbers. -/
def cdiv (a b : Nat) : Nat := (a + b - 1) / b

/-- The numbers below `n` whose bit is set in `x`. -/
def bitsIn (n x : Nat) : List Nat := (List.range n).filter (fun i => bit x i)

/-- Bytes enabled by `be` taken from `v`, the others from `old`. -/
def mergeBytes (old v : Word32) (be : BitVec 4) : Word32 :=
  let m := fun i => if be.getLsbD i then (0xFF : Nat) * 2 ^ (8 * i) else 0
  let k : Word32 := BitVec.ofNat 32 (m 0 + m 1 + m 2 + m 3)
  (old &&& ~~~k) ||| (v &&& k)

/-- The bits of a write that reach a register whose write acts bit by bit (W1S, W1C, WO): bytes not enabled are 0. -/
def enBits (v : Word32) (be : BitVec 4) : Nat := (mergeBytes 0 v be).toNat

/-! ## Vectors by a natural index -/

/-- Entry `i`, the type's default past the end. -/
def vget {α : Type} [Inhabited α] {n : Nat} (v : Vector α n) (i : Nat) : α := v.toList.getD i default

/-- Entry `i` replaced; nothing past the end. -/
def vset {α : Type} {n : Nat} (v : Vector α n) (i : Nat) (x : α) : Vector α n := v.setIfInBounds i x

/-- Entry `i` changed by a function. -/
def vmod {α : Type} [Inhabited α] {n : Nat} (v : Vector α n) (i : Nat) (f : α → α) : Vector α n :=
  vset v i (f (vget v i))

/-- Every entry changed, with its index. -/
def vmap {α β : Type} {n : Nat} (f : Nat → α → β) (v : Vector α n) : Vector β n :=
  ⟨⟨v.toList.zipIdx.map (fun p => f p.2 p.1)⟩, by simp⟩

/-- Indices whose entry satisfies a test. -/
def vfind {α : Type} {n : Nat} (p : α → Bool) (v : Vector α n) : List Nat :=
  (v.toList.zipIdx.filter (fun q => p q.1)).map (fun q => q.2)

/-! ## Sparse tables -/

/-- The entry of a key. -/
def Tab.get? {α : Type} : Tab α → Nat → Option α
  | [], _ => none
  | (k, x) :: t, i => if k = i then some x else Tab.get? t i

/-- The entry of a key, or a given value. -/
def Tab.getD {α : Type} (t : Tab α) (i : Nat) (d : α) : α := (Tab.get? t i).getD d

/-- The table with an entry put in its place. -/
def Tab.put {α : Type} : Tab α → Nat → α → Tab α
  | [], i, x => [(i, x)]
  | (k, y) :: t, i, x =>
    if i < k then (i, x) :: (k, y) :: t
    else if i = k then (i, x) :: t
    else (k, y) :: Tab.put t i x

/-- The table without a key. -/
def Tab.del {α : Type} : Tab α → Nat → Tab α
  | [], _ => []
  | (k, y) :: t, i => if k = i then t else (k, y) :: Tab.del t i

/-- A number put in its place; a zero removes the entry, so that equal contents are equal tables. -/
def Tab.putN (t : Tab Nat) (i x : Nat) : Tab Nat := if x = 0 then Tab.del t i else Tab.put t i x

/-- The number of a key, zero when it has no entry. -/
def Tab.getN (t : Tab Nat) (i : Nat) : Nat := Tab.getD t i 0

/-- An entry changed by a function, when it is there. -/
def Tab.mod {α : Type} (t : Tab α) (i : Nat) (f : α → α) : Tab α :=
  match Tab.get? t i with
  | some x => Tab.put t i (f x)
  | none => t

/-- Keys strictly rising from at least `lo`. -/
def Tab.wfFrom {α : Type} : Nat → Tab α → Bool
  | _, [] => true
  | lo, (k, _) :: t => decide (lo ≤ k) && Tab.wfFrom (k + 1) t

/-- The canonical form of a sparse table. -/
def Tab.wf {α : Type} (t : Tab α) : Bool := Tab.wfFrom 0 t

/-- The sum of a list of natural numbers. -/
def sumN (l : List Nat) : Nat := l.foldl (· + ·) 0

/-- The sum of a list of integers. -/
def sumI (l : List Int) : Int := l.foldl (· + ·) 0

/-- The largest of a list, 0 when empty. -/
def maxN (l : List Nat) : Nat := l.foldl max 0

/-- A list sorted by insertion, by a strict order on its elements. -/
def insertBy {α : Type} (lt : α → α → Bool) (x : α) : List α → List α
  | [] => [x]
  | y :: t => if lt x y then x :: y :: t else y :: insertBy lt x t

/-- Stable sort by insertion. -/
def sortBy {α : Type} (lt : α → α → Bool) (l : List α) : List α :=
  l.foldl (fun acc x => insertBy lt x acc) []

end Sys2Proof.Machine
end

