-- ==== Sys2Proof/Machine/Operands.lean ====
section
/-! DEFINITION. The tree of units (chapter 02): what the accepted call sheet places where, the subtrees of R38, and
the access paths into State that every meaning uses. -/

namespace Sys2Proof.Machine
open Sys2Proof

/-! ## Access paths -/

/-- Cluster `n`. -/
def State.cl (s : State) (n : Nat) : Cluster := vget s.clu n
/-- Cluster `n` changed. -/
def State.modCl (s : State) (n : Nat) (f : Cluster → Cluster) : State := { s with clu := vmod s.clu n f }
/-- Cell `n.k`. -/
def State.cell (s : State) (n k : Nat) : Cell := vget (s.cl n).cells k
/-- Cell `n.k` changed. -/
def State.modCell (s : State) (n k : Nat) (f : Cell → Cell) : State :=
  s.modCl n (fun c => { c with cells := vmod c.cells k f })
/-- Half `h` of cluster `n`. -/
def State.half (s : State) (n h : Nat) : Half := vget (s.cl n).halves h
/-- Half `h` of cluster `n` changed. -/
def State.modHalf (s : State) (n h : Nat) (f : Half → Half) : State :=
  s.modCl n (fun c => { c with halves := vmod c.halves h f })
/-- Domain `d`. -/
def State.dm (s : State) (d : Nat) : Domain := vget s.dom d
/-- Domain `d` changed. -/
def State.modDm (s : State) (d : Nat) (f : Domain → Domain) : State := { s with dom := vmod s.dom d f }
/-- Context `c`. -/
def State.cx (s : State) (c : Nat) : Context := vget s.ctx c
/-- Context `c` changed. -/
def State.modCx (s : State) (c : Nat) (f : Context → Context) : State := { s with ctx := vmod s.ctx c f }
/-- Vertical channel `c`. -/
def State.chan (s : State) (c : Nat) : Channel := vget s.ch c
/-- Vertical channel `c` changed. -/
def State.modChan (s : State) (c : Nat) (f : Channel → Channel) : State := { s with ch := vmod s.ch c f }

/-- A channel that carries nothing: offline, or not trained yet (06 R205, 12 R381). -/
def State.chanOff (s : State) (c : Nat) : Bool := (s.chan c).st == 3 || (s.chan c).st == 0

/-- The clock a channel runs on runs: a cluster's channel sleeps with its cluster, the Gaffer's two with the Gaffer (01 R19,
R25). -/
def State.chanClock (s : State) (c : Nat) : Bool :=
  if c < 64 then (s.cl c).clock == .running else s.gafClock == .running

/-- A function applied over a list, one item after the other. -/
def each {α : Type} (l : List α) (f : α → State → State) (s : State) : State := l.foldl (fun s x => f x s) s

/-! ## The accepted call sheet -/

/-- The call sheet in force; all defaults before the first acceptance. -/
def State.sheet (s : State) : CallSheet := s.csh.getD {}

/-- The cluster record of cluster `n`. -/
def CallSheet.cluRec (cs : CallSheet) (n : Nat) : Option CluRec := cs.clus.find? (fun r => r.clu == n)
/-- The domain record of domain `d`. -/
def CallSheet.domRec (cs : CallSheet) (d : Nat) : Option DomRec := cs.doms.find? (fun r => r.dom == d)
/-- The group record of group `g`. -/
def CallSheet.grpRec (cs : CallSheet) (g : Nat) : Option GrpRec := cs.grps.find? (fun r => r.grp == g)

/-- The cluster's cells belong to two domains (02 R37). -/
def CluRec.split (r : CluRec) : Bool := r.domLo != r.domHi

/-- Cluster `n` is split. -/
def CallSheet.isSplit (cs : CallSheet) (n : Nat) : Bool :=
  match cs.cluRec n with
  | some r => r.split
  | none => false

/-- The halves of a cluster record: an unsplit cluster keeps everything in half 0. -/
def CluRec.halves (r : CluRec) : List (Nat × Nat) :=
  if r.split then [(0, r.domLo), (1, r.domHi)] else [(0, r.domLo)]

/-- The present cells of half `h` of a cluster record. -/
def CluRec.halfCells (r : CluRec) (h : Nat) : List Nat :=
  (bitsIn 16 r.cells.toNat).filter (fun k => if r.split then k / 8 == h else h == 0)

/-- Halves of cluster `n` in use, with their domains. -/
def CallSheet.cluHalves (cs : CallSheet) (n : Nat) : List (Nat × Nat) :=
  match cs.cluRec n with
  | some r => r.halves
  | none => []

/-- The domain that half `h` of cluster `n` serves. -/
def CallSheet.halfDom (cs : CallSheet) (n h : Nat) : Option Nat :=
  ((cs.cluHalves n).find? (fun p => p.1 == h)).map (fun p => p.2)

/-- The half that cell `k` of cluster `n` belongs to. -/
def CallSheet.cellHalf (cs : CallSheet) (n k : Nat) : Nat := if cs.isSplit n then k / 8 else 0

/-- The present cells of half `h` of cluster `n`. -/
def CallSheet.cells (cs : CallSheet) (n h : Nat) : List Nat :=
  match cs.cluRec n with
  | some r => r.halfCells h
  | none => []

/-- The present cells of cluster `n`. -/
def CallSheet.allCells (cs : CallSheet) (n : Nat) : List Nat :=
  match cs.cluRec n with
  | some r => bitsIn 16 r.cells.toNat
  | none => []

/-- The cluster halves that serve domain `d`, in ascending order. -/
def CallSheet.domHalves (cs : CallSheet) (d : Nat) : List (Nat × Nat) :=
  (List.range 64).flatMap (fun n => ((cs.cluHalves n).filter (fun p => p.2 == d)).map (fun p => (n, p.1)))

/-- The present cells of domain `d`. -/
def CallSheet.domCells (cs : CallSheet) (d : Nat) : List (Nat × Nat) :=
  (cs.domHalves d).flatMap (fun p => (cs.cells p.1 p.2).map (fun k => (p.1, k)))

/-- The domain that cell `n.k` serves. -/
def CallSheet.cellDom (cs : CallSheet) (n k : Nat) : Option Nat := cs.halfDom n (cs.cellHalf n k)

/-- The domain is of type AON. -/
def CallSheet.isAon (cs : CallSheet) (d : Nat) : Bool :=
  match cs.domRec d with
  | some r => r.dtype == 4
  | none => false

/-- The domain has a record and cells. -/
def CallSheet.cellFed (cs : CallSheet) (d : Nat) : Bool :=
  match cs.domRec d with
  | some r => r.dtype < 4
  | none => false

/-- The domains the call sheet places, in address order. -/
def CallSheet.domIxs (cs : CallSheet) : List Nat :=
  (List.range 128).filter (fun d => (cs.domRec d).isSome)

/-- The clusters the call sheet places. -/
def CallSheet.cluIxs (cs : CallSheet) : List Nat :=
  (List.range 64).filter (fun n => (cs.cluRec n).isSome)

/-- Thresholds of the cells of domain `d` (03 R101). -/
def Sec1.thresh (x : Sec1) (d : Nat) : Thresh :=
  match x.ovr.find? (fun p => p.1 == d) with
  | some p => p.2
  | none => x.base

/-- Thresholds of a domain by a call sheet. -/
def CallSheet.thresh (cs : CallSheet) (d : Nat) : Thresh := cs.s1.thresh d

/-- Thresholds of cell `n.k`. -/
def State.cellTh (s : State) (n k : Nat) : Thresh :=
  match s.sheet.cellDom n k with
  | some d => (s.cl n).s1.thresh d
  | none => (s.cl n).s1.base

/-! ## Unit addresses (02 Table 2-1) -/

/-- Address of cluster `n`. -/
def uClu (n : Nat) : Nat := 0x040 + n
/-- Address of domain `d`. -/
def uDom (d : Nat) : Nat := 0x080 + d
/-- Address of cell `n.k`. -/
def uCell (n k : Nat) : Nat := 0x100 + 16 * n + k

/-- Kinds of unit (02 R41). -/
inductive UKind where
  | group (i : Nat)
  | cluster (i : Nat)
  | domain (i : Nat)
  | cell (n k : Nat)
  | unused
  deriving DecidableEq, Repr

/-- The unit an address names. -/
def uKind (u : Nat) : UKind :=
  if u < 0x040 then .group u
  else if u < 0x080 then .cluster (u - 0x040)
  else if u < 0x100 then .domain (u - 0x080)
  else if u < 0x500 then .cell ((u - 0x100) / 16) ((u - 0x100) % 16)
  else .unused

/-- An address is occupied (02 R43). -/
def CallSheet.occupied (cs : CallSheet) (u : Nat) : Bool :=
  match uKind u with
  | .group g => (cs.grpRec g).isSome
  | .cluster n => (cs.cluRec n).isSome
  | .domain d => (cs.domRec d).isSome
  | .cell n k => (cs.allCells n).contains k
  | .unused => false

/-- Group `g` lies in the subtree of group `top`; a chain has at most 64 groups (02 R40). -/
def CallSheet.grpUnder (cs : CallSheet) : Nat → Nat → Nat → Bool
  | 0, top, g => g == top
  | fuel + 1, top, g =>
    g == top || (g != 0 &&
      match cs.grpRec g with
      | some r => CallSheet.grpUnder cs fuel top r.parent
      | none => false)

/-- The domains below group `g`, in address order. -/
def CallSheet.grpDoms (cs : CallSheet) (g : Nat) : List Nat :=
  cs.domIxs.filter (fun d =>
    match cs.domRec d with
    | some r => cs.grpUnder 64 g r.parent
    | none => false)

/-- The clusters in the subtree of domain `d`: all their present cells belong to it (02 R38). -/
def CallSheet.domClus (cs : CallSheet) (d : Nat) : List Nat :=
  cs.cluIxs.filter (fun n =>
    (cs.cluHalves n).any (fun p => p.2 == d) &&
    (cs.cluHalves n).all (fun p => p.2 == d || (cs.cells n p.1).isEmpty))

/-- The units of the subtree of an address (02 R38). -/
def CallSheet.subtree (cs : CallSheet) (u : Nat) : List Nat :=
  match uKind u with
  | .cell n k => if (cs.allCells n).contains k then [uCell n k] else []
  | .cluster n => if (cs.cluRec n).isSome then uClu n :: (cs.allCells n).map (uCell n) else []
  | .domain d =>
    if (cs.domRec d).isSome then
      uDom d :: (cs.domCells d).map (fun p => uCell p.1 p.2) ++
      (cs.domClus d).map uClu
    else []
  | .group g =>
    if (cs.grpRec g).isSome then
      let ds := cs.grpDoms g
      (cs.grps.filter (fun r => cs.grpUnder 64 g r.grp)).map (fun r => r.grp) ++
      ds.map uDom ++
      ds.flatMap (fun d => (cs.domCells d).map (fun p => uCell p.1 p.2)) ++
      (cs.cluIxs.filter (fun n => (cs.cluHalves n).all (fun p => ds.contains p.2) ||
        ds.any (fun d => (cs.domClus d).contains n))).map uClu
    else []
  | .unused => []

/-- Unit `v` lies in the subtree of `u`. -/
def CallSheet.inSub (cs : CallSheet) (u v : Nat) : Bool := (cs.subtree u).contains v

/-- Two addresses conflict (02 R50). -/
def CallSheet.overlap (cs : CallSheet) (u v : Nat) : Bool :=
  let a := cs.subtree u
  (cs.subtree v).any (fun x => a.contains x)

/-- The cell-fed domains that a domain command reaches (02 R514), in address order: the AON domain is skipped below
a group. -/
def CallSheet.reach (cs : CallSheet) (u : Nat) : List Nat :=
  match uKind u with
  | .domain d => if (cs.domRec d).isSome then [d] else []
  | .group g => if (cs.grpRec g).isSome then (cs.grpDoms g).filter (fun d => !cs.isAon d) else []
  | _ => []

/-- The clusters with a cell in the subtree of an address. -/
def CallSheet.subClus (cs : CallSheet) (u : Nat) : List Nat :=
  match uKind u with
  | .cluster n => if (cs.cluRec n).isSome then [n] else []
  | .domain d => cs.cluIxs.filter (fun n => (cs.cluHalves n).any (fun p => p.2 == d))
  | .group g =>
    let ds := cs.grpDoms g
    cs.cluIxs.filter (fun n => (cs.cluHalves n).any (fun p => ds.contains p.2))
  | .cell n _ => [n]
  | .unused => []

/-- The open context that owns domain `d` (06 R173). -/
def State.owner (s : State) (d : Nat) : Option Nat :=
  (vfind (fun c => c.st != .closed && bit c.recd.doms.toNat d) s.ctx).head?

/-- The protection ID on whose behalf port traffic moves; 16 for the block's own (13 R396). -/
def ownSrc : Nat := 16

/-- A cell that switches (03 Table 3-5). -/
def CellState.switching : CellState → Bool
  | .start | .run | .ballast | .park => true
  | _ => false

/-- A cell in RUN or BALLAST. -/
def CellState.running : CellState → Bool
  | .run | .ballast => true
  | _ => false

/-- Codes of 03 Table 3-5. -/
def CellState.code : CellState → Nat
  | .idle => 0 | .test => 1 | .start => 2 | .run => 3 | .ballast => 4 | .park => 5
  | .hiccup => 6 | .latched => 7 | .disabled => 8

/-- Codes of MODE, 03 Table 3-2; 7 is not used. -/
def CellMode.code : CellMode → Nat
  | .idle => 0 | .start => 1 | .run => 2 | .ballast => 3 | .park => 4 | .test => 5 | .off => 6

/-- The mode a code names. -/
def cellModeOf : Nat → Option CellMode
  | 0 => some .idle | 1 => some .start | 2 => some .run | 3 => some .ballast
  | 4 => some .park | 5 => some .test | 6 => some .off | _ => none

/-- Capacity in credits of a cell state outside sleep (02 Table 2-3). -/
def capOf (st : CellState) (shadow : Bool) : Nat :=
  match st with
  | .run => if shadow then 32 else 40
  | .ballast => if shadow then 32 else 40
  | _ => 0

/-- CAPACITY of a cell (02 R45): a cell parked for its cluster's sleep keeps that of the state it left. -/
def Cell.capacity (c : Cell) : Nat :=
  match c.st, c.sleepFrom with
  | .park, some st => capOf st c.shadow
  | st, _ => capOf st c.shadow

/-- CAPACITY of domain `d` (02 R45). -/
def State.domCap (s : State) (d : Nat) : Nat :=
  sumN ((s.sheet.domCells d).map (fun p => (s.cell p.1 p.2).capacity))

/-- The command is addressed to the AON domain itself. -/
def State.atAon (s : State) (u : Nat) : Bool :=
  match uKind u with
  | .domain d => s.sheet.isAon d
  | _ => false

/-- The subtree of an address without the AON domain (R514). -/
def State.switchSub (s : State) (u : Nat) : List Nat :=
  (s.sheet.subtree u).filter (fun v => !s.atAon v)

/-- VIN_RESET. -/
def State.vinResetMv (s : State) : Nat := (s.vin.thr.map (fun t => t.2.2.1)).getD 0

/-- The block takes register accesses: its supply is up and it is out of block reset. -/
def State.accessible (s : State) : Bool := s.supply && s.pins.rstN


/-- Archive reads of some commands are asked no longer. -/
def Channel.dropArch (p : Nat → Bool) (x : Channel) : Channel :=
  let slotOf := fun (j : ChJob) => match j with
    | .arch q _ => some q
    | _ => none
  let first := ((x.jobs.filterMap slotOf).head?).any p
  { x with
    jobs := x.jobs.filter (fun j => !((slotOf j).any p))
    archAt := if first then 0 else x.archAt, archBad := if first then false else x.archBad }

end Sys2Proof.Machine
end

