-- ==== Sys2Proof/Machine/Ops.lean ====
section
/-! DEFINITION. Operations that many meanings share: time, the interrupt controller's firing and routing, raises to
the fault collector and event records, the completion of a command, memory-port reads and writes, and the park of
cells. Each is said once here. -/

namespace Sys2Proof.Machine
open Sys2Proof

/-! ## Time (10 R332, 11 R340) -/

/-- Reason `k` counts toward duration set `c`: an open context's domains, or any domain for set 16 (R332). -/
def State.durOn (s : State) (c k : Nat) : Bool :=
  if c == 16 then (vfind (fun d => d.thr.reason.getLsbD k) s.dom) != []
  else (s.cx c).st != .closed &&
    (vfind (fun d => d.thr.reason.getLsbD k) s.dom).any (fun d => bit (s.cx c).recd.doms.toNat d)

/-- Elapsed time moves on by `dt` ns, and with it the duration counters. -/
def State.advance (dt : Nat) (s : State) : State :=
  { s with
    elapsed := s.elapsed + dt
    pow := { s.pow with dur := vmap (fun i x => if s.durOn (i / 7) (i % 7) then x + dt else x) s.pow.dur } }

/-- Elapsed time moves on to an instant that has not passed; no step back (R340). -/
def State.advanceTo (t : Nat) (s : State) : State := if s.elapsed < t then s.advance (t - s.elapsed) else s

/-- A word put on an output port. -/
def State.put (o : Out) (s : State) : State := { s with out := o :: s.out }

/-- The next free number, and the state that has drawn it. -/
def State.drawNat (s : State) : Nat × State := (Config.freeNat s.freeCtr, { s with freeCtr := s.freeCtr + 1 })

/-- The next free integer, and the state that has drawn it. -/
def State.drawInt (s : State) : Int × State := (Config.freeInt s.freeCtr, { s with freeCtr := s.freeCtr + 1 })

/-! ## The interrupt controller (14 R437 to R442) -/

/-- FAST of a source. -/
def IrqSrc.fast (x : IrqSrc) : Bool := x.cfg.getLsbD 16
/-- PRIO of a source. -/
def IrqSrc.prio (x : IrqSrc) : Nat := fld x.cfg.toNat 17 4
/-- The source is moderated; ignored in the fast class. -/
def IrqSrc.modr (x : IrqSrc) : Bool := x.cfg.getLsbD 21 && !x.fast

/-- Rank of a processor for routing: IDLE below priority 0 (R439). -/
def IrqProc.rank (p : IrqProc) : Nat := if p.pri.getLsbD 4 then 0 else 1 + fld p.pri.toNat 0 4

/-- The processor a source is routed to (R439). -/
def Irq.choose (q : Irq) (x : IrqSrc) : Option Nat :=
  let el := (List.range 16).filter (fun p => x.cfg.getLsbD p && q.procEn.getLsbD p)
  match el with
  | [] => none
  | p0 :: t =>
    let best := t.foldl (fun b p => min b (vget q.proc p).rank) (vget q.proc p0).rank
    ((List.range 16).map (fun j => (q.last + 1 + j) % 16)).find?
      (fun p => el.contains p && (vget q.proc p).rank == best)

/-- Source `i` routed when it is pending, unmasked and without a target. -/
def Irq.route (i : Nat) (q : Irq) : Irq :=
  let x := vget q.src i
  if x.pending && !x.masked && x.target.isNone then
    match q.choose x with
    | some p => { q with src := vset q.src i { x with target := some p }, last := p }
    | none => q
  else q

/-- Every source that awaits a target routed, in ascending order. -/
def Irq.routeAll (q : Irq) : Irq :=
  (vfind (fun x : IrqSrc => x.pending && !x.masked && x.target.isNone) q.src).foldl (fun q i => q.route i) q

/-- Moderation timers after a change: a timer runs while a moderated source is targeted at its processor (R440). -/
def Irq.settle (now : Nat) (q : Irq) : Irq :=
  let tg := q.src.toList.filterMap (fun x => if x.pending && x.modr then x.target else none)
  { q with proc := vmap (fun p x =>
      if tg.contains p then { x with timer := some (x.timer.getD now) }
      else { x with timer := none, expired := false }) q.proc }

/-- A source fires (R438). -/
def Irq.fire (i : Nat) (q : Irq) : Irq :=
  let x := vget q.src i
  if x.insvc.isSome then { q with src := vset q.src i { x with lost := satInc 15 x.lost } }
  else if x.pending then { q with src := vset q.src i { x with coal := satInc 15 x.coal } }
  else ({ q with src := vset q.src i { x with pending := true } } : Irq).route i

/-- A change of the interrupt controller, and the timers after it. -/
def State.irqDo (f : Irq → Irq) (s : State) : State := { s with irq := (f s.irq).settle s.elapsed }

/-- A firing at an instant noted, with what the source was before the first of that instant. -/
def Irq.note (now i : Nat) (q : Irq) : Irq :=
  let x := vget q.src i
  let l := q.fires.filter (fun f => f.at_ == now)
  match l.find? (fun f => f.src == i) with
  | some f => { q with fires := { f with n := f.n + 1 } :: l.filter (fun g => g.src != i) }
  | none => { q with fires := { src := i, at_ := now, n := 1, pending := x.pending, lost := x.lost, coal := x.coal } :: l }

/-- A source fires at the present instant. -/
def State.fire (i : Nat) (s : State) : State := s.irqDo (fun q => (q.note s.elapsed i).fire i)

/-! ## Event records (13 R421 to R427) -/

/-- The event ring that receives a fault record, or a retake notice of a context (R422). -/
def State.evRing (s : State) (ctx : Option Nat) : Option Nat :=
  (List.range 4).find? (fun j =>
    let r := vget s.host.rings (32 + j)
    r.on && !r.dis && (match ctx with
      | none => r.tf
      | some c => r.tr && r.ctxMask.getLsbD c))

/-- A retake notice that is lost (06 R210, R512). -/
def State.noticeLost (n : Option (Nat × Nat)) (s : State) : State :=
  match n with
  | none => s
  | some (c, q) => s.modCx c (fun x =>
      { x with played := x.played.map (fun p => if p.seq == q then { p with notice := .lost } else p) })

/-- A retake notice whose record has been written and acknowledged (06 R210). -/
def State.noticeAcked (n : Option (Nat × Nat)) (s : State) : State :=
  match n with
  | none => s
  | some (c, q) => s.modCx c (fun x =>
      { x with played := x.played.map (fun p => if p.seq == q then { p with notice := .acked } else p) })

/-- A record lost for a full ring (R423, R424): the LOST place of the ring takes it in. -/
def State.evLost (j : Nat) (n : Option (Nat × Nat)) (s : State) : State :=
  let l := vget s.host.lost j
  let l' : LostPlace :=
    if l.count == 0 then { count := 1, first := s.elapsed, last := s.elapsed }
    else { l with count := satInc 32 l.count, last := s.elapsed }
  let s := { s with host := { s.host with lost := vset s.host.lost j l', lostCnt := satInc 12 s.host.lostCnt } }
  let s := s.noticeLost n
  if l.count == 0 then s.fire 41 else s

/-- A ring holds as many entries as it can (R402). -/
def Ring.full (r : Ring) : Bool := (r.prod - r.cons).toNat == 2 ^ r.log2n

/-- A record for event ring `j` goes straight to it: the ring has room and nothing older waits for it (R423). -/
def State.evDirect (s : State) (j : Nat) : Bool :=
  !(vget s.host.rings (32 + j)).full && (vget s.host.lost j).count == 0 && s.host.buf.all (fun e => e.ring != j) &&
  s.host.ovf.toList.all (fun l => l.all (fun e => e.ring != j)) && s.host.held.all (fun e => e.ring != j)

/-- Records that wait in the dailies buffer: one bound straight for its ring does not (R423, R428). -/
def State.bufN (s : State) : Nat := (s.host.buf.filter (fun e => !e.direct)).length

/-- A record written to the overflow of a cluster, or held in the Gaffer while the channel is fenced (12 R392). -/
def State.ovfWrite (c : Nat) (e : EvRec) (s : State) : State :=
  if (s.chan c).fenced then { s with host := { s.host with held := s.host.held ++ [e], evOrd := s.host.evOrd + 1 } }
  else { s with host := { s.host with ovf := vmod s.host.ovf c (fun l => l ++ [e]), evOrd := s.host.evOrd + 1 } }

/-- The fences lift: the held writes are issued in order (12 R392). -/
def State.freeHeld (s : State) : State :=
  each s.host.held (fun e s => match e.clu with
    | some c => { s with host := { s.host with ovf := vmod s.host.ovf c (fun l => l ++ [e]) } }
    | none => s) { s with host := { s.host with held := [] } }

/-- An event record placed for its ring (R422, R423, R426). -/
def State.postEvent (ctx : Option Nat) (words : List Word64) (clu : Option Nat) (n : Option (Nat × Nat))
    (s : State) : State :=
  if s.flt.fatal then
    { s with host := { s.host with lostCnt := satInc 12 s.host.lostCnt } }.noticeLost n
  else
    match s.evRing ctx with
    | none => { s with host := { s.host with unrouted := satInc 7 s.host.unrouted } }.noticeLost n
    | some j =>
      let e : EvRec := { ring := j, words, clu, notice := n, ord := s.host.evOrd }
      if s.evDirect j then
        { s with host := { s.host with buf := s.host.buf ++ [{ e with direct := true }], evOrd := s.host.evOrd + 1 } }
      else if s.bufN < 1024 then
        let s' := { s with host := { s.host with buf := s.host.buf ++ [e], evOrd := s.host.evOrd + 1 } }
        if s.bufN + 1 == 768 then s'.fire 43 else s'
      else
        match clu with
        | some c =>
          if (vget s.host.ovf c).length + (s.host.held.filter (fun e => e.clu == some c)).length < 3072 && (s.chan c).st != 3 then
            s.ovfWrite c e
          else s.evLost j n
        | none => s.evLost j n

/-- Records of the overflows move back into room in the buffer, oldest first (R423). -/
def State.refillBuf : Nat → State → State
  | 0, s => s
  | fuel + 1, s =>
    if s.bufN < 1024 then
      -- nothing is read behind a fence (12 R392)
      let heads := (List.range 64).filterMap (fun c =>
        if (s.chan c).fenced then none else ((vget s.host.ovf c).head?).map (fun e => (c, e)))
      match heads with
      | [] => s
      | h :: t =>
        let b := t.foldl (fun b x => if x.2.ord < b.2.ord then x else b) h
        let s := { s with host := { s.host with
          ovf := vmod s.host.ovf b.1 (fun l => l.tail), ovfAt := vmod s.host.ovfAt b.1 (fun i => (i + 1) % 3072) } }
        -- a record that comes back poisoned is lost
        State.refillBuf fuel (if b.2.poison then s.evLost b.2.ring b.2.notice
          else { s with host := { s.host with buf := s.host.buf ++ [b.2] } })
    else s

/-! ## Raises (14 R429 to R436) -/

/-- The class of a fault code, 14 Table 14-2: 1 INFO, 2 CORRECTED, 3 DEGRADED, 4 FATAL. -/
def fltClass (code : Nat) : Option Nat :=
  if [0x006, 0x014, 0x015, 0x028, 0x02F, 0x031, 0x032, 0x033, 0x038, 0x039, 0x03B, 0x03C, 0x040].contains code
  then some 1
  else if [0x009, 0x00A, 0x022, 0x023, 0x024, 0x026, 0x029, 0x04B].contains code then some 2
  else if [0x001, 0x002, 0x003, 0x004, 0x005, 0x007, 0x008, 0x00B, 0x010, 0x011, 0x013, 0x020, 0x021, 0x025, 0x027,
    0x02A, 0x02B, 0x02C, 0x030, 0x03A, 0x041, 0x044, 0x04A].contains code then some 3
  else if [0x012, 0x02D, 0x02E, 0x042, 0x043, 0x048, 0x049].contains code then some 4
  else none

/-- The cluster in which a raise arises: the scope's cluster or its cell's. -/
def scopeClu : Scope → Option Nat
  | .unit u =>
    match uKind u with
    | .cluster n => some n
    | .cell n _ => some n
    | _ => none
  | .ctx _ => none

/-- The MERGE window in ns (FLT_MAP, 0 is taken as 1). -/
def State.mergeNs (s : State) : Nat := max 1 (fld s.flt.map.toNat 8 10) * 1000

/-- The stage pulses: the cell switches and no VIN stop holds it (03 R80). -/
def Cell.pulses (c : Cell) : Bool := c.st.switching && !c.vinStop

/-- Cells leave their stage: fast paths off, counts of the present sample and of detectors dropped, no ballast, no clamp.
SENSE_SUSP, once its detector has tripped, clears only here: the spec does not say when it clears while the stage stays on
(03 R99). DESIGN CHOICE: log entry 104. -/
def Cell.stageOff (now : Nat) (c : Cell) : Cell :=
  { c with
    pulse := if c.pulses then { c.pulse with offAt := now } else c.pulse
    drawn := 0
    fast := { nKick := c.fast.nKick, nTrunc := c.fast.nTrunc, nShunt := c.fast.nShunt }
    prot := { c.prot with limN := 0, ovlSince := none, ovlExp := false, stuckN := 0, noswN := 0, openN := 0,
                          senseN := 0, cleanSince := none }
    bits := { c.bits with senseSusp := false, whole := false, clampHi := false, clampLo := false }
    ramping := false, softStart := false, sleepFrom := none }

/-- IDLE: off, isolation open (03 Table 3-5). -/
def Cell.toIdle (now : Nat) (c : Cell) : Cell := { c.stageOff now with st := .idle, isoOpen := true }

/-- DISABLED: off, isolation open, with its cause (03 R100). -/
def Cell.toDisabled (now cause : Nat) (c : Cell) : Cell := { c.stageOff now with st := .disabled, isoOpen := true, cause, disDue := false }

/-- PARK: on the park loop, ballast dropped (03 R95, R97); the clean time runs on (03 R92). -/
def Cell.toPark (now : Nat) (c : Cell) : Cell :=
  { c with
    st := .park, pulse := if c.pulses then c.pulse else { c.pulse with onAt := now }, drawn := 0, ramping := false, softStart := false
    refUv := 250000 + 250 * c.safeCode
    fast := { c.fast with forced := false }
    bits := { c.bits with whole := false }
    prot := { c.prot with cleanSince := some (c.prot.cleanSince.getD now), missN := 0 } }

/-- A park trigger acts on a cell in START, RUN or BALLAST: PARK, or IDLE without a safe set-point (03 R76, R77). -/
def Cell.park (now : Nat) (c : Cell) : Cell :=
  match c.st with
  | .start | .run | .ballast => if c.safeValid then c.toPark now else c.toIdle now
  | _ => c

/-- The hardware park level reaches every cell (03 R77). -/
def State.parkAll (s : State) : State :=
  { s with
    pins := { s.pins with park := true }
    clu := vmap (fun _ c => { c with cells := vmap (fun _ x => Cell.park s.elapsed x) c.cells }) s.clu }

/-- A completion or event record is written. -/
def WrUse.record (u : WrUse) : Bool :=
  match u with
  | .cpl _ _ _ | .event _ _ _ => true
  | _ => false

/-- Entry of the fatal state (R435, R426): park level, ZN_RDY and ZN_RSTREQ_N low, waiting records lost. -/
def State.enterFatal (s : State) : State :=
  if s.flt.fatal then s
  else
    let waiting := s.host.buf ++ s.host.held ++ (s.host.ovf.toList.flatMap (fun l => l))
    -- records that wait for an ID or for their next issue are not written either (13 R426)
    let gone := s.host.writes.filter (fun p => (64 ≤ p.1 || p.2.retryAt.isSome) && p.2.use.record)
    let events := gone.filterMap (fun p => match p.2.use with
      | .event _ _ n => if fld (wordAt p.2.words 0) 0 8 == 0x20 then none else some n
      | _ => none)
    let s := waiting.foldl (fun s e => s.noticeLost e.notice) s
    let s := events.foldl (fun s n => s.noticeLost n) s
    let s := s.parkAll
    { s with
      flt := { s.flt with fatal := true }
      pins := { s.pins with rdy := false, rstreqN := s.pins.rstreqN && !s.pins.rstN }
      host := { s.host with
        buf := [], held := [], ovf := vrep 64 [], lost := vrep 4 {}
        writes := s.host.writes.filter (fun p => !((64 ≤ p.1 || p.2.retryAt.isSome) && p.2.use.record))
        lostCnt := satAdd 12 s.host.lostCnt (waiting.length + events.length) } }

/-- First-error capture (R434): whether this raise is the one captured, and the capture after it. -/
def FirstErr.take (f : FirstErr) (r : Raise) : Bool × FirstErr :=
  if r.cls < 2 then (false, f)
  else if f.valid then (false, { f with multi := satInc 5 f.multi })
  else (true, { valid := true, cls := r.cls, code := r.code, sc := r.sc, addr := r.addr, master := r.master,
                acc := r.acc, time := r.time, multi := 0 })

/-- UNIT of a scope (Table 14-1). -/
def scopeUnit : Scope → Nat
  | .unit u => u
  | .ctx _ => 0

/-- A raise of the Gaffer cycle of the captured one goes before it: higher class, then lower code, then lower UNIT (R434). -/
def FirstErr.yields (f : FirstErr) (r : Raise) : Bool :=
  f.valid && f.time == r.time && decide (2 ≤ r.cls) &&
    (decide (f.cls < r.cls) || (f.cls == r.cls &&
      (decide (r.code < f.code) || (r.code == f.code && decide (scopeUnit r.sc < scopeUnit f.sc)))))

/-- The collector after a raise meets the capture: a raise that goes before the captured one of its cycle, whose record has not
been formed, takes its place. -/
def Faults.capture (r : Raise) (x : Faults) : Bool × Faults :=
  if x.first.yields r && x.queue.any (fun q => q.first) then
    let f := (({} : FirstErr).take r).2
    (true, { x with first := { f with multi := satInc 5 x.first.multi }
                    queue := x.queue.map (fun q => { q with first := false }) })
  else
    let t := x.first.take r
    (t.1, { x with first := t.2 })

/-- Open faults after a raise (R433): one entry for a code and scope. -/
def openAfter (l : List Flt) (r : Raise) : List Flt :=
  if r.cls < 2 then l
  else l.filter (fun f => !(f.code == r.code && f.sc == r.sc && f.cls == r.cls)) ++
    [{ code := r.code, cls := r.cls, sc := r.sc, last := r.time }]

/-- A wake source reaches the Gaffer: a sleeping Gaffer wakes, and a running one waits its sleep delay anew (01 R26,
R29). -/
def State.wakeGaf (s : State) : State :=
  { s with gafClock := if s.gafClock == .asleep then .waking else s.gafClock, gafIdle := none }

/-- A wake source reaches a sleeping cluster: its clock must run within 2 us; the Gaffer wakes with it (01 R26,
11 R368). -/
def State.wakeClu (n : Nat) (s : State) : State :=
  if (s.cl n).clock == .asleep then
    (s.modCl n (fun c => { c with clock := .waking, wakeBy := s.elapsed + 2000 })).wakeGaf
  else s.modCl n (fun c => { c with idleSince := none })

/-- Every sleeping cluster, and the Gaffer, woken. -/
def State.wakeAll (s : State) : State := (each (List.range 64) State.wakeClu s).wakeGaf

/-- A raise reaches the collector (R429): it is captured, opens its fault and waits in the queue of 256; a FATAL raise
goes before every raise of another class, and at unit 0x000 enters the fatal state. A fault wakes the Gaffer and the cluster
in which it arises (01 R26). -/
def State.collect (r0 : Raise) (s : State) : State :=
  let s := (match scopeClu r0.sc with
    | some n => s.wakeClu n
    | none => s).wakeGaf
  let t := s.flt.capture r0
  let r := { r0 with first := t.1, inj := r0.inj || s.flt.injNow }
  let s := { s with flt := { t.2 with opens := openAfter s.flt.opens r } }
  if r.cls == 4 then
    let q := s.flt.queue
    let s := { s with flt := { s.flt with
      queue := q.takeWhile (fun x => x.cls == 4) ++ r :: q.dropWhile (fun x => x.cls == 4) } }
    if r.sc == .unit 0 then s.enterFatal else s
  else if (s.flt.queue.filter (fun x => x.cls != 4)).length < 256 then { s with flt := { s.flt with queue := s.flt.queue ++ [r] } }
  else ({ s with flt := { s.flt with qLost := satInc 8 s.flt.qLost } } : State).fire 41

/-- A raise of a code of Table 14-2 with the class of that table. -/
def State.raise (code : Nat) (sc : Scope) (detail : Nat) (s : State) : State :=
  s.collect { code, cls := (fltClass code).getD 1, sc, inj := false, detail, addr := 0, master := 0, acc := 0,
              time := s.elapsed, first := false }

/-- A raise that names the access it met: ADDR, MASTER and ACC (Table 14-1). -/
def State.raiseAcc (code : Nat) (sc : Scope) (detail addr master acc : Nat) (inj : Bool) (s : State) : State :=
  s.collect { code, cls := (fltClass code).getD 1, sc, inj, detail, addr, master, acc,
              time := s.elapsed, first := false }

/-- An effect that an injection causes, when `b` says so: its raises carry INJ 1 (R458). -/
def State.injected (b : Bool) (f : State → State) (s : State) : State :=
  if b then
    let t := f { s with flt := { s.flt with injNow := true } }
    { t with flt := { t.flt with injNow := false } }
  else f s

/-- Open faults of class `cls` that satisfy a test end (R433). -/
def State.closeFlt (p : Flt → Bool) (s : State) : State :=
  { s with flt := { s.flt with opens := s.flt.opens.filter (fun f => !p f) } }

/-- DEGRADED faults of a unit with one of some codes end. -/
def State.closeUnit (u : Nat) (codes : List Nat) (s : State) : State :=
  s.closeFlt (fun f => f.sc == .unit u && f.cls == 3 && codes.contains f.code)

/-- Worst open fault scoped to exactly this unit. -/
def State.unitFault (s : State) (u : Nat) : Nat :=
  maxN ((s.flt.opens.filter (fun f => f.sc == .unit u)).map (fun f => f.cls))

/-! ## Commands and their completion (13 R411 to R417) -/

/-- Codes of 13 Table 13-7. -/
def Status.code : Status → Nat
  | .done => 0 | .superseded => 1 | .abortedDisabled => 2 | .abortedReset => 3 | .rejectedLimit => 4
  | .rejectedFormat => 5 | .rejectedState => 6 | .poisoned => 7 | .timeout => 8

/-- The command in a slot. -/
def State.cmd? (s : State) (slot : Nat) : Option Cmd := Tab.get? s.host.cmds slot

/-- The command in a slot changed. -/
def State.modCmd (slot : Nat) (f : Cmd → Cmd) (s : State) : State :=
  { s with host := { s.host with cmds := Tab.mod s.host.cmds slot f } }

/-- A command enters the complete stage with its status and result; its record is formed and waits for its ring. A
slot without a command, or one already there, is left alone. -/
def State.completeAfter (slot : Nat) (st : Status) (res : Nat) (after : List Nat) (s : State) : State :=
  match s.cmd? slot with
  | none => s
  | some c =>
    if c.stage == .complete then s
    else
      let r : CplRec := { ring := c.ring, slot := some slot, tag := c.gen * 512 + slot, status := st, opc := c.opc,
                          index := c.index, result := BitVec.ofNat 64 res, time := s.elapsed, cookie := c.cookie,
                          after := after ++ c.holdFor }
      { s with host := { s.host with
          cmds := Tab.put s.host.cmds slot { c with stage := .complete }
          cpls := s.host.cpls ++ [r] } }

/-- A command enters the complete stage. -/
def State.complete (slot : Nat) (st : Status) (res : Nat) (s : State) : State := s.completeAfter slot st res []

/-- Completion of a command that may not be there. -/
def State.completeOpt (slot : Option Nat) (st : Status) (res : Nat) (s : State) : State :=
  match slot with
  | some i => s.complete i st res
  | none => s

/-- Operand field: bits `lo` to `lo + w - 1` of descriptor word `i` (2 to 6). -/
def Cmd.opnd (c : Cmd) (i lo w : Nat) : Nat := fld (wordAt c.ops (i - 2)) lo w

/-! ## The memory port (13 R394 to R398) -/

/-- Beats of the next read or write of an operation: at most 16, never across a 4 KiB boundary (R395). -/
def chunkBeats (addr left : Nat) : Nat := min (min 16 (cdiv left 16)) ((4096 - addr % 4096) / 16)

/-- The lowest ID below 64 that is not outstanding. -/
def freeId {α : Type} (t : Tab α) : Option Nat := (List.range 64).find? (fun i => (Tab.get? t i).isNone)

/-- The first place behind the 64 outstanding transfers. -/
def waitId {α : Type} (t : Tab α) : Nat := t.foldl (fun m p => max m (p.1 + 1)) 64

/-- A read started: it takes a free ID, or waits for one. Its transfers are aligned to 16 bytes (R395). -/
def State.startRead (addr bytes : Nat) (use : RdUse) (src : Nat) (s : State) : State :=
  let a := addr / 16 * 16
  let left := 16 * cdiv (addr % 16 + bytes) 16
  let r : RdReq := { addr := a, left, due := chunkBeats a left, skip := addr % 16, use, words := [], bads := [], src }
  match freeId s.host.reads with
  | some i =>
    ({ s with host := { s.host with reads := Tab.put s.host.reads i r } } : State).put (.memRead i a r.due src)
  | none => { s with host := { s.host with reads := Tab.put s.host.reads (waitId s.host.reads) r } }

/-- An ID falls free; the first waiting read takes it. -/
def State.endRead (id : Nat) (s : State) : State :=
  let t := Tab.del s.host.reads id
  match t.find? (fun p => 64 ≤ p.1) with
  | some (k, r) =>
    ({ s with host := { s.host with reads := Tab.put (Tab.del t k) id r } } : State).put
      (.memRead id r.addr r.due r.src)
  | none => { s with host := { s.host with reads := t } }

/-- SRC of a write: the ring's protection ID for operand data, the block's own for the rest (R396). -/
def State.writeSrc (s : State) (use : WrUse) : Nat :=
  match use with
  | .data slot _ | .verdict slot _ =>
    match s.cmd? slot with
    | some c => (vget s.host.rings c.ring).pid
    | none => ownSrc
  | _ => ownSrc

/-- The words of the beats of a write: whole beats from the 16-byte boundary below the address (R395). -/
def beatWords (addr : Nat) (words : List Word64) : List Word64 :=
  let l := (if addr % 16 == 8 then [0] else []) ++ words
  if l.length % 2 == 1 then l ++ [0] else l

/-- BE of each beat of a write: the bytes that belong to its words (Table 13-1). -/
def beatEnables (addr : Nat) (words : List Word64) : List (BitVec 16) :=
  let lo := if addr % 16 == 8 then 1 else 0
  let on := fun (i : Nat) => decide (lo ≤ i) && decide (i < lo + words.length)
  (List.range (cdiv (lo + words.length) 2)).map (fun b =>
    BitVec.ofNat 16 ((if on (2 * b) then 0x00FF else 0) + (if on (2 * b + 1) then 0xFF00 else 0)))

/-- The transfer of a write on the memory port. -/
def memWriteOut (id : Nat) (w : WrReq) : Out :=
  .memWrite id (w.addr / 16 * 16) (beatWords w.addr w.words) (beatEnables w.addr w.words) w.src

/-- A write started: it takes a free ID, or waits for one. -/
def State.startWrite (addr : Nat) (words : List Word64) (use : WrUse) (s : State) : State :=
  let w : WrReq := { addr, words, use, issues := 1, retryAt := none, src := s.writeSrc use }
  match freeId s.host.writes with
  | some i =>
    ({ s with host := { s.host with writes := Tab.put s.host.writes i w } } : State).put
      (memWriteOut i w)
  | none => { s with host := { s.host with writes := Tab.put s.host.writes (waitId s.host.writes) w } }

/-- An ID falls free; the first waiting write takes it. -/
def State.endWrite (id : Nat) (s : State) : State :=
  let t := Tab.del s.host.writes id
  match t.find? (fun p => 64 ≤ p.1) with
  | some (k, w) =>
    ({ s with host := { s.host with writes := Tab.put (Tab.del t k) id w } } : State).put
      (memWriteOut id w)
  | none => { s with host := { s.host with writes := t } }

/-- A long write cut into writes of at most 16 beats that cross no 4 KiB boundary; `use` is told which is the last. -/
def State.writeLong : Nat → Nat → List Word64 → (Bool → WrUse) → State → State
  | 0, _, _, _, s => s
  | fuel + 1, addr, words, use, s =>
    let n := 2 * chunkBeats addr (8 * words.length)
    if words.length ≤ n then s.startWrite addr words (use true)
    else State.writeLong fuel (addr + 8 * n) (words.drop n) use (s.startWrite addr (words.take n) (use false))

/-- The index word of a ring (13 R403); an IDXADDR of 0 writes none. -/
def State.writeIndex (ring : Nat) (v : Word32) (s : State) : State :=
  let r := vget s.host.rings ring
  if r.idxAddr == 0 then s else s.startWrite r.idxAddr [BitVec.ofNat 64 v.toNat] (.index ring)

/-! ## Set-point codes -/

/-- Microvolts of a set-point code: 0.250 V and 0.25 mV per code (Table 9-2). -/
def uvOf (code : Nat) : Nat := 250000 + 250 * code

/-- The code nearest a voltage in microvolts, held in 12 bits. -/
def codeOf (uv : Nat) : Nat := min 4095 ((uv - 250000 + 125) / 250)

end Sys2Proof.Machine
end

