-- ==== Sys2Proof/Machine/CellCore.lean ====
section
/-! DEFINITION. The power cell by itself (chapter 03): its transitions, soft start, fast paths, over-current, and the
carrier of its cluster's timing master. Functions of one cell or one carrier; the commands that use them are in
Cells.lean. -/

namespace Sys2Proof.Machine
open Sys2Proof

/-! ## Transitions (R76, R82, R91, R92) -/

/-- The hold duty of R82: VOUT / VIN × 8,192, rounded to nearest; none without an input voltage. -/
def holdDutyOf (vout vin : Nat) : Nat := if vin == 0 then 0 else (2 * vout * 8192 + vin) / (2 * vin)

/-- Entry to START (R82, R83): the reference at the measured VOUT; a pre-biased output above VREF does not ramp. -/
def Cell.toStart (now vout vin : Nat) (c : Cell) : Cell :=
  let dh := holdDutyOf vout vin
  { c.stageOff now with
    st := .start, pulse := { (c.stageOff now).pulse with onAt := now }, isoOpen := c.vinStop, startAt := now, startArmed := true
    refUv := vout, preHigh := decide (uvOf c.vref < vout), ramping := decide (vout ≤ uvOf c.vref)
    duty := dh / 4, frac := dh % 4 }

/-- The reference a cell makes for: SAFE_CODE in PARK, VREF elsewhere. -/
def Cell.target (c : Cell) : Nat := if c.st == .park then uvOf c.safeCode else uvOf c.vref

/-- A soft start from the measured VOUT, under the rules of START, in the state the cell holds (R80, R91). -/
def Cell.soft (now vout vin : Nat) (c : Cell) : Cell :=
  let dh := holdDutyOf vout vin
  { c with
    softStart := true, startAt := now, startArmed := true, isoOpen := c.vinStop, refUv := vout, duty := dh / 4, frac := dh % 4
    ramping := decide (vout ≤ c.target), preHigh := decide (c.target < vout) }

/-- Entry to RUN from START (R84) or from PARK. -/
def Cell.toRun (now : Nat) (c : Cell) : Cell :=
  { c with
    st := .run, preHigh := false, sleepFrom := none, softStart := false, runFrom := now
    bits := { c.bits with whole := false }
    prot := { c.prot with cleanSince := some (c.prot.cleanSince.getD now) } }

/-- Entry to TEST (R81). -/
def Cell.toTest (now : Nat) (c : Cell) : Cell := { c.stageOff now with st := .test, isoOpen := c.vinStop, cause := 0, pass := false }

/-- HICCUP_N consecutive limited cycles (R91, R92): HICCUP, or LATCHED when they fail the last retry; the flag says
LATCHED was entered. -/
def Cell.hiccup (th : Thresh) (now : Nat) (c : Cell) : Cell × Bool :=
  if c.st.switching then
    let clean := match c.prot.cleanSince with
      | some t => decide (t + 100000 ≤ now)
      | none => false
    let failed := c.prot.retrying && !clean
    let n := if clean then 0 else if failed then min 15 (c.prot.retry + 1) else c.prot.retry
    let off := c.stageOff now
    if failed && th.hiccupRetry ≤ n then
      ({ off with st := .latched, cause := 5, prot := { off.prot with retry := n, retrying := false } }, true)
    else
      ({ off with
          st := .hiccup
          prot := { off.prot with
            retry := n, retrying := false, hiccBy := now + th.hiccupHold * 1000, fromPark := c.st == .park } }, false)
  else (c, false)

/-- The hold-off has expired (R91): START, or PARK through the park loop's soft start; a hardware park level that is
still present acts next (R78). -/
def Cell.retryNow (now : Nat) (level : Bool) (m : PeriodMeas) (c : Cell) : Cell :=
  let p := { c.prot with retrying := true }
  if c.prot.fromPark then Cell.soft now m.vout m.vin (Cell.toPark now { c with prot := p })
  else
    let c := Cell.toStart now m.vout m.vin { c with prot := p }
    if level then c.park now else c

/-! ## Duty (R64, R65, R82, R88) -/

/-- The duty the cell applies in a period, quarter steps of DUTY, with the clamps that acted: upper, lower. In PARK it is the
park loop's. -/
def Cell.applied (th : Thresh) (m : PeriodMeas) (c : Cell) : Nat × Bool × Bool :=
  let d := if c.st == .park then c.parkDuty else 4 * c.duty + c.frac
  let d := if c.st == .start || c.softStart then max d (holdDutyOf m.vout m.vin) else d
  if d / 4 < th.dmin then (4 * th.dmin, false, true)
  else if th.dmax < d / 4 then (4 * th.dmax, true, false)
  else (d, false, false)

/-- On-time of a period in 1/2,048 of it: FRAC of every four periods add one, by the running pattern index (R64); the high
side is forced on up to DMAX by a kick, and truncation leaves DMIN (R85). -/
def Cell.onTime (th : Thresh) (m : PeriodMeas) (pat : Nat) (c : Cell) : Nat :=
  let a := c.applied th m
  if c.fast.truncOn then th.dmin
  else if c.fast.forced then th.dmax
  else if a.2.1 || a.2.2 then a.1 / 4
  else a.1 / 4 + b2n (decide (pat % 4 < a.1 % 4))

/-! ## Current limits (R86, R90) -/

/-- Overload timer and limited cycles after a period with the measurements `m`: a period in which a kick fired is no limited
cycle (R86). -/
def Cell.period (th : Thresh) (now : Nat) (m : PeriodMeas) (c : Cell) : Cell :=
  if c.st.switching && !c.vinStop then
    let above := decide (5000 < m.imean)
    let since := if above then some (c.prot.ovlSince.getD now) else none
    let exp := above && (c.prot.ovlExp || (match since with
      | some t => decide (t + th.ovlT * 1000 ≤ now)
      | none => false))
    let lim := (m.cbc || exp) && !c.fast.forced
    let n := if c.fast.forced then c.prot.limN else if lim then c.prot.limN + 1 else 0
    let a := c.applied th m
    { c with
      pulse := { c.pulse with earlier := (now, a.1) :: c.pulse.earlier.take 7 }
      fast := { c.fast with forced := false }
      prot := { c.prot with ovlSince := since, ovlExp := exp, limN := n }
      bits := { c.bits with limNow := c.bits.limNow || lim, clampNow := c.bits.clampNow || a.2.1 || a.2.2,
                            clampHi := a.2.1, clampLo := a.2.2 } }
  else { c with bits := { c.bits with clampHi := false, clampLo := false } }

/-! ## The command word (R63, R66) -/

/-- Fields of a command word. -/
structure CellWord where
  duty : Nat
  frac : Nat
  vref : Nat
  mode : CellMode
  bal : Nat
  shadow : Bool
  flt : Bool
  deriving DecidableEq, Repr

/-- Odd parity over [34:0] with PAR (R63). -/
def wordParity (w : BitVec 40) : Bool := (bitsIn 36 w.toNat).length % 2 == 1

/-- The fields of a valid word; none when the parity fails or MODE is the code not used. Bits [39:36] are sent as zero; the
spec does not say what the cell does with others, which it takes no notice of. DESIGN CHOICE: log entry 105. -/
def cellWordOf (w : BitVec 40) : Option CellWord :=
  if wordParity w then
    (cellModeOf (fld w.toNat 25 3)).map (fun m =>
      { duty := fld w.toNat 0 11, frac := fld w.toNat 11 2, vref := fld w.toNat 13 12, mode := m,
        bal := fld w.toNat 28 5, shadow := bit w.toNat 33, flt := bit w.toNat 34 })
  else none

/-- The word with given fields, its parity formed (Table 3-2). -/
def mkCellWord (x : CellWord) : BitVec 40 :=
  let n := pack [(11, x.duty), (2, x.frac), (12, x.vref), (3, x.mode.code), (5, x.bal), (1, b2n x.shadow), (1, b2n x.flt)]
  BitVec.ofNat 40 (n + (if (bitsIn 35 n).length % 2 == 1 then 0 else 2 ^ 35))

/-- The fields every valid word updates (R66): VREF and BAL, clamped (R94), and, but in HICCUP, LATCHED and DISABLED, the
MODE and the cluster's flags. -/
def Cell.latch (th : Thresh) (x : CellWord) (c : Cell) : Cell :=
  let c1 := { c with
    vref := x.vref, bal := min x.bal th.ballastMax
    prot := { c.prot with missN := 0 }
    bits := { c.bits with balClamps := c.bits.balClamps + b2n (decide (th.ballastMax < x.bal)) } }
  match c1.st with
  | .hiccup | .latched | .disabled => c1
  | .run | .ballast =>
    let c2 := { c1 with mode := x.mode, shadow := x.shadow, flt := x.flt }
    if c1.ramping || c1.softStart then c2 else { c2 with refUv := uvOf x.vref }
  | _ => { c1 with mode := x.mode, shadow := x.shadow, flt := x.flt }

/-- DUTY and FRAC of a word: held while truncation acts (R88). -/
def Cell.setDuty (x : CellWord) (c : Cell) : Cell :=
  if c.fast.truncOn then { c with fast := { c.fast with heldDuty := some (x.duty, x.frac) } }
  else { c with duty := x.duty, frac := x.frac }

/-- Ballast drawn after a word: BAL in BALLAST, resumed after a kick that has ended (R87, R94). -/
def Cell.setBallast (c : Cell) : Cell :=
  match c.st with
  | .ballast =>
    if c.fast.kickOn then { c with drawn := 0 }
    else { c with drawn := c.bal, fast := { c.fast with balDropped := false } }
  | _ => { c with drawn := 0 }

/-- MODE and DUTY of a valid word (R66, Table 3-6): MODE first, then DUTY. A MODE for which Table 3-6 has no event in the
cell's state (IDLE, START or TEST in RUN or BALLAST among them) changes no state, and the DUTY of the word is applied.
DEDUCED: log entry 106. -/
def Cell.applyMode (now : Nat) (m : PeriodMeas) (x : CellWord) (c : Cell) : Cell :=
  match c.st with
  | .hiccup | .latched | .disabled | .test => c
  | .idle =>
    match x.mode with
    | .start => c.toStart now m.vout m.vin
    | .test => c.toTest now
    | _ => c
  | .start =>
    match x.mode with
    | .off => { c.toIdle now with safeValid := false }
    | .park => c.park now
    | _ => c.setDuty x
  | .run | .ballast =>
    match x.mode with
    | .off => { c.toIdle now with safeValid := false }
    | .park => c.park now
    | .run => Cell.setBallast (Cell.setDuty x { c with st := .run, runFrom := if c.st == .run then c.runFrom else now })
    | .ballast => Cell.setBallast (Cell.setDuty x { c with st := .ballast })
    | _ => c.setDuty x
  | .park =>
    match x.mode with
    | .off => { c.toIdle now with safeValid := false }
    | .run => Cell.setDuty x { (c.toRun now) with refUv := uvOf x.vref }
    | _ => c

/-- A command word reaches the cell at a carrier start, with what it measured in the period that has ended (R63, R66,
R77, R78, R90): the flag says LATCHED was entered. A hardware park level holds a cell in PARK against MODE, and leaves
hiccup to act there (R78, R97). `top` is the highest rank of the other events of the period, 6 where there is none (R78). -/
def Cell.word (th : Thresh) (parkN now : Nat) (level : Bool) (top : Nat) (w : BitVec 40) (m : PeriodMeas) (c : Cell) :
    Cell × Bool :=
  let c := c.period th now m
  match cellWordOf w with
  | none =>
    let c := { c with prot := { c.prot with missN := c.prot.missN + 1 } }
    if top < 3 then (c, false)
    else if level && c.st != .park then (c.park now, false)
    else if top < 4 then (c, false)
    else if c.st.switching && th.hiccupN ≤ c.prot.limN then c.hiccup th now
    else if parkN ≤ c.prot.missN && 5 ≤ top then (c.park now, false)
    else (c, false)
  | some x =>
    let c := c.latch th x
    if top < 3 then (c, false)
    else if level && c.st.switching && c.st != .park then (c.park now, false)
    else if top < 4 then (c, false)
    else if c.st.switching && th.hiccupN ≤ c.prot.limN then c.hiccup th now
    else if level && c.st == .park || top < 6 then (c, false)
    else (c.applyMode now m x, false)

/-! ## Fast paths (R85 to R89) -/

/-- All fast paths act in RUN, BALLAST and PARK; truncation acts in START too (Table 3-5). -/
def CellState.kicks : CellState → Bool
  | .run | .ballast | .park => true
  | _ => false

/-- A kick fires: VOUT below the reference by DROOP_TH, armed (R85, R87). Its end and re-arming are kept in half ns. -/
def Cell.kick (th : Thresh) (now : Nat) (c : Cell) : Cell :=
  { c with
    drawn := 0
    fast := { c.fast with kickOn := true, kickBy := 2 * now + th.kickT, kickArmed := false, forced := true,
                          balDropped := true, nKick := c.fast.nKick + 1 }
    bits := { c.bits with kick := true } }

/-- The condition of a kick. -/
def Cell.kickTrips (th : Thresh) (vout : Nat) (c : Cell) : Bool :=
  c.st.kicks && !c.softStart && c.fast.kickArmed && !c.fast.kickOn && decide (vout + 2000 * th.droopTh < c.refUv)

/-- The condition of truncation. -/
def Cell.truncTrips (th : Thresh) (vout : Nat) (c : Cell) : Bool :=
  c.st.switching && !c.fast.truncOn && decide (c.refUv + 2000 * th.ovsTh < vout)

/-- The condition of the shunt. -/
def Cell.shuntTrips (th : Thresh) (vout : Nat) (c : Cell) : Bool :=
  c.st.kicks && !c.softStart && c.fast.shuntArmed && !c.fast.shuntOn && decide (c.refUv + 4000 * th.shuntTh < vout)

/-- Sink current of shunt and ballast together, mA: at most 6 A (R85, R95). -/
def Cell.sinkMax (c : Cell) : Nat := if c.fast.shuntOn then 6000 else 125 * c.drawn

/-! ## The reference (R82, R83, R96) -/

/-- The reference and SAFE_CODE at a sample boundary; `q8` is the ramp of one sample in microvolts. -/
def Cell.sample (q8 vout : Nat) (c : Cell) : Cell :=
  let safe := c.bits.whole && c.st.running && !c.bits.limNow && !c.bits.clampNow && !c.flt
  let c1 := if safe then { c with safeCode := codeOf c.refUv, safeValid := true } else c
  let tgt := c1.target
  let c2 :=
    if (c1.st == .start || c1.softStart) && c1.preHigh then { c1 with refUv := max tgt (min c1.refUv vout) }
    else if c1.ramping && c1.st.switching then
      let r := if c1.refUv ≤ tgt then min tgt (c1.refUv + q8) else max tgt (c1.refUv - q8)
      { c1 with refUv := r, ramping := !(r == tgt && c1.st != .start) }
    else c1
  { c2 with
    fast := { c2.fast with nKick := 0, nTrunc := 0, nShunt := 0 }
    bits := { c2.bits with lim := c2.bits.limNow, limNow := false, clampNow := false, whole := c2.st.running } }

/-! ## The carrier (R67 to R75, R103) -/

/-- Units of carrier frequency in one count of FSW. -/
def fswUnit : Nat := 13107200

/-- The dither generator of R74. -/
def ditherG (seed m : Nat) : Nat :=
  let x := (m + seed) % 65536
  let x := x ^^^ (x / 2 ^ 7)
  let x := x * 0x2C6B % 65536
  let x := x ^^^ (x / 2 ^ 9)
  let x := x * 0x5A1D % 65536
  x ^^^ (x / 2 ^ 8)

/-- Frequency of carrier periods 16m to 16m + 15 (R74). -/
def ditherFreq (s1 : Sec1) (m : Nat) : Nat :=
  ((s1.fsw : Int) * ((fswUnit : Int) + (s1.dspan : Int) * ((ditherG s1.dseed m : Int) - 32768))).toNat

/-- One turn of a carrier, in half frequency units x ns. -/
def turnU : Nat := 52428800000

/-- Frequency at an instant, on the glide of R71, R73 and R103. -/
def Carrier.freq (c : Carrier) (now : Nat) : Nat :=
  let d := (now - c.glideAt) * c.rate / 1000
  if c.freqFrom ≤ c.freqTo then min c.freqTo (c.freqFrom + d) else max c.freqTo (c.freqFrom - d)

/-- The instant at which the present glide has ended. -/
def Carrier.glideEnd (c : Carrier) : Nat :=
  if c.rate == 0 then c.glideAt
  else c.glideAt + cdiv ((max c.freqFrom c.freqTo - min c.freqFrom c.freqTo) * 1000) c.rate

/-- Turns made between two instants, the glide taken as straight between them and its end. -/
def Carrier.swept (c : Carrier) (a b : Nat) : Nat :=
  let e := min b (max a c.glideEnd)
  (c.freq a + c.freq e) * (e - a) + 2 * c.freqTo * (b - e)

/-- The phase that the pull-in has moved the edge by at an instant: 5 degrees of each period (R71). -/
def Carrier.pulled (c : Carrier) (now : Nat) : Int :=
  let d : Int := (c.freqTo * (now - c.pullAt) / 36 : Nat)
  clampI (-d) d c.pull

/-- The instant at which the pull-in has ended. -/
def Carrier.pullEnd (c : Carrier) : Nat := c.pullAt + cdiv (36 * c.pull.natAbs) (max 1 c.freqTo)

/-- Turns made up to an instant of the present motion. -/
def Carrier.turned (c : Carrier) (now : Nat) : Nat := (((c.ph + c.swept c.phAt now : Nat) : Int) + c.pulled now).toNat

/-- The reference edge brought to an instant. -/
def Carrier.run (now : Nat) (c : Carrier) : Carrier :=
  { c with ph := c.turned now, phAt := max c.phAt now, pull := c.pull - c.pulled now, pullAt := max c.pullAt now }

/-- The motion of a carrier by itself. -/
def Carrier.turn (c : Carrier) : Turn :=
  { freqFrom := c.freqFrom, freqTo := c.freqTo, glideAt := c.glideAt, rate := c.rate, ph := c.ph, phAt := c.phAt
    phFree := c.phFree, pull := c.pull, pullAt := c.pullAt }

/-- A glide to a frequency from the present one: the reference edge keeps its place (R515). -/
def Carrier.glide (now tgt rate : Nat) (c : Carrier) : Carrier :=
  { c.run now with freqFrom := c.freq now, freqTo := tgt, glideAt := now, rate, pull := 0, was := some c.turn }

/-- A frequency entered at once at a carrier start, without a phase step (R74). -/
def Carrier.setFreq (now f : Nat) (c : Carrier) : Carrier :=
  { c.run now with freqFrom := f, freqTo := f, glideAt := now, pull := 0, was := some c.turn }

/-- The carrier as it moved at an instant that may lie before its last change. -/
def Carrier.seen (t : Nat) (c : Carrier) : Carrier :=
  match c.was with
  | some w => if t < c.phAt then
      { c with freqFrom := w.freqFrom, freqTo := w.freqTo, glideAt := w.glideAt, rate := w.rate, ph := w.ph, phAt := w.phAt,
               phFree := w.phFree, pull := w.pull, pullAt := w.pullAt }
    else c
  | none => c

/-- Turns made up to an instant; for one before the motion's own start, 64 turns are added so that none is negative, which
leaves the phase and the four-period pattern as they are. -/
def Carrier.phaseAt (t : Nat) (c : Carrier) : Nat :=
  if c.phAt ≤ t then c.turned t else c.ph + 64 * turnU - 2 * c.freqFrom * (c.phAt - t)

/-- How far the carrier of cell `k` starts behind the reference edge: k x 22.5 degrees (R67). -/
def slotPh (k : Nat) : Nat := k % 16 * (turnU / 16)

/-- How far the reference edge of cluster `n` lies behind ZN_SYNC_IN: (n mod 16) x 1.40625 degrees (R67). -/
def offsetPh (n : Nat) : Nat := n % 16 * (turnU / 256)

/-- FSW / 50 per microsecond, in frequency units. -/
def glideRate (fsw : Nat) : Nat := fsw * fswUnit / 50

/-- A frequency in hertz in units of the carrier. -/
def hzUnits (hz : Nat) : Nat := hz * 262144 / 10000

/-- An edge frequency lies in the qualification window of R70: within 4 % of the period of FSW, and 100 to 160 MHz. -/
def inWindow (fsw hz : Nat) : Bool :=
  decide (500000 * fsw * 100 ≤ 104 * hz) && decide (96 * hz ≤ 500000 * fsw * 100) &&
  decide (100000000 ≤ hz) && decide (hz ≤ 160000000)

/-- The timing master: the lowest-numbered cell that switches (R67, R68). -/
def Cluster.master (c : Cluster) : Option Nat := (vfind (fun x : Cell => x.st.switching) c.cells).head?

end Sys2Proof.Machine
end

