-- ==== Sys2Proof/Machine/Throttle.lean ====
section
/-! DEFINITION. Throttle demands, the blend table, the ZN_THR buses, voltage and frequency steps and FCEIL
(10 R318 to R327), the ceilings on a domain's target (R124, 15 R470), and the commands that only they serve. -/

namespace Sys2Proof.Machine
open Sys2Proof

/-! ## Ceilings and FCEIL -/

/-- The ceiling of R327 with `k` steps: max(VMIN, T - k VF_DV). -/
def State.vfCeiling (s : State) (d k : Nat) : Nat :=
  match s.sheet.domRec d with
  | some r => max r.vmin ((s.dm d).tgt - k * s.sheet.s5.vfDv)
  | none => (s.dm d).tgt

/-- SOA_VMAX as a ceiling (15 R470): none before the page has been distributed. -/
def State.soaCeil (s : State) (v : Nat) : Nat := if s.sec.soaVmax == 0 then v else min v s.sec.soaVmax

/-- The target in force: T under every ceiling (R124, R327, R470). -/
def State.tgtInForce (s : State) (d : Nat) : Nat :=
  s.soaCeil (min (s.dm d).tgt (if (s.dm d).thr.vfCeil == 0 then (s.dm d).tgt else s.vfCeiling d (s.dm d).thr.vfCeil))

/-- A code offered as a new target of domain `d`, under the ceilings. -/
def State.clampTgt (s : State) (d code : Nat) : Nat :=
  let k := (s.dm d).thr.vfCeil
  let c := match s.sheet.domRec d with
    | some r => if k == 0 then code else max r.vmin (code - k * s.sheet.s5.vfDv)
    | none => code
  s.soaCeil (min code c)

/-- The target in force written into the ramps of the domain; r moves to it under the ramp rules (R124). -/
def State.retarget (d : Nat) (s : State) : State :=
  let t := s.tgtInForce d
  each (s.sheet.domHalves d) (fun p s => s.modHalf p.1 p.2 (fun h => { h with ramp := { h.ramp with tgt := t } })) s

/-- Full redundancy mode of cluster `n` (04 R142). -/
def Ctl.active (c : Ctl) : Bank := if c.activeB then c.bankB else c.bankA
/-- The inactive bank. -/
def Ctl.inactive (c : Ctl) : Bank := if c.activeB then c.bankA else c.bankB
/-- The inactive bank replaced. -/
def Ctl.setInactive (c : Ctl) (b : Bank) : Ctl := if c.activeB then { c with bankA := b } else { c with bankB := b }
/-- Full redundancy mode (04 R142). -/
def State.redMode (s : State) (n : Nat) : Bool := (s.cl n).ctl.active.red

/-- The lowest r of the domain's clusters, rounded down to a code. -/
def State.rFloor (s : State) (d : Nat) : Nat :=
  match s.sheet.domHalves d with
  | [] => (s.dm d).tgt
  | p :: t => t.foldl (fun m q => min m ((s.half q.1 q.2).ramp.r / 4096)) ((s.half p.1 p.2).ramp.r / 4096)

/-- v_pub of R326; held at T by a MARGIN_PROBE (14 R453). -/
def State.vPub (s : State) (d : Nat) : Nat :=
  match (s.dm d).probeT with
  | some t => t
  | none =>
    let v := min (s.rFloor d) (s.tgtInForce d)
    match (s.dm d).thr.vfWait with
    | some (k, _) => min v (s.vfCeiling d k)
    | none => v

/-- Effective Fmax of a LOGIC domain at code `v` (R326), and 0xFFF for any other. -/
def State.fmaxAt (s : State) (d v : Nat) : Nat :=
  match s.sheet.domRec d with
  | some r =>
    if r.dtype == 0 then
      let fs := (s.sheet.domHalves d).map (fun p =>
        let t := (s.cl p.1).therm
        let f := ((40 * (t.fBin : Int) + (t.sBin : Int) * ((v : Int) - 2000)) * (65536 - t.a)).fdiv (40 * 65536)
        (clampI 0 4094 f).toNat)
      let m := match fs with
        | [] => 4094
        | f :: t => t.foldl min f
      if r.fmax == 0 then m else min m r.fmax
    else 0xFFF
  | none => 0xFFF

/-! ## The blend table (R318 to R322) -/

/-- The SENSOR demand: a cluster of the domain has ALLBAD set. -/
def State.sensorOn (s : State) (d : Nat) : Bool :=
  (s.sheet.domHalves d).any (fun p => (s.cl p.1).therm.allBad)

/-- A lane of the domain was won by loop `j` in the last sample (R120). -/
def State.wonBy (s : State) (d j : Nat) : Bool :=
  (s.sheet.domCells d).any (fun p =>
    (s.cell p.1 p.2).st.switching && (vget (s.cl p.1).ctl.lanes p.2).win == j)

/-- HELD of a domain: the sum over its cluster halves of HELD_r and of the ballast holding Bh (07 R214, Table 7-1). -/
def State.domHeld (s : State) (d : Nat) : Nat :=
  sumN ((s.sheet.domHalves d).map (fun p =>
    let l := (s.cl p.1).led
    sumN ((if p.2 == 0 then l.heldLo else l.heldHi).map (fun q => q.2)) + (s.half p.1 p.2).acc.bh))

/-- The demand of a domain, 8 fraction bits: the largest of its reasons (R319). -/
def State.demand (s : State) (d : Nat) : Nat :=
  let t := (s.dm d).thr
  let c := s.sheet.s5
  if s.sheet.isAon d then 0 else maxN [t.dCap, t.dTh, t.dCur, t.dSl, if s.sensorOn d then 256 * c.sensorD else 0,
    if s.pins.exthrN then 0 else 256 * c.extD]

/-- The value a rank gives its actuator at demand `di` (R320). -/
def Rank.value (k : Rank) (mx di : Nat) : Nat :=
  if di < k.s then 0 else if k.e < di then mx else min mx ((di - k.s + 1) * (mx + 1) / (k.e - k.s + 1))

/-- The value of actuator `act` at demand `di`; an actuator without a rank stays at 0. -/
def Sec5.actuator (c : Sec5) (act di : Nat) : Nat :=
  let mx := if act == 1 then c.bubMax else if act == 2 then c.skipMax else if act == 3 then c.divMax else c.vfNmax
  match c.ranks.find? (fun k => k.act == act) with
  | some k => k.value mx di
  | none => 0

/-- THR_REASON of a domain, bit 0 CAP upward (R318, 02 Table 2-2). -/
def State.reasons (s : State) (d : Nat) : BitVec 7 :=
  let t := (s.dm d).thr
  let bits := [decide (0 < t.dCap), decide (0 < t.dTh) || s.wonBy d 3,
    decide (0 < t.dCur) || s.wonBy d 1 || decide (s.domCap d < s.domHeld d),
    s.vin.dip, decide (0 < t.dSl) || s.wonBy d 2, s.sensorOn d, !s.pins.exthrN]
  BitVec.ofNat 7 (pack (bits.map (fun b => (1, b2n b))))

/-- Steps in force and their sequencing (R327): a step-down lowers FCEIL at once and waits VF_WAIT; a step-up raises
the ceiling at once. -/
def Throttle.vfTo (now wait n : Nat) (t : Throttle) : Throttle :=
  if t.vfCeil < n then
    match t.vfWait with
    | some (k, _) => if k == n then { t with vf := n } else { t with vf := n, vfWait := some (n, now + wait) }
    | none => { t with vf := n, vfWait := some (n, now + wait) }
  else { t with vf := n, vfCeil := n, vfWait := none }

/-- A domain's actuators, stage, reasons and FCEIL formed again from its demands; source 128 + d fires when THR_STAGE
or THR_REASON changed (14 Table 14-4). The AON domain has no demand. -/
def State.thrDom (d : Nat) (s : State) : State :=
  match s.sheet.domRec d with
  | none => s
  | some r =>
    if r.dtype == 4 then s
    else
      let c := s.sheet.s5
      let di := s.demand d / 256
      let act := fun (k : Nat) => if k == 4 then (if r.dtype == 0 then c.actuator 4 di else 0)
        else if r.thrEn then c.actuator k di else 0
      let stage := (c.ranks.filter (fun k => 1 ≤ k.act && 0 < act k.act)).foldl (fun _ k => k.act) 0
      let skip0 := if s.vin.dip then max 8 (act 2) else act 2
      let skip := if s.trip then 15 else skip0
      let div := if s.trip then 3 else act 3
      let reason := s.reasons d
      let old := (s.dm d).thr
      let t := { old with reason, stage, bub := act 1, skip, div }
      let s := s.modDm d (fun x => { x with thr := Throttle.vfTo s.elapsed (c.vfWait * 1000) (act 4) t })
      let s := if (s.dm d).thr.vfCeil != old.vfCeil then s.retarget d else s
      let s := s.modDm d (fun x => { x with thr := { x.thr with
        fceil := if r.dtype == 0 then s.fmaxAt d (s.vPub d) else 0xFFF } })
      if old.stage != stage || old.reason != reason then s.fire (128 + d) else s

/-! ## The buses (R321, R323, R324) -/

/-- The value of bus `h` (R324). -/
def State.busVal (s : State) (h : Nat) : BitVec 24 :=
  if s.pow.busReset then 0xFFFC00
  else
    let ds := s.sheet.doms.filter (fun r => r.thrEn && r.thrDom == h && r.dtype != 4)
    let mx := fun (f : Throttle → Nat) => maxN (ds.map (fun r => f (s.dm r.dom).thr))
    let fc := (ds.filter (fun r => r.dtype == 0)).foldl (fun m r => min m (s.dm r.dom).thr.fceil) 0xFFF
    -- the floor of a VIN dip holds on every bus (11 R345)
    let floor := if s.vin.dip then 8 else 0
    BitVec.ofNat 24 (pack [(6, mx (fun t => t.bub)), (4, max floor (mx (fun t => t.skip))), (2, mx (fun t => t.div)), (12, fc)])

/-- Every bus driven with its present value; the toggle of a bus changes with its value (17 R498). -/
def State.driveBuses (s : State) : State :=
  -- a bus whose last change is less than 16 ns old sends its value later, and the latest one then (17 Table 17-4)
  let go := fun (h : Nat) => s.busVal h != vget s.pins.thr h && decide (vget s.pins.thrAt h ≤ s.elapsed)
  let hs := (List.range 64).filter go
  let wait := (List.range 64).any (fun h => s.busVal h != vget s.pins.thr h && !go h)
  { s with pins := { s.pins with
    thr := vmap (fun h v => if hs.contains h then s.busVal h else v) s.pins.thr
    thrAt := vmap (fun h v => if hs.contains h then s.elapsed + 16 else v) s.pins.thrAt
    thrTgl := hs.foldl (fun (m : BitVec 64) h => m ^^^ BitVec.ofNat 64 (2 ^ h)) s.pins.thrTgl
    thrWait := wait } }

/-- Some domains evaluated again, then the buses. The first evaluation under a call sheet ends their reset values
(R324). -/
def State.throttle (ds : List Nat) (s : State) : State :=
  let s := each ds State.thrDom s
  { s with pow := { s.pow with busReset := s.pow.busReset && s.csh.isNone } }.driveBuses

/-- Every domain evaluated again, then the buses. -/
def State.throttleAll (s : State) : State := s.throttle s.sheet.domIxs

/-- The domains a cluster serves. -/
def State.cluDoms (s : State) (n : Nat) : List Nat := ((s.sheet.cluHalves n).map (fun p => p.2))

/-! ## Shares and power (R329, R330) -/

/-- The lesser of two shares kept as fractions. -/
def fracMin (a b : Nat × Nat) : Nat × Nat := if a.1 * b.2 ≤ b.1 * a.2 then a else b

/-- S_d as the caps, fractions, ceilings and capacities now give it, W as a fraction (R329). -/
def State.shareNow (s : State) (d : Nat) : Nat × Nat :=
  match s.sheet.domRec d with
  | none => (0, 1)
  | some r =>
    if r.dtype == 4 then (0, 1)
    else
      let caps := s.pow.caps
      let own := s.owner d
      let same := s.sheet.domIxs.filter (fun e => !s.sheet.isAon e && s.owner e == own)
      let fracSet := match own with
        | some c => caps.frac.getD c 0
        | none => caps.fracNone
      let typed : Option Nat := match own with
        | some c => (s.cx c).fr.map (fun f => [f.1, f.2.1, f.2.2.2, f.2.2.1].getD r.dtype 0)
        | none => none
      let peers := match typed with
        | some _ => same.filter (fun e => (s.sheet.domRec e).map DomRec.dtype == some r.dtype)
        | none => same
      let tot := sumN (peers.map s.domCap)
      let num := caps.capChip * s.vin.vcut * fracSet * (typed.getD 256) * s.domCap d
      let den := 256 * 256 * 256 * tot
      let v : Nat × Nat := if tot == 0 then (0, 1) else (num, den)
      if (s.dm d).ceilW == 0 then v else fracMin v ((s.dm d).ceilW, 1)

/-- The domain has neither a share nor power at a broadcast: Table 10-2 states no x. -/
def Throttle.idle (t : Throttle) : Bool := t.share.1 == 0 && t.power == 0

/-- The step of D_cap at a broadcast (R318): x as it stands in Table 10-2; `free` where S_d and P_d are both 0. -/
def capX (energy : Nat) (sh : Nat × Nat) (free : Int) : Int :=
  -- P = energy / 65,536,000 W
  if sh.1 == 0 then (if energy == 0 then free else 256)
  else clampI (-256) 256
    ((256 * ((energy * sh.2 : Nat) - (sh.1 * 65536000 : Nat) : Int)).fdiv ((sh.1 * 65536000 : Nat) : Int))

/-- A demand held within 0 to 1,023, 8 fraction bits. -/
def clampD (x : Int) : Nat := (clampI 0 (1023 * 256) x).toNat

/-- CAP, CURRENT and SLOPE at a broadcast (R318), from the interval's energy and what was seen in it. -/
def Throttle.atBroadcast (c : Sec5) (capOff : Bool) (free : Int) (t : Throttle) : Throttle :=
  let x := capX t.power t.share free
  let dCap := if capOff then 0 else clampD ((t.dCap : Int) + x * (c.capG : Int))
  let cur := if t.sawHeld || t.sawI then (256 * c.curStep : Int) else -(64 * c.curStep : Int)
  let sl := if t.sawS then (256 * c.slopeStep : Int) else -(64 * c.slopeStep : Int)
  { t with dCap, dCur := clampD (t.dCur + cur), dSl := clampD (t.dSl + sl),
           sawHeld := false, sawI := false, sawS := false }

/-! ## Pins and timers of their own -/

/-- EXTERNAL_THROTTLE: a low level on ZN_EXTHR_N of `ns` (17 R495): 100 ns or more is taken, less than 20 ns is
ignored; between the two the spec fixes nothing and a free value decides. -/
def execExternalThrottle (ns : Nat) (s : State) : Host.Outcome State Fault Refusal :=
  let take := fun (s : State) => { s with pins := { s.pins with exthrN := false } }.throttleAll
  if ns < 20 then .next s
  else if 100 ≤ ns then .next (take s)
  else
    let (v, s') := s.drawNat
    .next (if v % 2 == 0 then take s' else s')

/-- EXTERNAL_THROTTLE_END: the rise of ZN_EXTHR_N (R318). -/
def execExternalThrottleEnd (s : State) : Host.Outcome State Fault Refusal :=
  .next { s with pins := { s.pins with exthrN := true } }.throttleAll

/-- VF_STEP_DOWN: VF_WAIT after a step-down its ceiling is applied (R327). -/
def execVfStepDown (d : DomIx) (s : State) : Host.Outcome State Fault Refusal :=
  match (s.dm d).thr.vfWait with
  | none => .next s
  | some (k, at_) =>
    let s := s.advanceTo at_
    let s := s.modDm d (fun x => { x with thr := { x.thr with vfCeil := k, vfWait := none } })
    .next ((s.retarget d).throttle [d.val])


/-- Thresholds in force: warning, hysteresis, reset, in mV, and VIN_WIN in us; none before a call sheet (R343). -/
def State.vinWarnMv (s : State) : Nat := (s.vin.thr.map (fun t => t.1)).getD 0

/-- VIN_WARN + VIN_HYST. -/
def State.vinOkMv (s : State) : Nat := (s.vin.thr.map (fun t => t.1 + t.2.1)).getD 1450

/-- A reading of VIN: its level, WARN, and the lowest level of the dip in progress. The 1 ms above VIN_WARN + VIN_HYST that ends
a cut starts anew with any level that is not (R347). -/
def State.vinRead (mv : Nat) (s : State) : State :=
  { s with vin := { s.vin with
    mv, warn := decide (mv < s.vinWarnMv)
    okBy := if mv ≤ s.vinOkMv then none else s.vin.okBy
    minMv := if s.vin.dip then min s.vin.minMv mv else s.vin.minMv } }

/-- New thresholds are judged against the present level (R373). -/
def State.vinJudge (s : State) : State := s.vinRead s.vin.mv


/-! ## Capacitor bonds: which cells are measured, and the dither (12 R389) -/

/-- The dither of 12 R389 may run on the cells of half `h` of domain `d`: the voltage loop wins in every lane of the domain, and no
preparation runs. -/
def State.resonates (s : State) (n h d : Nat) : Bool :=
  !(s.half n h).prep.on && !(List.range 8).any (fun j => s.wonBy d (j + 1))

/-- Every cell that a cluster has in service is in RUN for a whole interval `int` that ends at `t`: its cells, else none. -/
def State.capReady (s : State) (n int t : Nat) : List Nat :=
  let cells := (s.sheet.allCells n).filter (fun k => (s.cell n k).st != .disabled && (s.cell n k).st != .latched)
  if cells.all (fun k => (s.cell n k).st == .run && decide ((s.cell n k).runFrom + int ≤ t)) then cells else []

/-- The resonance of a cell is measured: the dither ran on it. -/
def State.capDithers (s : State) (n k : Nat) : Bool :=
  match s.sheet.cellDom n k with
  | some d => s.resonates n (s.sheet.cellHalf n k) d
  | none => false

/-- CAP_INT in ns. -/
def State.capNs (s : State) : Nat := max 1 (fld s.vrtCfg.toNat 24 8) * 1000000

/-- The duty dither of a lane, in duty counts (12 R389): a square wave of 2 counts for 2 us at each of eight frequencies from 0.6 to
1.4 times the cell's f_ref, in the last 16 us before the estimate. The spec gives neither its shape nor its place in the interval,
nor an f_ref before the first estimate: DESIGN CHOICE, log entry 125. -/
def State.dither (s : State) (n k : Nat) : Int :=
  let at_ := (s.cl n).capAt
  if at_ ≤ s.elapsed || s.elapsed + 16000 < at_ || !s.capDithers n k || !(s.capReady n s.capNs at_).contains k then 0
  else
    let t := s.elapsed + 16000 - at_
    let f := (vget (s.cl n).caps k).fRef
    let q := (if f == 0 then Config.capStart else f) * (21 + 4 * min 7 (t / 2000))
    if t % 2000 * q % 3500000 < 1750000 then 2 else -2

end Sys2Proof.Machine
end

