-- ==== Sys2Proof/Machine/Credits.lean ====
section
/-! DEFINITION. Current credits (chapter 07): the accounts of Table 7-1, admission, returns, lending, resets and
ledger errors, and B-roll's holding; the commands of the requester network and of the ledger messages. -/

namespace Sys2Proof.Machine
open Sys2Proof

/-! ## Words of the requester network (R218) -/

/-- GRANT. -/
def wGrant (req amt slot gen : Nat) (filler atRel : Bool) (rem_ : Nat) : Word64 :=
  BitVec.ofNat 64 (pack [(8, req), (11, amt), (10, slot), (3, gen), (1, b2n filler), (1, b2n atRel),
    (11, min rem_ 2047), (15, 0), (4, 8)])
/-- FILL. -/
def wFill (req amt : Nat) : Word64 := BitVec.ofNat 64 (pack [(8, req), (11, amt), (41, 0), (4, 9)])
/-- REVOKE. -/
def wRevoke (req slot gen : Nat) : Word64 :=
  BitVec.ofNat 64 (pack [(8, req), (11, 0), (10, slot), (3, gen), (28, 0), (4, 10)])

/-- RELEASE. -/
def wRelease : Word64 := BitVec.ofNat 64 (pack [(60, 0), (4, 11)])

/-- KIND of a word. -/
def wKind (w : Word64) : Nat := fld w.toNat 60 4

/-! ## Access to the accounts -/

/-- Account of half `h` of a cluster changed. -/
def Cluster.modAcc (c : Cluster) (h : Nat) (f : Acc → Acc) : Cluster :=
  { c with halves := vmod c.halves h (fun x => { x with acc := f x.acc }) }

/-- The holdings table of a half. -/
def Ledger.held (l : Ledger) (h : Nat) : Tab Nat := if h == 0 then l.heldLo else l.heldHi
/-- The holdings table of a half replaced. -/
def Ledger.setHeld (l : Ledger) (h : Nat) (t : Tab Nat) : Ledger :=
  if h == 0 then { l with heldLo := t } else { l with heldHi := t }
/-- HELD_c of a half: what its requesters hold. -/
def Ledger.heldSum (l : Ledger) (h : Nat) : Nat := sumN ((l.held h).map (fun p => p.2))
/-- F_c: filler credits held. -/
def Ledger.fillerHeld (l : Ledger) (h : Nat) : Nat :=
  sumN ((l.grants.filter (fun p => p.2.filler && p.2.half == h)).map (fun p => p.2.left))
/-- AR_c: credits held in AT_REL grants. -/
def Ledger.atRelHeld (l : Ledger) (h : Nat) : Nat :=
  sumN ((l.grants.filter (fun p => p.2.atRel && p.2.half == h)).map (fun p => p.2.left))
/-- Generation of a slot. -/
def Ledger.gen (l : Ledger) (slot : Nat) : Nat := Tab.getN l.gens slot
/-- A slot freed: its generation advances modulo 8 (R230). -/
def Ledger.free (l : Ledger) (slot : Nat) : Ledger :=
  { l with grants := Tab.del l.grants slot, gens := Tab.putN l.gens slot ((l.gen slot + 1) % 8) }
/-- The lowest free slot. -/
def Ledger.lowFree (l : Ledger) : Option Nat :=
  if 1024 ≤ l.grants.length then none
  else
    -- keys are strictly rising: the first place where the key differs from its position
    some ((l.grants.foldl (fun (acc : Nat) p => if p.1 == acc then acc + 1 else acc) 0))

/-- The half a requester draws from (R217, R243). -/
def State.reqHalf (s : State) (n r : Nat) : Nat :=
  if s.sheet.isSplit n then
    match s.sheet.s8.half.find? (fun p => p.1 == n) with
    | some p => if p.2.getLsbD r then 1 else 0
    | none => 0
  else 0

/-- Cells of a half in RUN or BALLAST. -/
def State.nRun (s : State) (n h : Nat) : Nat :=
  ((s.sheet.cells n h).filter (fun k => (s.cell n k).st.running)).length

/-- CAPACITY of a half's cells. -/
def State.halfCap (s : State) (n h : Nat) : Nat :=
  sumN ((s.sheet.cells n h).map (fun k => (s.cell n k).capacity))

/-- BALLAST_MAX of a half's cells, counts. -/
def State.balMax (s : State) (n h : Nat) : Nat :=
  match s.sheet.halfDom n h with
  | some d => ((s.cl n).s1.thresh d).ballastMax
  | none => (s.cl n).s1.base.ballastMax

/-- B-roll is active (R238): joined to a slate of more than 16 chips, or forced. -/
def State.brollOn (s : State) : Bool := (s.slt.joined && decide (16 < s.slt.n)) || s.sheet.s8.force

/-- The half holds a level: a HOLD shot is current, B-roll is active (R239), and the Gaffer is not lost (R235). -/
def State.holding (s : State) (n h : Nat) : Bool := (s.half n h).broll.hold && s.brollOn && !(s.cl n).gafLost

/-- The halves of a cluster in use. -/
def State.hs (s : State) (n : Nat) : List Nat := (s.sheet.cluHalves n).map (fun p => p.1)

/-- The half of cluster `n` that serves domain `d`. -/
def State.halfOf (s : State) (n d : Nat) : Option Nat :=
  ((s.sheet.cluHalves n).find? (fun p => p.2 == d)).map (fun p => p.1)

/-- The Gaffer's record of a balance (R234) after a change. -/
def State.balAdd (n h : Nat) (x : Int) (s : State) : State :=
  { s with bal := vmod s.bal n (fun v => vmod v h (fun b => ((b : Int) + x).toNat)) }

/-! ## Ledger messages (R226) -/

/-- Codes: 1 BORROW, 2 GIVE, 3 CALL, 4 LEND, 5 BANK, 6 RECALL, 7 WITHHOLD. -/
def LMsg.word (m : LMsg) : Word64 := BitVec.ofNat 64 (pack [(4, m.op), (7, m.dom), (16, m.amt), (6, m.clu)])

/-- A message sent; an amount of 0 sends none. -/
def State.send (m : LMsg) (s : State) : State := if m.amt == 0 then s else { s with msgs := s.msgs ++ [m] }

/-- A message that leaves a cluster with credits: its balance falls. -/
def State.sendUp (op n h d amt : Nat) (s : State) : State :=
  if amt == 0 then s
  else ({ s with msgs := s.msgs ++ [{ up := true, op, dom := d, amt, clu := n, to_ := 0 }] } : State).balAdd n h (-(amt : Int))

/-- The message in flight that a word stands for, taken out of flight. -/
def takeMsg (op : Nat) (w : Word64) : List LMsg → Option (LMsg × List LMsg)
  | [] => none
  | m :: t =>
    if m.op == op && m.word == w then some (m, t)
    else match takeMsg op w t with
      | some (x, r) => some (x, m :: r)
      | none => none

/-! ## Division of an amount (R511) -/

/-- Shares of `amt` in proportion to weights, in the order of the list, which is ascending in cluster index: floors,
then one each in descending weight. Weights that are all zero receive nothing. -/
def divide (amt : Nat) (ws : List (Nat × Nat)) : List (Nat × Nat) :=
  let tot := sumN (ws.map (fun p => p.2))
  if tot == 0 then ws.map (fun p => (p.1, 0))
  else
    let fl := ws.map (fun p => (p.1, amt * p.2 / tot))
    let left := amt - sumN (fl.map (fun p => p.2))
    let order := (sortBy (fun a b : Nat × Nat => decide (b.2 < a.2)) ws).map (fun p => p.1)
    let extra := order.take left
    fl.map (fun p => (p.1, p.2 + b2n (extra.contains p.1)))

/-! ## Fade-in (R222) -/

/-- Increment of b_d per ns, 16 fraction bits. -/
def incOf (slope capC capD capK : Nat) : Nat :=
  if capD == 0 then 0 else slope * capC * capK * 65536 / (capD * 1000 * 256)

/-- The budgets of a cluster brought up to the present instant: nothing accrues before a prepared onset (R222), nor
while kick support stops it (11 R360). -/
def State.accrue (n : Nat) (s : State) : State :=
  let t0 := (s.cl n).led.accAt
  let burst := s.sheet.s8.burst
  let s := each (s.hs n) (fun h s =>
    let nr := s.nRun n h
    s.modHalf n h (fun x =>
      let from_ := if x.prep.on then max t0 x.prep.onset else t0
      let dt := if x.acc.frozen then 0 else s.elapsed - from_
      { x with acc := { x.acc with b := min (burst * nr * 65536) (x.acc.b + x.acc.inc * dt) } })) s
  s.modCl n (fun c => { c with led := { c.led with accAt := s.elapsed } })

/-! ## Admission (R220, R221, R229) -/

/-- Pending total of a half. -/
def State.pendSum (s : State) (n h : Nat) : Nat :=
  sumN (((s.cl n).led.pend.filter (fun p => s.reqHalf n p.1 == h)).map (fun p => p.2.amt))

/-- A BORROW when pending requests, or a reservation, find ORD short and none is outstanding (R224, R225). -/
def State.borrow (n h : Nat) (s : State) : State :=
  match s.sheet.halfDom n h with
  | none => s
  | some d =>
    let a := (s.half n h).acc
    let wait := s.holding n h
    let pend := s.pendSum n h
    -- what asks for credits now: under a held level the filler requests alone; Bh serves the requests behind a release
    let asks := if wait then
        sumN (((s.cl n).led.pend.filter (fun p => p.2.filler && s.reqHalf n p.1 == h)).map (fun p => p.2.amt))
      else pend
    let has := a.ord + a.res + (if wait then 0 else a.bh)
    let need := (if has < asks then pend - a.ord else 0) + a.short
    if need == 0 || a.borrowBy.isSome then s
    else
      let q := s.sheet.s8.lendQ
      let amt := min 65535 (cdiv need q * q)
      (s.send { up := true, op := 1, dom := d, amt, clu := n, to_ := 0 }).modHalf n h
        (fun x => { x with acc := { x.acc with borrowBy := some (s.elapsed + 256) } })

/-- One requester examined (R221): the flag says whether it was granted. -/
def State.examine (n r : Nat) (s : State) : Bool × State :=
  let l := (s.cl n).led
  match Tab.get? l.pend r, l.lowFree with
  | some pd, some slot =>
    let h := s.reqHalf n r
    let x := s.half n h
    let a0 := min pd.amt 1024
    let hold := s.holding n h
    let mayBh := hold || x.broll.freed.isSome
    let gb := if mayBh then min a0 x.acc.bh else 0
    let a1 := if hold && !pd.filler then 0 else a0 - gb
    let gr := min a1 x.acc.res
    let a2 := a1 - gr
    let y := min (min a2 x.acc.ord) (x.acc.rc + x.acc.b / 65536)
    let yr := min y x.acc.rc
    let g := gb + gr + y
    if g == 0 then (false, s)
    else
      let gen := l.gen slot
      let atRel := hold && !pd.filler
      let l1 := { l with
        grants := Tab.put l.grants slot { req := r, gen, left := g, filler := pd.filler, atRel, half := h }
        pend := if pd.amt ≤ g then Tab.del l.pend r else Tab.put l.pend r { pd with amt := pd.amt - g } }
      let l2 := l1.setHeld h (Tab.putN (l1.held h) r (Tab.getN (l1.held h) r + g))
      let s := s.modCl n (fun c => { (c.modAcc h (fun a => { a with
        bh := a.bh - gb, res := a.res - gr, ord := a.ord - y, rc := a.rc - yr, b := a.b - (y - yr) * 65536 }))
          with led := l2 })
      (true, s.put (.stationDown n r (wGrant r g slot gen pd.filler atRel (pd.amt - g))))
  | _, _ => (false, s)

/-- Requesters examined in order until `k` grants have been issued; the last one granted. -/
def State.examineAll (n : Nat) : Nat → List Nat → Option Nat → State → Option Nat × State
  | _, [], last, s => (last, s)
  | 0, _, last, s => (last, s)
  | k + 1, r :: t, last, s =>
    let q := s.examine n r
    if q.1 then State.examineAll n k t (some r) q.2 else State.examineAll n (k + 1) t last q.2

/-- Nothing is admitted: a frozen VIN dip, QUIET, loss of the Gaffer, reset, or a stopped clock. -/
def State.admitOff (s : State) (n : Nat) : Bool :=
  s.vin.frozen || (s.cl n).led.quietBy.isSome || (s.cl n).gafLost || (s.cl n).inReset.isSome ||
  (s.cl n).clock != .running

/-- Pending requesters in rotating order from the pointer. -/
def Ledger.order (l : Ledger) : List Nat :=
  let ks := l.pend.map (fun p => p.1)
  ks.filter (fun k => l.p ≤ k) ++ ks.filter (fun k => k < l.p)

/-- Grants held by a requester. -/
def Ledger.grantsOf (l : Ledger) (r : Nat) : Nat := (l.grants.filter (fun p => p.2.req == r)).length

/-- One admission round (R221), or the giving of freed slots in a slice (R229). -/
def State.round (n : Nat) (s : State) : State :=
  let s := (s.accrue n).modCl n (fun c => { c with led := { c.led with roundAt := s.elapsed } })
  if s.admitOff n then s
  else
    let l := (s.cl n).led
    let hold := s.sheet.s8.sliceHold
    let fair := l.sliced && l.pend.any (fun p => l.grantsOf p.1 < hold)
    let order := if l.sliced then
        l.order.filter (fun r => !l.served.contains r && (!fair || l.grantsOf r < hold))
      else l.order
    let before := l.pend.map (fun p => (p.1, p.2.amt))
    let q := State.examineAll n (if l.sliced then 1024 else 16) order none s
    let s := q.2
    let s := match q.1 with
      | some r => s.modCl n (fun c => { c with led := { c.led with p := (r + 1) % 256 } })
      | none => s
    let s := if l.sliced then
        let got := before.filterMap (fun p =>
          if (Tab.get? (s.cl n).led.pend p.1).map (fun x => x.amt) == some p.2 then none else some p.1)
        s.modCl n (fun c => { c with led := { c.led with served := c.led.served ++ got } })
      else s
    let s := if (s.cl n).led.grants.length == 1024 && !(s.cl n).led.sliced then
        s.modCl n (fun c => { c with led := { c.led with sliced := true, sliceAt := s.elapsed, served := [] } })
      else s
    each (s.hs n) (fun h s => s.borrow n h) s

/-! ## Requests and returns -/

/-- A word counted in BAD (R218). -/
def State.badWord (n : Nat) (s : State) : State :=
  s.modCl n (fun c => { c with led := { c.led with bad := satInc 6 c.led.bad } })

/-- A REQUEST (R220): added to what is pending, clamped to CAPACITY_d - HELD_r. -/
def State.request (n r amt : Nat) (filler : Bool) (s : State) : State :=
  let h := s.reqHalf n r
  match s.sheet.halfDom n h with
  | none => s.badWord n
  | some d =>
    let s := s.wakeClu n
    let l := (s.cl n).led
    let room := s.domCap d - Tab.getN (l.held h) r
    let old := Tab.get? l.pend r
    let want := (match old with
      | some p => p.amt
      | none => 0) + amt
    let amt' := min want room
    let pd : Pend := match old with
      | some p => { p with amt := amt', filler := p.filler && filler }
      | none => { amt := amt', filler, at_ := s.elapsed }
    s.modCl n (fun c => { c with led := { c.led with
      pend := if amt' == 0 then Tab.del c.led.pend r else Tab.put c.led.pend r pd
      clamp := if room < want then satInc 8 c.led.clamp else c.led.clamp } })

/-- Credits returned to a half (R215, R223, R231, R239): to a WITHHOLD while a debt stands, to Bh while a hold level
takes them, to ORD and the recycle allowance otherwise. -/
def State.applyReturn (n h amt : Nat) (s : State) : State :=
  match s.sheet.halfDom n h with
  | none => s
  | some d =>
    let x := s.half n h
    let w := min amt x.acc.debt
    let rest := amt - w
    -- HELD_c as it stood before this return
    let level := (s.cl n).led.heldSum h + amt + x.acc.bh
    let cap := s.balMax n h * s.nRun n h
    let toBh := if s.holding n h && !s.vin.frozen && decide (level ≤ x.broll.tc) && decide (x.acc.bh < cap) then
        min rest (cap - x.acc.bh) else 0
    let s := s.modHalf n h (fun x => { x with acc := { x.acc with
      debt := x.acc.debt - w, bh := x.acc.bh + toBh, ord := x.acc.ord + (rest - toBh),
      rc := x.acc.rc + (rest - toBh) } })
    s.sendUp 7 n h d w

/-- Slots recorded to a requester that holds nothing are freed, each counted in STALE (R232). -/
def Ledger.sweep (l : Ledger) (r : Nat) : Ledger :=
  if Tab.getN l.heldLo r == 0 && Tab.getN l.heldHi r == 0 then
    (l.grants.filter (fun p => p.2.req == r)).foldl
      (fun l p => { (l.free p.1) with stale := satInc 8 l.stale }) l
  else l

/-- A RETURN (R231, R232): accounted by amount, its handle used for bookkeeping only. -/
def State.returned (n r amt slot gen : Nat) (s : State) : State :=
  let l := (s.cl n).led
  let named := (Tab.get? l.grants slot).filter (fun g => g.req == r && g.gen == gen)
  let h0 := match named with
    | some g => g.half
    | none => s.reqHalf n r
  let h1 := 1 - h0
  let a0 := min amt (Tab.getN (l.held h0) r)
  let a1 := min (amt - a0) (Tab.getN (l.held h1) r)
  let l1 := l.setHeld h0 (Tab.putN (l.held h0) r (Tab.getN (l.held h0) r - a0))
  let l2 := l1.setHeld h1 (Tab.putN (l1.held h1) r (Tab.getN (l1.held h1) r - a1))
  let l3 := if a0 + a1 < amt then { l2 with overRet := satInc 8 l2.overRet } else l2
  let l4 := match named with
    | some g =>
      let left := g.left - min amt g.left
      if left == 0 then l3.free slot else { l3 with grants := Tab.put l3.grants slot { g with left } }
    | none => { l3 with stale := satInc 8 l3.stale }
  let s := s.modCl n (fun c => { c with led := l4.sweep r })
  let s := if a0 == 0 then s else s.applyReturn n h0 a0
  if a1 == 0 then s else s.applyReturn n h1 a1

/-- A digest accepted or dropped (06 R198): 16 to a sample, with codes of Tables 6-9 and 6-10. -/
def State.digestIn (n : Nat) (w : Word64) (s : State) : State :=
  let x := w.toNat
  let fmt := fld x 12 4
  let ok := decide (fld x 8 4 ≤ 4) && (decide (fmt ≤ 10) || fmt == 15)
  s.modCl n (fun c =>
    let p := c.pred
    if ok && decide (p.digNow < 16) then
      { c with pred := { p with digNow := p.digNow + 1, digs := p.digs ++
        [{ req := fld x 0 8, opc := fld x 8 4, fmt, tile := fld x 16 4 + fld x 20 4 + fld x 24 4, tog := fld x 28 8,
           ops := fld x 36 16, sample := c.ctl.nSample }] } }
    else { c with pred := { p with digDrop := satInc 16 p.digDrop } })

/-- A word that arrives from a station (R218): its KIND says what it is; words with an unused KIND, a reserved bit
set or an amount outside its range are counted in BAD; a cluster in reset discards every word (R234). -/
def State.upWord (n : Nat) (w : Word64) (s : State) : State :=
  let x := w.toNat
  let amt := fld x 8 11
  let okAmt := decide (1 ≤ amt) && decide (amt ≤ 1024)
  if (s.cl n).inReset.isSome then s
  else if wKind w == 0 then (if fld x 52 8 == 0 then s.digestIn n w else s.badWord n)
  else if wKind w == 1 then
    if okAmt && fld x 20 40 == 0 then s.request n (fld x 0 8) amt (bit x 19) else s.badWord n
  else if wKind w == 2 then
    if okAmt && fld x 32 28 == 0 then s.returned n (fld x 0 8) amt (fld x 19 10) (fld x 29 3) else s.badWord n
  else s.badWord n

/-! ## Resets and errors (R233, R234, R236) -/

/-- Every slot of a cluster freed, its generation advanced. -/
def Ledger.freeAll (l : Ledger) : Ledger := l.grants.foldl (fun l p => l.free p.1) l

/-- R233: what a host functional reset does to a cluster's ledger. -/
def State.reclaimHost (n : Nat) (s : State) : State :=
  let l := (s.cl n).led
  let amt := sumN ((s.hs n).map (fun h => l.heldSum h + (s.half n h).acc.bh))
  let s := each (s.hs n) (fun h s => s.modHalf n h (fun x =>
    { x with
      acc := { x.acc with ord := x.acc.ord + x.acc.res + x.acc.bh + l.heldSum h, res := 0, bh := 0, short := 0,
                          stageRes := 0, drain := false, drainFrac := 0 }
      broll := { x.broll with bal := 0, balExtra := 0, hold := false, release := none, freed := none,
                              further := [], held := false, shortN := 0 }
      prep := { x.prep with bal := vrep 16 0, balP := 0 } })) s
  let s := s.modCl n (fun c => { c with led := { l.freeAll with
    heldLo := [], heldHi := [], pend := [], fill := [], quietBy := some (s.elapsed + 256) } })
  { s with reclaim := satAdd 24 s.reclaim amt }

/-- R234: the assertion of a cluster reset reaches the stations: REVOKE for every grant. -/
def State.revokeAll (n : Nat) (s : State) : State :=
  each (s.cl n).led.grants (fun p s => s.put (.stationDown n p.2.req (wRevoke p.2.req p.1 p.2.gen))) s

/-- R234: the ledger of a cluster whose reset is released, restored from the Gaffer's record. -/
def State.restoreLedger (n : Nat) (s : State) : State :=
  let tot := sumN ((s.hs n).map (fun h => vget (vget s.bal n) h))
  let s := each (s.hs n) (fun h s =>
    let b := vget (vget s.bal n) h
    s.modHalf n h (fun x => { x with acc := { ord := b } })) s
  let s := s.modCl n (fun c => { c with led := { c.led.freeAll with
    heldLo := [], heldHi := [], pend := [], fill := [], samples := [], p := 0, fp := 0, sliced := false, served := []
    roundAt := s.elapsed, accAt := s.elapsed, quietBy := some (s.elapsed + 256), resShort := false, holdShort := false } })
  { s with reclaim := satAdd 24 s.reclaim tot }

/-- The ledger of cluster `n` for a domain is at zero: its slots are free, its accounts and holdings hold nothing, the
Gaffer's record of its balance and the messages in flight are gone, and BF makes up the pool (R236 steps 1 to 3). -/
def State.rezero (n d : Nat) (s : State) : State :=
  match s.halfOf n d with
  | none => s
  | some h =>
    let gs := (s.cl n).led.grants.filter (fun p => p.2.half == h)
    let s := s.modCl n (fun c =>
      { (c.modAcc h (fun a => { a with ord := 0, res := 0, bh := 0, debt := 0, short := 0, stageRes := 0,
                                       borrowBy := none })) with
        led := (gs.foldl (fun l p => l.free p.1) c.led).setHeld h [] })
    let s := { s with
      msgs := s.msgs.filter (fun m => !(m.dom == d && m.clu == n))
      bal := vmod s.bal n (fun v => vset v h 0) }
    let others := sumN ((s.sheet.domHalves d).map (fun p => if p.1 == n then 0 else vget (vget s.bal p.1) p.2))
    let flight := sumN ((s.msgs.filter (fun m => m.dom == d && [2, 4, 5, 7].contains m.op)).map (fun m => m.amt))
    s.modDm d (fun x => { x with bf := x.pool + x.owed - x.wh - others - flight })

/-- R236 for one domain of a cluster: accounts 0, messages in flight discarded, BF formed again. -/
def State.rederive (n d : Nat) (s : State) : State :=
  match s.halfOf n d with
  | none => s
  | some h =>
    let gs := (s.cl n).led.grants.filter (fun p => p.2.half == h)
    (each gs (fun p s => s.put (.stationDown n p.2.req (wRevoke p.2.req p.1 p.2.gen))) s).rezero n d

/-! ## FILL -/

/-- FILL with AMT 0 to every requester of a half that was asked for filler, or holds filler credits. -/
def State.fillZero (n h : Nat) (s : State) : State :=
  let l := (s.cl n).led
  let rs := (List.range 256).filter (fun r => s.reqHalf n r == h &&
    (l.fill.any (fun p => p.1 == r) || l.grants.any (fun p => p.2.filler && p.2.req == r)))
  let s := each rs (fun r s => s.put (.stationDown n r (wFill r 0))) s
  s.modCl n (fun c => { c with led := { c.led with fill := c.led.fill.filter (fun p => !rs.contains p.1) } })

/-- B-roll of a half ends while a HOLD shot is current (11 R371): filler ends, AT_REL grants become ordinary with a
RELEASE to the stations of the domain, and Bh falls into ORD. -/
def State.brollStop (n h : Nat) (s : State) : State :=
  let s := (s.fillZero n h).put (.stationsDown n h wRelease)
  let s := s.modCl n (fun c => { c with led := { c.led with
    grants := c.led.grants.map (fun p => (p.1, if p.2.half == h then { p.2 with atRel := false } else p.2)) } })
  s.modHalf n h (fun x => { x with
    acc := { x.acc with drain := true }, broll := { x.broll with held := false, shortN := 0 } })

/-- The hold of a half ends with its context's play. -/
def State.brollEnd (n h : Nat) (s : State) : State :=
  let on := (s.half n h).broll.hold && s.brollOn
  (if on then s.brollStop n h else s).modHalf n h (fun x => { x with
    broll := { x.broll with hold := false, release := none, further := [], held := false } })

/-- An uncorrectable error in a cluster's ledger (R236): every domain it serves is formed again, and one error counted. -/
def State.ledgerLost (n : Nat) (ds : List Nat) (s : State) : State :=
  let s := each ds (fun d s => s.rederive n d) s
  { s with ledgerErr := satInc 4 s.ledgerErr }

/-! ## The commands -/

/-- REQUEST: a word from a station. -/
def execRequest (n : CluIx) (w : Word64) (s : State) : Host.Outcome State Fault Refusal := .next (s.upWord n w)

/-- DIGEST: a word from a station. -/
def execDigest (n : CluIx) (w : Word64) (s : State) : Host.Outcome State Fault Refusal := .next (s.upWord n w)

/-- BORROW reaches the Gaffer (R225): GIVE from BF, CALL to the best lender for the rest. -/
def execBorrow (w : Word64) (s : State) : Host.Outcome State Fault Refusal :=
  match takeMsg 1 w s.msgs with
  | none => .next s
  | some (m, rest) =>
    let s := { s with msgs := rest }
    let g := min m.amt (s.dm m.dom).bf
    let s := (s.modDm m.dom (fun x => { x with bf := x.bf - g })).send
      { up := false, op := 2, dom := m.dom, amt := g, clu := m.clu, to_ := m.clu }
    let rem_ := m.amt - g
    let q := s.sheet.s8.lendQ
    let cand := (s.sheet.domHalves m.dom).filter (fun p => p.1 != m.clu && q < (s.half p.1 p.2).repOrd)
    let best := cand.foldl (fun (b : Option (Nat × Nat)) p => match b with
      | none => some p
      | some x => if (s.half x.1 x.2).repOrd < (s.half p.1 p.2).repOrd then some p else b) none
    .next (match best with
      | some p => s.send { up := false, op := 3, dom := m.dom, amt := rem_, clu := p.1, to_ := m.clu }
      | none => s)

/-- A GIVE that has reached its cluster (R224, R225): into ORD, and from there into RES up to a reservation's shortfall. -/
def State.giveIn (w : Word64) (s : State) : State :=
  match takeMsg 2 w s.msgs with
  | none => s
  | some (m, rest) =>
    let s := { s with msgs := rest }
    match s.halfOf m.clu m.dom with
    | none => s
    | some h =>
      let s := s.balAdd m.clu h m.amt
      s.modHalf m.clu h (fun x =>
        let k := min m.amt x.acc.short
        { x with acc := { x.acc with ord := x.acc.ord + (m.amt - k), res := x.acc.res + k, short := x.acc.short - k,
                                     borrowBy := none } })

/-- A CALL that has reached a lender (R225): LEND of min(remainder, ORD - LEND_Q). -/
def State.callIn (w : Word64) (s : State) : State :=
  match takeMsg 3 w s.msgs with
  | none => s
  | some (m, rest) =>
    let s := { s with msgs := rest }
    match s.halfOf m.clu m.dom with
    | none => s
    | some h =>
      let amt := min m.amt ((s.half m.clu h).acc.ord - s.sheet.s8.lendQ)
      if amt == 0 then s
      else
        let s := s.modHalf m.clu h (fun x => { x with acc := { x.acc with ord := x.acc.ord - amt } })
        let s := s.balAdd m.clu h (-(amt : Int))
        s.send { up := true, op := 4, dom := m.dom, amt, clu := m.clu, to_ := m.to_ }

/-- LEND reaches the Gaffer, which forwards it to the borrower as GIVE (R225). -/
def execLend (w : Word64) (s : State) : Host.Outcome State Fault Refusal :=
  match takeMsg 4 w s.msgs with
  | none => .next s
  | some (m, rest) =>
    .next ({ s with msgs := rest }.send { up := false, op := 2, dom := m.dom, amt := m.amt, clu := m.to_, to_ := m.to_ })

/-- BANK reaches the Gaffer: into BF (R216). -/
def execBank (w : Word64) (s : State) : Host.Outcome State Fault Refusal :=
  match takeMsg 5 w s.msgs with
  | none => .next s
  | some (m, rest) => .next ({ s with msgs := rest }.modDm m.dom (fun x => { x with bf := x.bf + m.amt }))

/-- A RECALL that has reached a cluster (R215): WITHHOLD of min(ORD, amount), the rest a surrender debt. -/
def State.recallIn (w : Word64) (s : State) : State :=
  match takeMsg 6 w s.msgs with
  | none => s
  | some (m, rest) =>
    let s := { s with msgs := rest }
    match s.halfOf m.clu m.dom with
    | none => s
    | some h =>
      let k := min m.amt (s.half m.clu h).acc.ord
      let s := s.modHalf m.clu h (fun x => { x with acc := { x.acc with
        ord := x.acc.ord - k, debt := x.acc.debt + (m.amt - k) } })
      s.sendUp 7 m.clu h m.dom k

/-- WITHHOLD reaches the Gaffer: a fall of the pool takes its part (02 R59), the rest is withheld (R215). -/
def execWithhold (w : Word64) (s : State) : Host.Outcome State Fault Refusal :=
  match takeMsg 7 w s.msgs with
  | none => .next s
  | some (m, rest) =>
    .next ({ s with msgs := rest }.modDm m.dom (fun x =>
      let k := min m.amt x.owed
      { x with owed := x.owed - k, wh := x.wh + (m.amt - k) }))

/-- BORROW_RETRY: 256 ns without a GIVE; the cluster may borrow again (R225). -/
def execBorrowRetry (n : CluIx) (h : HalfIx) (s : State) : Host.Outcome State Fault Refusal :=
  match (s.half n h).acc.borrowBy with
  | none => .next s
  | some t =>
    let s := s.advanceTo t
    .next ((s.modHalf n h (fun x => { x with acc := { x.acc with borrowBy := none } })).borrow n h)

/-- SLICE_BOUNDARY: the end of a waiting slice (R229); with 64 or more free slots the waiting ends. -/
def execSliceBoundary (n : CluIx) (s : State) : Host.Outcome State Fault Refusal :=
  let l := (s.cl n).led
  if l.sliced then
    let t := l.sliceAt + s.sheet.s8.slice * 32
    let s := s.advanceTo t
    .next (s.modCl n (fun c => { c with led := { c.led with
      sliced := decide (960 < c.led.grants.length), sliceAt := t, served := [] } }))
  else .next s

/-- The release instant of a half's hold (R242): RELEASE at every station of the domain, filler and AT_REL grants ordinary, p,
b_d and rc_d set to 0; Bh serves pending requests first, and BAL follows it from the next boundary. A HOLD successor that is
current already holds on. Where B-roll is not active the shot ends as one without HOLD (R238). -/
def State.brollRelease (n h : Nat) (s : State) : State :=
  if (s.half n h).broll.release.isNone || !(s.half n h).broll.hold then s
  else
    let act := s.brollOn
    let s := s.accrue n
    let s := if act then
        (each (s.hs n) (fun j s => s.put (.stationsDown n j wRelease)) s).modCl n (fun c => { c with led := { c.led with
          p := 0
          fill := c.led.fill.filter (fun p => s.reqHalf n p.1 != h)
          grants := c.led.grants.map (fun p =>
            (p.1, if p.2.half == h then { p.2 with filler := false, atRel := false } else p.2)) } })
      else if (s.half n h).broll.held then s.brollStop n h else s
    s.modHalf n h (fun x => { x with
      acc := if act then { x.acc with b := 0, rc := 0 } else x.acc
      broll := { x.broll with
        hold := !x.broll.further.isEmpty, shortN := 0, held := x.broll.held && !x.broll.further.isEmpty
        release := x.broll.further.head?.join, further := x.broll.further.drop 1
        freed := if act && x.broll.further.isEmpty then some s.elapsed else none } })

end Sys2Proof.Machine
end

