-- ==== Sys2Proof/Machine/Engine.lean ====
section
/-! DEFINITION. The arithmetic of one lane of the control engine (chapter 04): formats, the four laws, the notch,
minimum select, tracking and the limiter. Quantities in Q18.22 are integers in units of 2^-22 duty counts. -/

namespace Sys2Proof.Machine
open Sys2Proof

/-- Limits of a signed format of `w` bits, and whether they acted (R110). -/
def sat (w : Nat) (x : Int) : Int × Nat :=
  if x < -(2 ^ (w - 1) : Nat) then (-(2 ^ (w - 1) : Nat), 1)
  else if ((2 ^ (w - 1) : Nat) : Int) ≤ x then ((2 ^ (w - 1) : Nat) - 1, 1)
  else (x, 0)

/-- Division by 2^n with the one rounding of the engine: add half, shift right (R109). -/
def rshift (n : Nat) (x : Int) : Int := if n == 0 then x else (x + (2 ^ (n - 1) : Nat)).fdiv (2 ^ n : Nat)

/-- A quotient rounded as R109 rounds: halves toward positive infinity. -/
def rhalf (a : Int) (b : Nat) : Int := if b == 0 then 0 else (2 * a + b).fdiv (2 * (b : Int))

/-- One duty count in Q18.22. -/
def q22 : Int := 4194304

/-- A state as it enters a multiplier: Q14.10 (R108). -/
def tap (x : Int) : Int × Nat := sat 24 (rshift 12 x)

/-- Product of a tap and a coefficient, rounded to Q18.22. -/
def tapMul (c t : Int) : Int := rshift 10 (c * t)

/-- Integrator clamps of a set, in Q18.22 (R116). -/
def LoopCoef.clampInt (c : LoopCoef) (x : Int) : Int := clampI (c.imin * q22) (c.imax * q22) x

/-- Stages 2 and 3 of one loop without the notch (R115): the loop's state after the sample with its law output, and
the saturations met. `hold` is the limiter rule of R119. -/
def lawStep (c : LoopCoef) (hold : Bool) (e : Int) (st : LoopSt) : LoopSt × Nat :=
  let a := sat 40 (st.i + c.ki * e)
  let i := if hold then st.i else c.clampInt a.1
  let t1 := tap st.w1
  let t2 := tap st.w2
  let w := sat 40 (c.b0 * e + c.b1 * st.e1 + c.b2 * st.e2 + tapMul c.a1 t1.1 + tapMul c.a2 t2.1)
  let l := sat 40 ((i + w.1) * (2 ^ c.sh : Nat))
  ({ i, w1 := w.1, w2 := st.w1, e1 := e, e2 := st.e1, l := l.1, u := l.1 },
   (if hold then 0 else a.2) + t1.2 + t2.2 + w.2 + l.2)

/-- The notch on the voltage loop's law output (R115): its output and histories x1, x2, y1, y2. -/
def notchStep (c : LaneCoef) (l x1 x2 y1 y2 : Int) : Int × Nat :=
  let tl := tap l
  let a := tap x1
  let b := tap x2
  let p := tap y1
  let q := tap y2
  let y := sat 40 (tapMul c.n0 tl.1 + tapMul c.n1 a.1 + tapMul c.n2 b.1 + tapMul c.m1 p.1 + tapMul c.m2 q.1)
  (y.1, tl.2 + a.2 + b.2 + p.2 + q.2 + y.2)

/-- Inputs of one lane at a sample boundary. -/
structure LaneIn where
  /-- Errors of the four loops, before their 16-bit format (R111). -/
  e : List Int
  /-- Feed-forward, Q18.22 (R114), before its format. -/
  ff : Int
  /-- Trim output, 8 fraction bits (05 R148). -/
  trim : Int
  shadow : Bool
  /-- Park duty in counts while the cell is in PARK (R125). -/
  park : Option Int
  deriving DecidableEq, Repr, Inhabited

/-- A lane after stages 1 to 5. -/
structure LaneOut where
  lane : Lane
  us : List Int
  win : Nat
  uWin : Int
  duty5 : Int
  nsat : Nat
  deriving DecidableEq, Repr, Inhabited

/-- The winner of stage 4 (R117): the smallest output, ties to current limit, slope, thermal, voltage in that order;
the current limit is left out in shadow-share (R122). -/
def pickWin (us : List Int) (shadow : Bool) : Nat :=
  let order := if shadow then [2, 3, 0] else [1, 2, 3, 0]
  order.foldl (fun b j => if us.getD j 0 < us.getD b 0 then j else b) (order.headD 0)

/-- Stages 1 to 5 of one lane (R111 to R122). -/
def laneStep (c : LaneCoef) (x : LaneIn) (ln : Lane) : LaneOut :=
  let es := x.e.map (fun e => sat 16 e)
  let ff := sat 40 x.ff
  let step := fun j =>
    let e := (es.getD j (0, 0)).1
    let hold := ln.win == j && ((ln.clampHi && decide (0 < e)) || (ln.clampLo && decide (e < 0)))
    lawStep (vget c.loops j) hold e (vget ln.loops j)
  let r0 := step 0
  let r1 := step 1
  let r2 := step 2
  let r3 := step 3
  let nt := if c.notchEn then notchStep c r0.1.l ln.x1 ln.x2 ln.y1 ln.y2 else (r0.1.l, 0)
  let u0 := sat 40 (ff.1 + nt.1)
  let u1 := sat 40 (ff.1 + r1.1.l)
  let u2 := sat 40 (ff.1 + r2.1.l)
  let u3 := sat 40 (ff.1 + r3.1.l)
  let us := [u0.1, u1.1, u2.1, u3.1]
  -- in PARK every integrator takes (park duty - ff) / 2^sh - w, each step in its format (R110, R125)
  let fix := fun (j : Nat) (st : LoopSt) (u : Int) =>
    let k := vget c.loops j
    match x.park with
    | none => (({ st with u } : LoopSt), 0)
    | some d =>
      let a := sat 40 (d * q22 - ff.1)
      let b := sat 40 (rshift k.sh a.1 - st.w1)
      ({ st with u, i := k.clampInt b.1 }, a.2 + b.2)
  let f0 := fix 0 r0.1 u0.1
  let f1 := fix 1 r1.1 u1.1
  let f2 := fix 2 r2.1 u2.1
  let f3 := fix 3 r3.1 u3.1
  let ls : Vector LoopSt 4 := #v[f0.1, f1.1, f2.1, f3.1]
  let win := pickWin us x.shadow
  let uw := us.getD win 0
  let d5 := if win == 0 then sat 40 (uw + rshift 8 x.trim * q22) else (uw, 0)
  let ln1 := { ln with loops := ls, win }
  let ln2 := if c.notchEn then { ln1 with x2 := ln.x1, x1 := r0.1.l, y2 := ln.y1, y1 := nt.1 } else ln1
  { lane := ln2, us, win, uWin := uw, duty5 := d5.1
    nsat := (es.map (fun p => p.2)).foldl (· + ·) 0 + ff.2 + r0.2 + r1.2 + r2.2 + r3.2 + nt.2 +
      u0.2 + u1.2 + u2.2 + u3.2 + d5.2 + f0.2 + f1.2 + f2.2 + f3.2 }

/-- Tracking of the losing loops against an output, with the saturations met (R110, R118, R122); no integrator is touched in
PARK. -/
def track (c : LaneCoef) (o : LaneOut) (against : Int) (all : Bool) : Lane × Nat :=
  let f := fun (j : Nat) (st : LoopSt) =>
    let a := sat 40 (o.us.getD j 0 - against)
    let ex := sat 40 (a.1 - c.trkMargin * q22)
    if (all || j != o.win) && decide (0 < ex.1) then
      let k := vget c.loops j
      let i := sat 40 (st.i - rshift k.sh ex.1)
      (({ st with i := k.clampInt i.1 } : LoopSt), a.2 + ex.2 + i.2)
    else (st, 0)
  ({ o.lane with loops := vmap (fun j st => (f j st).1) o.lane.loops },
   sumN ((List.range 4).map (fun j => (f j (vget o.lane.loops j)).2)))

/-- Stage 6 (R123): the duty in counts with the clamps that acted, upper and lower. -/
def limiter (th : Thresh) (ceil : Option Nat) (d : Int) : Nat × Bool × Bool :=
  let n := rshift 22 d
  let hi := max th.dmin (min th.dmax (ceil.getD th.dmax))
  if n < 4 * (th.dmin : Int) then (4 * th.dmin, false, true)
  else if 4 * (hi : Int) < n then (4 * hi, true, false)
  else (n.toNat, false, false)

/-- A lane whose cell is not switching: integrators and histories zero (R125), trim zero (05 R149). -/
def Lane.zero (ln : Lane) : Lane :=
  { ln with loops := vrep 4 {}, x1 := 0, x2 := 0, y1 := 0, y2 := 0, win := 0, duty5 := 0, duty := 0,
            clampHi := false, clampLo := false, ovl := 0, calm := 0, mism := 0, trim := 0, winN := 0, winBad := false,
            sumV := 0, sumI := 0, sumD := 0 }

/-- Rebase of one lane at a swap (R140): whether a clamp acted, and the lane under the new bank. -/
def Lane.rebase (c : LaneCoef) (ln : Lane) : Bool × Lane :=
  let f := fun (j : Nat) (st : LoopSt) => rshift (vget c.loops j).sh st.l
  let l0 := (vget ln.loops 0).l
  let cl := (List.range 4).any (fun j =>
    let v := f j (vget ln.loops j)
    (vget c.loops j).clampInt v != v)
  (cl, { ln with
    loops := vmap (fun j st => { st with i := (vget c.loops j).clampInt (f j st), w1 := 0, w2 := 0 }) ln.loops
    x1 := l0, x2 := l0, y1 := l0, y2 := l0 })

/-- Step of r for a rate code, 1/4,096 code per 32 ns sample (R127); twice in full redundancy mode. -/
def rampStep (q : Nat) (red : Bool) : Nat := (q * 4194 + 16) / 32 * (if red then 2 else 1)

/-- Feed-forward in Q18.22 (R114). `r` is in 1/4,096 code, `iFc` in mA, `rff` in 0.1 mOhm, `vin` in microvolts. Where no cell
of the half is in RUN or BALLAST, R114 gives no divisor for I_FC, which is then not divided. DESIGN CHOICE: log entry 111. -/
def feedForward (r : Int) (iFcSum : Int) (cells : Nat) (rff vin : Nat) (trim : Int) : Int :=
  let n := max 1 cells
  -- volts times 40,960,000,000 n: 0.250 V + r x 0.25 mV / 4,096 + I x RFF
  let num := (10240000000 + 2500 * r) * n + (iFcSum * rff) * 4096
  rhalf (8192 * q22 * num) (40960 * n * vin) + trim * q22

/-- The ballast-ramp term of 05 R155 in Q18.22: 8,192 x L x 3.906 25 A/us / VIN, L in pH. -/
def ballastTerm (lcal vin : Nat) : Int := rhalf (8192 * q22 * lcal * 390625) (100000 * vin)

end Sys2Proof.Machine
end

