-- ==== Sys2Proof/Machine/Predictor.lean ====
section
/-! DEFINITION. The cluster predictor (06 R198 to R203): features, evaluation, checks and adaptation, and the forecast
of R179 that uses it. -/

namespace Sys2Proof.Machine
open Sys2Proof

/-! ## FP16 (R203): a finite value is an integer count of 2^-24 -/

/-- Value of a pattern in units of 2^-24; none for an infinity or a NaN. -/
def fp16Val (b : BitVec 16) : Option Int :=
  let e := fld b.toNat 10 5
  let f := fld b.toNat 0 10
  let m : Option Nat := if e == 31 then none else if e == 0 then some f else some ((1024 + f) * 2 ^ (e - 1))
  m.map (fun k => if b.getLsbD 15 then -(k : Int) else (k : Int))

/-- Quotient of natural numbers rounded half to even. -/
def rne (a b : Nat) : Nat :=
  let q := a / b
  let r := a % b
  if 2 * r < b then q else if b < 2 * r then q + 1 else q + q % 2

/-- A magnitude of `a` units of 2^-48 rounded half to even to FP16, in units of 2^-24; none when not finite. -/
def fp16RoundMag (a : Nat) : Option Nat :=
  if a == 0 then some 0
  else
    let u := Nat.log2 a - 34
    let k := rne a (2 ^ (24 + u)) * 2 ^ u
    if 65504 * 2 ^ 24 < k then none else some k

/-- A value of `x` units of 2^-48 rounded to FP16, in units of 2^-24. -/
def fp16Round (x : Int) : Option Int :=
  (fp16RoundMag x.natAbs).map (fun k => if x < 0 then -(k : Int) else (k : Int))

/-- The pattern of a representable value in units of 2^-24. -/
def fp16Bits (x : Int) : BitVec 16 :=
  let k := x.natAbs
  let s := if x < 0 then 2 ^ 15 else 0
  if k < 1024 then BitVec.ofNat 16 (s + k)
  else
    let e := Nat.log2 k - 10
    BitVec.ofNat 16 (s + (e + 1) * 1024 + (k / 2 ^ e - 1024))

/-- Product in FP16. -/
def fp16Mul (a b : Int) : Option Int := fp16Round (a * b)
/-- Sum in FP16. -/
def fp16Add (a b : Int) : Option Int := fp16Round ((a + b) * 2 ^ 24)
/-- An integer as FP16. -/
def fp16OfInt (n : Int) : Option Int := fp16Round (n * 2 ^ 48)

/-- Half to even of a value in units of 2^-24. -/
def fp16ToInt (x : Int) : Int := if x < 0 then -(rne x.natAbs (2 ^ 24) : Int) else (rne x.natAbs (2 ^ 24) : Int)

/-! ## Evaluation -/

/-- Saturation to -128 to 127 (R201). -/
def sat8 (x : Int) : Int := clampI (-128) 127 x

/-- One predictor of a half. -/
def PredUnit.get (p : PredUnit) (h : Nat) : Pred := if h == 0 then p.lo else p.hi
/-- One predictor of a half replaced. -/
def PredUnit.set (p : PredUnit) (h : Nat) (x : Pred) : PredUnit := if h == 0 then { p with lo := x } else { p with hi := x }
/-- Current history of a half. -/
def PredUnit.hist (p : PredUnit) (h : Nat) : List Int := if h == 0 then p.histLo else p.histHi

/-- Sense code of a channel of a cluster. -/
def State.code (s : State) (n ch : Nat) : Int := (vget (s.cl n).sense.res ch).code

/-- Sum of the sensed current of a half's cells, 4 mA. -/
def State.curSum (s : State) (n h : Nat) : Int := sumI ((s.sheet.cells n h).map (fun k => s.code n (16 + k)))

/-- VIN_MEAS of a cluster in microvolts (Table 9-2): the package VIN of the latest record while channel 32 is suspect
(09 R297). -/
def State.vinUv (s : State) (n : Nat) : Nat :=
  let sn := (s.cl n).sense
  match sn.susp.getLsbD 32, sn.vinPkg with
  | true, some mv => 1000 * mv
  | _, _ => 1000000 + 500 * (s.code n 32).toNat

/-- The context a half belongs to: the open owner of its domain. -/
def State.halfCtx (s : State) (n h : Nat) : Option Nat :=
  match s.sheet.halfDom n h with
  | some d => s.owner d
  | none => none

/-- The halves of cluster `n` whose domain context `c` owns: one predictor serves them (R199, R201). -/
def State.mates (s : State) (n c : Nat) : List Nat := (s.hs n).filter (fun h => s.halfCtx n h == some c)

/-- The features of R199 in native units, for the halves `hs` of one context; r is that of the first of them. DESIGN CHOICE:
log entry 117. -/
def State.features (s : State) (n : Nat) (hs : List Nat) (img : PredImg) (dwin : Nat) (fProf4 : Int) : List Int :=
  let c := s.cl n
  let ds := c.pred.digs.filter (fun g => hs.contains (s.reqHalf n g.req) && c.ctl.nSample < g.sample + dwin)
  let byFmt := (List.range 11).map (fun f =>
    ((sumN ((ds.filter (fun g => g.fmt == f)).map (fun g => g.ops * g.tog)) * img.fmtE.getD f 0 / 256 : Nat) : Int))
  let byOpc := [1, 2, 3, 4].map (fun o => ((sumN ((ds.filter (fun g => g.opc == o)).map (fun g => g.ops)) : Nat) : Int))
  let tiles : List (Nat × Nat) := [(0, 11), (12, 15), (16, 19), (20, 1000)]
  let byTile := tiles.map (fun t =>
    ((sumN ((ds.filter (fun g => t.1 ≤ g.tile && g.tile ≤ t.2)).map (fun g => g.ops)) : Nat) : Int))
  let past := [1, 2, 4, 8, 16, 32, 64, 128].map (fun j => sumI (hs.map (fun h => (c.pred.hist h).getD (j - 1) 0)))
  byFmt ++ byOpc ++ byTile ++ past ++
    [fProf4, ((s.vinUv n / 1000 : Nat) : Int), (((vget c.halves (hs.headD 0)).ramp.r / 4096 : Nat) : Int), c.therm.tMax, 1]

/-- Inner product of two lists. -/
def dot (a b : List Int) : Int := sumI (List.zipWith (· * ·) a b)

/-- Result of one evaluation: pred, hidden outputs, and whether the column and row checks hold (R201, R202). -/
def PredImg.eval (img : PredImg) (e : Nat) (feat : List Int) : Int × List Int × Bool :=
  let xs := (List.zipWith (fun (f : Int) (sh : Nat) => sat8 (f.fdiv ((2 ^ sh : Nat) : Int))) feat img.fsh).set 31 1
  let as_ := List.zipWith (fun (row : List Int) (b : Int) => b + dot row xs) img.w1 img.b1
  let hs := as_.map (fun a => sat8 ((max a 0).fdiv ((2 ^ img.hsh : Nat) : Int)))
  let y := img.b2 + dot img.w2 hs
  let col := sumI (List.zipWith (· - ·) as_ img.b1) == dot img.csc xs
  let row := sumI (img.w1.getD (e % 16) []) == img.csr.getD (e % 16) 0 && sumI img.w2 == img.csw
  (y.fdiv ((2 ^ img.osh : Nat) : Int), hs, col && row)

/-- Adaptation after an error `e` (R203): the predictor, and whether the update was skipped. -/
def Pred.adapt (e : Int) (hs : List Int) (p : Pred) : Pred × Bool :=
  match p.img with
  | none => (p, false)
  | some img =>
    let mue : Option Int := do
      let m ← fp16Val img.mu
      let x ← fp16OfInt e
      fp16Mul m x
    let g := fun (h : Int) => do
      let a ← mue
      let b ← fp16OfInt h
      fp16Mul a b
    let ws := List.zipWith (fun (w : BitVec 16) (h : Int) => do
      let a ← fp16Val w
      let b ← g h
      fp16Add a b) p.w hs
    if ws.all (fun w => w.isSome) then
      let w' := ws.map (fun w => fp16Bits (w.getD 0))
      let u := p.upd + 1
      if img.qint ≤ u then
        let w2 := w'.map (fun b => sat8 (fp16ToInt ((fp16Val b).getD 0)))
        ({ p with w := w', upd := 0, img := some { img with w2, csw := sumI w2 } }, false)
      else ({ p with w := w', upd := u }, false)
    else (p, true)

/-- Peak capacity of a half's present cells, mA: 64 credits per cell (R179). -/
def State.peakMa (s : State) (n h : Nat) : Int := ((s.sheet.cells n h).length * 64 * 125 : Nat)

/-- The predictor of half `h` is evaluated in this sample: once for all the halves of its context, and each of two contexts
takes every second sample (R201). -/
def State.predTurn (s : State) (n h : Nat) : Bool :=
  !(s.sheet.isSplit n && (s.halfCtx n 0).isSome && (s.halfCtx n 1).isSome && s.halfCtx n 0 != s.halfCtx n 1) ||
    (s.cl n).ctl.nSample % 2 == h

/-- The profile forecast of a half in ARMED, or its measured current, in 1/32 mA (R199, R202). -/
def State.refMa (s : State) (n h : Nat) : Int :=
  let armed := match s.halfCtx n h with
    | some c => (s.cx c).st == .armed
    | none => false
  if armed && (s.half n h).feed.armed then ((125 * (s.half n h).feed.fProf : Nat) : Int) else 128 * s.curSum n h

/-- The part of a prediction of `p`, 4 mA, that each half of the predictor's context takes as its F_pred, in 1/32 mA: all
of it for the only half; in proportion to the halves' profile forecasts, or measured currents, for two. DESIGN CHOICE: log
entry 117. -/
def State.predShare (s : State) (n : Nat) (hs : List Nat) (p : Int) (h : Nat) : Int :=
  if hs.length ≤ 1 then 128 * p
  else
    let w := fun (j : Nat) => (max 0 (s.refMa n j)).toNat
    let tot := sumN (hs.map w)
    if tot == 0 then rhalf (128 * p) hs.length else rhalf (128 * p * (w h : Nat)) tot

/-- The predictor of a context in one sample (R201 to R203), held at the first half `h` of the context in the cluster. -/
def State.predHalf (n h : Nat) (s : State) : State :=
  let p := (s.cl n).pred.get h
  match p.img, s.halfCtx n h with
  | some img, some c =>
    let hs := s.mates n c
    if hs.head? != some h then s
    else
    let meas := sumI (hs.map (fun j => s.curSum n j))
    let ref := sumI (hs.map (fun j => s.refMa n j))
    -- measurements that have come due
    let now := (s.cl n).ctl.nSample
    let due := p.due.filter (fun q => q.1 ≤ now)
    let r := due.foldl (fun (acc : Pred × Nat) q =>
      if img.adapt then
        let a := acc.1.adapt (meas - q.2.1) q.2.2
        (a.1, acc.2 + b2n a.2)
      else acc) ({ p with due := p.due.filter (fun q => now < q.1) }, 0)
    let p := r.1
    let s := s.modCl n (fun x => { x with pred := { (x.pred.set h p) with skipCnt := satAdd 8 x.pred.skipCnt r.2 } })
    if p.stop || !s.predTurn n h then s
    else
      let ev := (p.img.getD img).eval p.e (s.features n hs (p.img.getD img) (s.cx c).recd.dwin (rhalf ref 128))
      let v := ev.1 * 128
      let bound : Int := ((s.cx c).recd.pdev * 125 * 32 : Nat)
      let inRange := decide (0 ≤ v) && decide (v ≤ 32 * sumI (hs.map (fun j => s.peakMa n j))) &&
        decide (v - ref ≤ bound) && decide (ref - v ≤ bound)
      let fails := if ev.2.2 then 0 else p.fails + 1
      let stop := decide (8 ≤ fails)
      let good := ev.2.2 && inRange
      let p' := { p with
        e := p.e + 1, fails, stop, preds := [ev.1]
        due := p.due ++ [(now + (s.cx c).recd.ph, ev.1, ev.2.1)] }
      let s := s.modCl n (fun x => { x with pred := { (x.pred.set h p') with
        csumCnt := if ev.2.2 then x.pred.csumCnt else satInc 8 x.pred.csumCnt
        rangeCnt := if inRange then x.pred.rangeCnt else satInc 8 x.pred.rangeCnt } })
      let old := s
      let s := each hs (fun j s => s.modHalf n j (fun x => { x with feed := { x.feed with
        fPred := if good then old.predShare n hs ev.1 j else old.refMa n j } })) s
      let s := if ev.2.2 then s else s.raise 0x024 (.unit (uClu n)) c
      if stop then s.raise 0x025 (.unit (uClu n)) c else s
  | _, _ => s

/-- The predictor that serves a half runs. -/
def State.predOn (s : State) (n h : Nat) : Bool :=
  match s.halfCtx n h with
  | some c =>
    let p := (s.cl n).pred.get ((s.mates n c).headD h)
    p.img.isSome && !p.stop
  | none => false

/-- The forecast of each half (R172, R179): profile and predictor in ARMED, measured current for the profile behind an
offline channel (R205); predictor, or measured current, elsewhere; clamped to the peak capacity and the clamp counted. -/
def State.forecastHalf (n h : Nat) (s : State) : State :=
  let x := s.half n h
  let meas := s.curSum n h * 4
  let armed := x.feed.armed
  let cut := s.chanOff n && (match s.halfCtx n h with
    | some c => (s.cx c).st == .armed
    | none => false)
  let f : Int := if armed || cut then
      let fp : Int := if armed then ((125 * x.feed.fProf : Nat) : Int) else 32 * meas
      let pr : Int := if s.predOn n h then x.feed.fPred else fp
      rhalf (fp * (8 - x.feed.pbl) + pr * x.feed.pbl) 256
    else if s.predOn n h then rhalf x.feed.fPred 32 else meas
  let f' := clampI 0 (s.peakMa n h) f
  let s := s.modHalf n h (fun x => { x with feed := { x.feed with forecast := f' } })
  if (armed || cut) && f' != f then
    s.modCl n (fun c => { c with pred := { c.pred with fcClamp := satInc 8 c.pred.fcClamp } })
  else s

/-- The predictor's part of one sample: evaluation, forecast, and the history of measured current (R199). -/
def State.predict (n : Nat) (s : State) : State :=
  let s := each (s.hs n) (fun h s => s.predHalf n h) s
  let lo := s.curSum n 0
  let hi := s.curSum n 1
  s.modCl n (fun c => { c with pred := { c.pred with
    histLo := (lo :: c.pred.histLo).take 128, histHi := (hi :: c.pred.histHi).take 128
    digs := c.pred.digs.filter (fun g => c.ctl.nSample < g.sample + 15), digNow := 0 } })

end Sys2Proof.Machine
end

