-- ==== Sys2Proof/Machine/Control.lean ====
section
/-! DEFINITION. The control sample of a cluster (chapters 04 and 05): set-point changes and ramps, the levels of
preparation and B-roll, the sixteen lanes, the command words, and what the cluster keeps of each sample. -/

namespace Sys2Proof.Machine
open Sys2Proof

/-! ## Parts of a set-point or switching command (04 R513) -/

/-- The result of a completed set-point command: the highest target in force among its domains (Table 13-5). -/
def State.tgtResult (s : State) (ds : List Nat) : Nat := maxN (ds.map s.tgtInForce)

/-- The part of a command in domain `d` (in cluster `d` of a SWAP_BANK) ends; the command completes when every part has
ended, with the first status that is not DONE in address order. SET_TARGET and RAMP report the target, or the failing
domain of a group; SWAP_BANK the first failing cluster (13 Table 13-5). -/
def State.endPart (slot d : Nat) (st : Status) (s : State) : State :=
  match s.cmd? slot with
  | none => s
  | some c =>
    if !c.parts.contains d then s
    else
      let parts := c.parts.filter (fun x => x != d)
      let ends := sortBy (fun a b : Nat × Status => decide (a.1 < b.1)) (c.ends ++ [(d, st)])
      let s := s.modCmd slot (fun c => { c with parts, ends })
      if parts.isEmpty then
        let setp := c.opc == 2 || c.opc == 3
        match ends.find? (fun p => p.2 != .done) with
        | none => s.complete slot .done (if setp then s.tgtResult (ends.map (fun p => p.1)) else 0)
        | some p =>
          let group := c.unit < 0x040
          s.complete slot p.2 (if setp && group then uDom p.1 * 2 ^ 32
            else if c.opc == 6 || c.opc == 7 then p.1 * 2 ^ 8 + ((c.fails.find? (fun f => f.1 == p.1)).map (fun f => f.2)).getD 0
            else 0)
      else s

/-- A part ends with a failure that gives RESULT a code of its own. -/
def State.endPartWith (slot d : Nat) (st : Status) (code : Nat) (s : State) : State :=
  (s.modCmd slot (fun c => { c with fails := c.fails ++ [(d, code)] })).endPart slot d st

/-- Every part of a command that is not ended ends with a status. -/
def State.endParts (slot : Nat) (st : Status) (s : State) : State :=
  match s.cmd? slot with
  | none => s
  | some c => each c.parts (fun d s => s.endPart slot d st) s

/-! ## Set-point changes and ramps (R126 to R133, R509) -/

/-- A half's set-point change placed: it takes effect at the cluster's next sample boundary. -/
def State.placeChange (n h : Nat) (ch : Change) (s : State) : State :=
  s.modHalf n h (fun x => { x with ramp := { x.ramp with chg := x.ramp.chg ++ [ch] } })

/-- A set-point change placed in every half that serves a domain. -/
def State.placeDom (d : Nat) (ch : Change) (s : State) : State :=
  each (s.sheet.domHalves d) (fun p s => s.placeChange p.1 p.2 ch) s

/-- Mean of codes in 1/4,096 code; none of an empty list. -/
def meanCode (l : List Int) : Option Nat :=
  if l.isEmpty then none else some (rhalf (4096 * sumI l) l.length).toNat

/-- Start value of r (R128, R509): the mean of the cells in RUN, BALLAST or START, or of the cells in PARK. -/
def State.rStart (s : State) (n h : Nat) : Option Nat :=
  let cs := s.sheet.cells n h
  let vs := fun (p : CellState → Bool) => (cs.filter (fun k => p (s.cell n k).st)).map (fun k => s.code n k)
  match meanCode (vs (fun st => st.running || st == .start)) with
  | some r => some r
  | none => meanCode (vs (fun st => st == .park))

/-- A command that supersedes another waits for the other's record (13 R416). -/
def State.supersedes (old : Nat) (new : Option Nat) (s : State) : State :=
  match new, s.cmd? old with
  | some q, some c => if q == old then s else
      s.modCmd q (fun x => { x with holdFor := (c.gen * 512 + old) :: x.holdFor })
  | _, _ => s

/-- One change takes effect at this boundary (R128, R129, R509). In a cluster none of whose cells of the domain switches, r and
the target take the code at once, also where another cluster has running cells of the domain, for which neither R128 nor
R509 gives a start value here. DEDUCED: log entry 112. -/
def State.applyChange (n h : Nat) (ch : Change) (s : State) : State :=
  match s.sheet.halfDom n h with
  | none => s
  | some d =>
    let rp := (s.half n h).ramp
    let s := match rp.cmd with
      | some q => (s.supersedes q ch.cmd).endPart q d .superseded
      | none => s
    let s := s.modDm d (fun x => { x with tgt := ch.tgt, rate := ch.rate, cmd := ch.cmd })
    let t := s.tgtInForce d
    let step := rampStep ch.rate (s.redMode n)
    match if ch.stop then none else (s.rStart n h).map (fun r => if rp.cmd.isSome then rp.r else r) with
    | some r =>
      s.modHalf n h (fun x => { x with ramp := { x.ramp with
        r, tgt := t, step, cmd := ch.cmd, settled := 0, done := false
        reachedAt := if r == t * 4096 then some s.elapsed else none } })
    | none =>
      -- no cell of the half switches: r and the target take the code at once (R509)
      let s := s.modHalf n h (fun x => { x with ramp := { x.ramp with
        r := t * 4096, tgt := t, step, cmd := none, settled := 4, done := true, reachedAt := some s.elapsed } })
      match ch.cmd with
      | some q =>
        if (s.sheet.domHalves d).all (fun p => (s.half p.1 p.2).ramp.cmd.isNone && (s.half p.1 p.2).ramp.chg.isEmpty ||
            (p.1 == n && p.2 == h)) then
          (s.endPart q d .done).modDm d (fun x => { x with cmd := none })
        else s
      | none => s

/-- Every change that waits in a half: shots first, then commands in arrival order (01 R18); whether any took
effect. -/
def State.applyChanges (n h : Nat) (s : State) : Bool × State :=
  let l := (s.half n h).ramp.chg
  let s := s.modHalf n h (fun x => { x with ramp := { x.ramp with chg := [] } })
  let l' := l.filter (fun c => c.shot) ++ l.filter (fun c => !c.shot)
  (!l.isEmpty, each l' (fun c s => s.applyChange n h c) s)

/-- r moves one step toward the target; at the target a pending command counts settled samples (R128 to R131). -/
def State.moveRamp (n h : Nat) (s : State) : State :=
  let win := s.sheet.s2.settleWin
  let near := (s.sheet.cells n h).all (fun k => !(s.cell n k).st.running ||
    ((s.code n k - (s.half n h).ramp.tgt).natAbs ≤ win))
  s.modHalf n h (fun x =>
    let p := x.ramp
    let t := p.tgt * 4096
    let ramp :=
      if p.r < t then
        let r := min (p.r + p.step) t
        { p with r, settled := 0, reachedAt := if r == t then some s.elapsed else none }
      else if t < p.r then
        let r := max (p.r - p.step) t
        { p with r, settled := 0, reachedAt := if r == t then some s.elapsed else none }
      else
        let n := if near then min 4 (p.settled + 1) else 0
        { p with reachedAt := some (p.reachedAt.getD s.elapsed), settled := n, done := p.done || n == 4 }
    { x with ramp })

/-! ## Preparation levels (05 R155 to R158) -/

/-- s of R155: the SLEW_SHOT step, 1/4,096 code per sample. -/
def State.shotStep (s : State) (n : Nat) : Nat := rampStep s.sheet.s2.slewShot (s.redMode n)

/-- n_lead of R155 for a ballast target and a headroom target in codes. -/
def State.leadFor (s : State) (n balP hMax : Nat) : Nat := max balP (cdiv (hMax * 4096) (max 1 (s.shotStep n))) + 2

/-- A preparation in hand waits for the boundary that R155 gives for its onset: a cue has moved the onset later
(06 R190). -/
def State.prepWaits (s : State) (n : Nat) (p : Prep) : Bool :=
  let per := if s.redMode n then 64 else 32
  p.on && !p.withdrawn && decide (s.elapsed < (p.onset - s.leadFor n p.balP (p.hMax / 4096) * per) / per * per)

/-- The preparation ballast that lane `k` makes for: BAL_P in a prepared cell, none once the preparation is over; a cue that
has moved the onset later holds it. -/
def Prep.balTgt (p : Prep) (wait : Bool) (k : Nat) : Nat :=
  if wait then vget p.bal k else if p.on && !p.withdrawn && p.cells.getLsbD k then p.balP else 0

/-- BAL and h of a preparation move by one sample. Kicks since it began are the swaps of their cells, which are sent no
preparation ballast from now on (R157); the BAL of the others moves by one count, and h by one step (R155, R158, R510). -/
def State.movePrep (n h : Nat) (s : State) : State :=
  let s := s.accrue n
  let p := (s.half n h).prep
  let kicked := (s.sheet.cells n h).filter (fun k =>
    !p.new && bit p.cells.toNat k && decide (0 < (s.cell n k).fast.nKick))
  let sw := kicked.foldl (fun (m : BitVec 16) k => m ||| BitVec.ofNat 16 (2 ^ k)) p.swapped
  let wait := s.prepWaits n p
  let bal : Vector Nat 16 := vmap (fun k b =>
    let tgt := p.balTgt wait k
    if sw.getLsbD k then 0 else if b < tgt then b + 1 else if tgt < b then b - 1 else b) p.bal
  let st := s.shotStep n
  let lower := match p.lowerAt with
    | some t => decide (t ≤ s.elapsed)
    | none => false
  let p := if lower then { p with support := false, lowerAt := none, falling := true } else p
  let hh := if p.falling then p.h - st
    else if (p.on && !wait) || p.support then (if p.hMax < p.h then max p.hMax (p.h - st) else min p.hMax (p.h + st))
    else p.h
  let all := p.on && sw == p.cells && p.cells != 0
  let none_ := bal.toList.all (fun b => b == 0)
  s.modHalf n h (fun x => { x with prep := { p with
    bal, h := hh, swapped := sw, new := false, on := p.on && !all
    falling := p.falling && hh != 0, withdrawn := p.withdrawn && !none_ } })

/-- Sign of the ballast-ramp term of lane `k`: the BAL sent in this sample is still on its way up or down (R155, R158,
Table 5-3); a lane that has made its swap has none. -/
def State.balSign (s : State) (n h k : Nat) : Int :=
  let p := (s.half n h).prep
  let b := vget p.bal k
  let tgt := p.balTgt (s.prepWaits n p) k
  if p.swapped.getLsbD k then 0 else if b < tgt then 1 else if tgt < b then -1 else 0

/-- A preparation withdrawn (R158): BAL and h fall from the next boundary, what remains of RES returns to ORD, and
accrual resumes (07 R222, R224). -/
def State.withdraw (n h : Nat) (s : State) : State :=
  (s.accrue n).modHalf n h (fun x =>
    if x.prep.key.isSome then
      { x with
        prep := { x.prep with on := false, withdrawn := true, falling := true, support := false,
                              key := none, gone := x.prep.key }
        acc := { x.acc with ord := x.acc.ord + x.acc.res, res := 0, short := 0 } }
    else x)

/-! ## B-roll levels (07 R239, R240, R242) -/

/-- The held level of a half in one sample: B-roll that has become inactive ends the hold (R238, 11 R371), Bh moves toward the
level, BAL follows, HOLD_SHORT is judged. A cluster without the Gaffer holds no level (R235). -/
def State.moveBroll (n h : Nat) (s : State) : State :=
  let s := s.accrue n
  let on := s.holding n h
  let s := if (s.half n h).broll.held && !on && !(s.cl n).gafLost then s.brollStop n h else s
  let l := (s.cl n).led
  let x := s.half n h
  let held := l.heldSum h
  let nr := s.nRun n h
  let cap := s.balMax n h * nr
  let slopeRate := match s.sheet.halfDom n h with
    | some d => incOf (s.dm d).slope (s.halfCap n h) (s.domCap d) 256
    | none => 0
  let acc := x.acc
  let acc := if on && !s.vin.frozen then
      let level := held + acc.bh
      if level < x.broll.tc then
        let k := min (min (x.broll.tc - level) (cap - acc.bh)) (min acc.ord (acc.b / 65536))
        { acc with bh := acc.bh + k, ord := acc.ord - k, b := acc.b - k * 65536, drain := false }
      else
        let k := min acc.bh (level - x.broll.tc)
        { acc with bh := acc.bh - k, ord := acc.ord + k, drain := false }
    else acc
  -- the fall of Bh into ORD at SLOPE x CAP_c / CAPACITY_d (R235, R242, 11 R371)
  let per := if s.redMode n then 64 else 32
  let stepW := max 1 (fld (s.cl n).cfg.prep.toNat 7 8)
  let startDrain := match x.broll.freed with
    | some t => !x.broll.hold && decide (t + stepW * per ≤ s.elapsed)
    | none => false
  let acc := if startDrain then { acc with drain := true } else acc
  let acc := if acc.drain then
      let f := acc.drainFrac + slopeRate * per
      let k := min acc.bh (f / 65536)
      { acc with bh := acc.bh - k, ord := acc.ord + k, drainFrac := f % 65536, drain := decide (k < acc.bh) }
    else acc
  let short := if on && held + acc.bh < x.broll.tc then x.broll.shortN + 1 else 0
  let b' := acc.bh + l.atRelHeld h
  let tgtBal := if nr == 0 then 0 else b' / nr
  -- after a dip BAL rises by one count per sample (11 R346)
  let resume := x.broll.resume && x.broll.bal < tgtBal
  let bal := if s.vin.frozen then 0
    else if resume then x.broll.bal + 1 else tgtBal
  let s := s.modHalf n h (fun x => { x with
    acc
    broll := { x.broll with bal, balExtra := if nr == 0 || resume then 0 else b' % nr, resume, shortN := short, held := on
                            freed := if startDrain then none else x.broll.freed } })
  s.modCl n (fun c => { c with led := { c.led with
    holdShort := c.halves.toList.any (fun x => decide (4 ≤ x.broll.shortN)) } })

/-- Filler work asked for and ended (R240). -/
def State.moveFill (n h : Nat) (s : State) : State :=
  if !s.holding n h || s.vin.dip || s.admitOff n then s
  else
    let l := (s.cl n).led
    let x := s.half n h
    let q := s.sheet.s8.fillQ
    let real := l.heldSum h - l.fillerHeld h - l.atRelHeld h
    let g := x.broll.tc - real - s.balMax n h * s.nRun n h
    let mine := l.fill.filter (fun p => s.reqHalf n p.1 == h)
    let asked := sumN (mine.map (fun p => p.2))
    if asked < g then
      let free := ((List.range 256).map (fun j => (l.fp + j) % 256)).filter (fun r =>
        s.reqHalf n r == h && !l.grants.any (fun p => p.2.req == r) && !l.fill.any (fun p => p.1 == r))
      let pick := free.take (cdiv (g - asked) q)
      let s := each pick (fun r s => s.put (.stationDown n r (wFill r q))) s
      s.modCl n (fun c => { c with led := { c.led with
        fill := (pick.map (fun r => (r, q))).reverse ++ c.led.fill
        fp := match pick.getLast? with
          | some r => (r + 1) % 256
          | none => c.led.fp } })
    else if g + q ≤ asked then
      let drop := (mine.take ((asked - g) / q)).map (fun p => p.1)
      let s := each drop (fun r s => s.put (.stationDown n r (wFill r 0))) s
      s.modCl n (fun c => { c with led := { c.led with fill := c.led.fill.filter (fun p => !drop.contains p.1) } })
    else s

/-! ## The lanes (04 R111 to R125, 05 R148, R168) -/

/-- The current channel of lane `k` may be used for sharing: neither marked suspect nor confirmed faulty. -/
def Cluster.iGood (c : Cluster) (k : Nat) : Bool :=
  !c.sense.susp.getLsbD (16 + k) && !(vget c.ctl.lanes k).iSusp

/-- The contributing lanes of a half (05 R148): running, not in shadow-share, current channel not suspect. -/
def State.contrib (s : State) (n h : Nat) : List Nat :=
  (s.sheet.cells n h).filter (fun k =>
    (s.cell n k).st.running && !(vget (s.cl n).ctl.lanes k).shadow && (s.cl n).iGood k)

/-- Voltage of lane `k` in codes, substituted by the mean of the other contributing lanes (05 R165). -/
def State.laneV (s : State) (n h k : Nat) : Int :=
  if (vget (s.cl n).ctl.lanes k).vSub then
    let o := (s.contrib n h).filter (fun j => j != k)
    if o.isEmpty then s.code n k else rhalf (sumI (o.map (fun j => s.code n j))) o.length
  else s.code n k

/-- Trims of a half after the share stage (05 R148), given the winners of this sample: t_k with 8 fraction bits. -/
def State.shareTrim (s : State) (n h k : Nat) (win : Nat) : Int :=
  let c := s.cl n
  let ln := vget c.ctl.lanes k
  let lim : Int := (256 * max 1 (fld c.cfg.shr.toNat 16 8) : Nat)
  let g : Int := (fld c.cfg.shr.toNat 0 8 : Nat)
  let con := s.contrib n h
  if 2 ≤ con.length && con.contains k && win == 0 then
    let sum := sumI (con.map (fun j => s.code n (16 + j)))
    clampI (-lim) lim (ln.trim + rhalf ((sum - con.length * s.code n (16 + k)) * g) con.length)
  else ln.trim

/-- r + h clamped to VMAX (05 R156), 1/4,096 code. -/
def State.refH (s : State) (n h : Nat) : Nat :=
  let x := s.half n h
  let vmax := match (s.sheet.halfDom n h).bind s.sheet.domRec with
    | some r => r.vmax
    | none => 3800
  min (x.ramp.r + x.prep.h) (max x.ramp.r (vmax * 4096))

/-- The thermal errors of a cluster's lanes, formed when a thermal sample arrives and held until the next (R113). -/
def State.thErrs (n : Nat) (s : State) : State :=
  s.modCl n (fun c =>
    let lim := (s.sheet.s4.ovr.find? (fun p => p.1.getLsbD n)).map (fun p => p.2)
    let thr : Int := (lim.getD s.sheet.s4.base).thr
    let err := fun (k : Nat) =>
      if c.therm.allBad then 0 else 16 * thr + 4 * (vget c.ctl.active.lanes k).thOffset - c.therm.tMax
    { c with ctl := { c.ctl with lanes := vmap (fun k (l : Lane) => { l with thErr := err k }) c.ctl.lanes } })

/-- Inputs of lane `k` at this boundary; `bt` is the ballast-ramp term. -/
def State.laneIn (s : State) (n h k : Nat) (bt : Int) : LaneIn :=
  let c := s.cl n
  let x := vget c.halves h
  let cell := s.cell n k
  let ln := vget c.ctl.lanes k
  let lc := vget c.ctl.active.lanes k
  let vin := s.vinUv n
  let rec_ := s.sheet.halfDom n h
  let rh : Int := (s.refH n h : Nat)
  let v := s.laneV n h k
  -- a soft start is one under the rules for START (03 R80)
  let start := cell.st == .start || cell.softStart && cell.st.running
  let e0 := if start then rhalf (cell.refUv - (250000 + 250 * v)) 250 else rhalf (rh - 4096 * v) 4096
  let i := s.code n (16 + k)
  let per := if s.redMode n then 64 else 32
  -- the overload time of R112 with the present sample in it: log entry 110
  let cl := if (if 1250 < i then ln.ovl + 1 else 0) * per < lc.clTime * 1000 then lc.clPeak else lc.clCont
  let e1 := rhalf ((cl * 125 : Nat) : Int) 4 - i
  let capC := s.halfCap n h
  let capD : Nat := match rec_ with
    | some d => s.domCap d
    | none => 0
  let dS := s.curSum n h - x.hist.getD 3 0
  let slope := match rec_ with
    | some d => (s.dm d).slope
    | none => 0
  let e2 := if capD == 0 then Config.freeInt (s.freeCtr + k)
    else rhalf (4 * ((slope * lc.slMult * capC * (s.chan n).capK : Nat) : Int) - dS * ((256 * capD : Nat) : Int)) (1024 * capD)
  let ff := if start then
      -- r is the cell-reported reference, in 1/4,096 code
      feedForward (rhalf (((cell.refUv : Int) - 250000) * 4096) 250) 0 1 lc.rff vin x.feed.fft
    else feedForward rh x.feed.forecast (s.nRun n h) lc.rff vin x.feed.fft
  { e := [e0, e1, e2, ln.thErr]
    ff := ff + bt
    trim := 0
    shadow := ln.shadow
    park := if cell.st == .park then some (cell.parkDuty : Int) else none }

/-- The trim output of lane `k` (05 R148): the domain offset counts as zero while BUS_EN is 0 (05 R151). -/
def State.trimOut (s : State) (n h : Nat) (t : Int) : Int :=
  let lim : Int := (256 * max 1 (fld (s.cl n).cfg.shr.toNat 16 8) : Nat)
  clampI (-lim) lim (t + (if bit (s.cl n).cfg.shr.toNat 24 then (s.half n h).offs else 0))

/-- Stages 1 to 5 of a lane: the winner is found first, the share stage moves the trim, stage 5 adds it. For a lane in
shadow-share whose cell is in START or PARK both sentences of 05 R149 apply; its trim is held. DESIGN CHOICE: log
entry 114. -/
def State.lane15 (s : State) (n h k : Nat) (bt : Int) : LaneOut :=
  let c := s.cl n
  let lc := vget c.ctl.active.lanes k
  let ln := vget c.ctl.lanes k
  let x := s.laneIn n h k bt
  let o := laneStep lc x ln
  let t := if (s.cell n k).st.running then s.shareTrim n h k o.win else if ln.shadow then ln.trim else 0
  let o' := laneStep lc { x with trim := s.trimOut n h t } ln
  { o' with lane := { o'.lane with trim := t } }

/-- The shadow duty (05 R168): the mean stage 5 duty of the contributing lanes, in Q18.22. -/
def shadowDuty (os : List (Nat × LaneOut)) (con : List Nat) : Int :=
  let ds := (os.filter (fun p => con.contains p.1)).map (fun p => p.2.duty5)
  if ds.isEmpty then 0 else rhalf (sumI ds) (ds.length * 4194304) * q22

/-- The MODE the cluster sends a cell (04 R125, 11 R350 to R361): none before bring-up step 7. -/
def State.wantMode (s : State) (n h k bal : Nat) : Option CellMode :=
  match s.sheet.halfDom n h with
  | none => none
  | some d =>
    let c := s.cell n k
    let ln := vget (s.cl n).ctl.lanes k
    let dm := s.dm d
    if s.boot.step < 7 then none
    else if dm.modeOff then some .off
    else if ln.redPark || ln.shParked || s.pins.park then (if c.st.switching then some .park else some .idle)
    else if dm.on then
      match c.st with
      | .idle => if s.trip then some .idle else some .start
      | .start => some .start
      | .run | .ballast => some (if bal == 0 then .run else .ballast)
      | .park => some .run
      | _ => some .idle
    else if c.st.switching then some .park else some .idle

/-- Ballast counts a lane is sent: B-roll's, and the preparation's while the cell has not made its swap (05 R157,
R160). -/
def State.laneBal (s : State) (n h k : Nat) : Nat :=
  let x := s.half n h
  let run := (s.sheet.cells n h).filter (fun j => (s.cell n j).st.running)
  let extra := match run.idxOf? k with
    | some i => b2n (decide (i < x.broll.balExtra))
    | none => 0
  let prep := vget x.prep.bal k
  if s.vin.frozen then 0 else min (s.balMax n h) (x.broll.bal + extra + prep)

/-- A lane after stage 6: its state, the duty of its word, a redundancy mismatch, and the saturations of tracking. -/
structure Lane6 where
  lane : Lane
  duty : Nat
  mism : Bool
  nsat : Nat
  deriving DecidableEq, Repr

/-- Stage 6 and the command word of one lane (R122, R123, R125, R144): in START the duty is never below the hold duty for the
present VOUT and VIN (03 R82). -/
def State.lane6 (s : State) (n k : Nat) (o : LaneOut) (sh : Int) (mism : Bool) : Lane6 :=
  let c := s.cl n
  let lc := vget c.ctl.active.lanes k
  let cell := s.cell n k
  let old := vget c.ctl.lanes k
  let d := (if old.shadow then sh else o.duty5) + s.dither n k * 4194304
  let lm := limiter (s.cellTh n k) (s.half n (s.sheet.cellHalf n k)).dutyCeil d
  let du := if cell.st == .start || cell.softStart then max lm.1 (holdDutyOf (uvOf (s.code n k).toNat) (s.vinUv n)) else lm.1
  let tr := if cell.st == .park then (o.lane, 0) else track lc o (if old.shadow then sh else o.uWin) old.shadow
  let i := s.code n (16 + k)
  let ln := { tr.1 with
    duty := du, duty5 := o.duty5, clampHi := lm.2.1, clampLo := lm.2.2
    ovl := if 1250 < i then old.ovl + 1 else 0
    calm := if cell.st.running && o.win == 0 &&
        decide ((vget o.lane.loops 0).e1.natAbs ≤ s.sheet.s2.swapErr) then old.calm + 1 else 0
    mism := 0 }
  if mism then
    { lane := { old with mism := old.mism + 1, redPark := old.redPark || decide (3 ≤ old.mism + 1) }, duty := old.duty
      mism := true, nsat := tr.2 }
  else { lane := ln, duty := du, mism := false, nsat := tr.2 }

/-- A lane after its sample, for a cell that switches or not. -/
def State.laneAll (s : State) (n k : Nat) (os : List (Nat × LaneOut)) (sh : Int) (mism : BitVec 16) :
    Lane6 :=
  match os.find? (fun p => p.1 == k) with
  | some p => s.lane6 n k p.2 sh (s.redMode n && mism.getLsbD k)
  | none => { lane := (vget (s.cl n).ctl.lanes k).zero, duty := 0, mism := false, nsat := 0 }

/-- The window sums of the continuity monitor after a sample or frame (05 R163): `fresh` begins a window, `d` is the
duty applied in it, `bad` marks a disturbance. -/
def Lane.window (fresh : Bool) (v i d : Int) (run bad : Bool) (ln : Lane) : Lane :=
  if run then
    { ln with
      sumV := (if fresh then 0 else ln.sumV) + v, sumI := (if fresh then 0 else ln.sumI) + i
      sumD := (if fresh then 0 else ln.sumD) + d
      winN := (if fresh then 0 else ln.winN) + 1, winBad := (if fresh then false else ln.winBad) || bad }
  else { ln with sumV := 0, sumI := 0, sumD := 0, winN := 0, winBad := false }

/-- Samples or frames a window of the continuity monitor takes. -/
def winLen : Nat := 16

/-- One more sample or frame in the cluster's window. -/
def Cluster.winStep (c : Cluster) : Cluster := { c with winAt := if winLen ≤ c.winAt then 1 else c.winAt + 1 }

/-- One half of a cluster in one sample, once its ramp, preparation and B-roll have moved: lanes and words; `lcal` is the
mean L_CAL of its running cells. In full redundancy mode both evaluations count their saturations; they are taken as alike,
also where the lane's results disagree. DESIGN CHOICE: log entry 113. -/
def State.sampleHalf (n h : Nat) (lcal : Nat) (moving : Bool) (mism : BitVec 16) (s : State) : State :=
  let cells := s.sheet.cells n h
  let live := cells.filter (fun k => (s.cell n k).st.switching)
  let term := ballastTerm lcal (s.vinUv n)
  let os := live.map (fun k => (k, s.lane15 n h k (s.balSign n h k * term)))
  let sh := shadowDuty os (s.contrib n h)
  let vref := rshift 12 ((s.refH n h : Nat) : Int)
  let res := cells.map (fun k => (k, s.laneAll n k os sh mism))
  let words := cells.filterMap (fun k =>
    let bal := s.laneBal n h k
    (s.wantMode n h k bal).map (fun m =>
      let du := ((res.find? (fun p => p.1 == k)).map (fun p => p.2.duty)).getD 0
      (k, bal, mkCellWord {
        duty := du / 4, frac := du % 4, vref := vref.toNat % 4096, mode := m, bal := bal
        shadow := (vget (s.cl n).ctl.lanes k).shadow, flt := decide (2 ≤ s.unitFault (uCell n k)) })))
  let nsat := (sumN (os.map (fun p => p.2.nsat)) + sumN (res.map (fun p => p.2.nsat))) * (if s.redMode n then 2 else 1)
  let s1 := s.modCl n (fun c => { c with ctl := { c.ctl with
    satCnt := satAdd 16 c.ctl.satCnt nsat
    lanes := vmap (fun k ln =>
      match res.find? (fun p => p.1 == k) with
      | some p =>
        let cell := vget c.cells k
        let balChg := match words.find? (fun w => w.1 == k) with
          | some w => w.2.1 != cell.bal
          | none => false
        let bad := moving || balChg || decide (0 < cell.fast.nKick + cell.fast.nTrunc + cell.fast.nShunt)
        Lane.window (decide (winLen ≤ c.winAt)) (s.laneV n h k) (s.code n (16 + k)) (vget (s.cl n).ctl.lanes k).duty
          cell.st.running bad p.2.lane
      | none => ln) c.ctl.lanes } })
  let s2 := each words (fun w s => s.put (.cellWord n w.1 w.2.2)) s1
  -- redundancy mismatches (R144)
  let bad := res.filter (fun p => p.2.mism)
  let s3 := if bad.isEmpty then s2 else
    s2.modCl n (fun c => { c with ctl := { c.ctl with redMism := true, mismCnt := satAdd 8 c.ctl.mismCnt bad.length } })
  let s4 := each bad (fun p s => s.raise 0x00A (.unit (uCell n p.1)) 0) s3
  let s5 := each (bad.filter (fun p => p.2.lane.redPark && !(vget (s.cl n).ctl.lanes p.1).redPark))
    (fun p s => s.raise 0x00B (.unit (uCell n p.1)) 0) s4
  -- what the half keeps of the sample (05 R150, 10 R333, R335, 14 Table 14-6)
  let con := s.contrib n h
  let conSum := sumI (con.map (fun k => s.code n (16 + k)))
  let mean := if con.isEmpty then 0 else rhalf conSum con.length
  let mul := if s.redMode n then 2 else 1
  let eOf := fun (k : Nat) =>
    let i := if (vget (s.cl n).ctl.lanes k).shadow then mean else s.code n (16 + k)
    (max 0 (rhalf ((1000 + s.laneV n h k) * i * 32768) 15625)).toNat * mul
  let run := cells.filter (fun k => (s.cell n k).st.running)
  let vs := run.map (fun k => s.code n k)
  let s6 := s5.modCl n (fun c => { c with ctl := { c.ctl with
    lanes := vmap (fun k (l : Lane) => if live.contains k then { l with energy := l.energy + eOf k } else l) c.ctl.lanes } })
  s6.modHalf n h (fun x => { x with
    hist := (s.curSum n h :: x.hist).take 4
    sumI := conSum, cnt := con.length
    energy := x.energy + sumN (live.map eOf)
    bhSamples := x.bhSamples + x.acc.bh
    vSum := if vs.isEmpty then x.vSum else sumI vs
    vCnt := if vs.isEmpty then x.vCnt else vs.length
    vLow := match vs with
      | [] => x.vLow
      | v :: t => (t.foldl min v).toNat })

/-! ## The cells' own part of a sample -/

/-- References, SAFE_CODE and the counts of fast paths at the boundary (03 R82, R83, R89, R96). -/
def State.cellsSample (n : Nat) (s : State) : State :=
  let mul := if s.redMode n then 2 else 1
  s.modCl n (fun c => { c with cells := vmap (fun k x =>
    let th := s.cellTh n k
    let v := uvOf (vget c.sense.res k).code.toNat
    x.sample (8 * th.ssRate * mul) v) c.cells })

/-- Credit-samples of the requesters (10 R335). -/
def State.creditSamples (n : Nat) (s : State) : State :=
  s.modCl n (fun c =>
    let add := fun (t : Tab Nat) (p : Nat × Nat) => Tab.putN t p.1 (Tab.getN t p.1 + p.2)
    { c with led := { c.led with samples := (c.led.heldLo ++ c.led.heldHi).foldl add c.led.samples } })

/-- The recycle allowance decays at each boundary (07 R223). -/
def State.decayRc (n : Nat) (s : State) : State :=
  let k := s.sheet.s8.rcShift
  each (s.hs n) (fun h s => s.modHalf n h (fun x =>
    { x with acc := { x.acc with rc := x.acc.rc - x.acc.rc / 2 ^ k } })) s

/-- Reasons a sample sets for its domains until the next broadcast (R120, 10 R318). -/
def State.sawSample (n : Nat) (s : State) : State :=
  each (s.cluDoms n) (fun d s =>
    let i := s.wonBy d 1
    let sl := s.wonBy d 2
    let hd := decide (s.domCap d < s.domHeld d)
    s.modDm d (fun x => { x with thr := { x.thr with
      sawI := x.thr.sawI || i, sawS := x.thr.sawS || sl, sawHeld := x.thr.sawHeld || hd } })) s

/-- One half's ramp, preparation, B-roll and lanes. -/
def State.halfSample (n h : Nat) (mism : BitVec 16) (s : State) : State :=
  let old := s.half n h
  let a := s.applyChanges n h
  let s := if a.1 then a.2 else a.2.moveRamp n h
  let s := ((s.movePrep n h).moveBroll n h).moveFill n h
  let now := s.half n h
  let moving := a.1 || now.ramp.r != old.ramp.r || now.prep.h != old.prep.h
  let run := (s.sheet.cells n h).filter (fun k => (s.cell n k).st.running)
  let lcal := if run.isEmpty then 0 else (sumN (run.map (fun k => (s.cell n k).lcal)) + run.length / 2) / run.length
  s.sampleHalf n h lcal moving mism

/-- A cluster runs samples: its clock runs, it is out of reset, and its boundary has a call sheet. -/
def State.samples (s : State) (n : Nat) : Bool :=
  (s.cl n).clock == .running && (s.cl n).inReset.isNone && (s.sheet.cluRec n).isSome && (s.cl n).woke

/-- The first multiple of a period after an instant. -/
def nextBoundary (per now : Nat) : Nat := (now / per + 1) * per

/-- The first boundary after an instant on the grid of a period through a boundary `at_`. -/
def gridAfter (per at_ now : Nat) : Nat := if now < at_ then at_ else at_ + ((now - at_) / per + 1) * per

/-- The cells of a cluster that are in PARK report their park duty: free values, as at each of their carrier periods
(03 R97). -/
def State.parkReports (n : Nat) (s : State) : State :=
  { s.modCl n (fun c => { c with cells := vmap (fun k (x : Cell) =>
      if x.st == .park then { x with parkDuty := Config.freeNat (s.freeCtr + k) % 8192 } else x) c.cells }) with
    freeCtr := s.freeCtr + 16 }

/-- The cluster's next sample boundary (01 R17, R18); its cells hold the thresholds of the call sheet in force from it on
(03 R103). The next boundary is one sample on (R142). -/
def State.controlSample (n : Nat) (mism : BitVec 16) (s : State) : State :=
  if s.samples n then
    let s := (s.advanceTo (s.cl n).ctl.sampleAt).modCl n (fun c => { c with s1 := s.sheet.s1 })
    let s := s.parkReports n
    let s := each (s.hs n) (fun h s => (s.forecastHalf n h).halfSample n h mism) s
    let s := { s.modCl n Cluster.winStep with freeCtr := s.freeCtr + 16 }
    let s := ((((s.cellsSample n).creditSamples n).decayRc n).predict n).sawSample n
    let s := s.modCl n (fun c => { c with ctl := { c.ctl with
      sampleAt := gridAfter (if s.redMode n then 64 else 32) c.ctl.sampleAt s.elapsed, nSample := c.ctl.nSample + 1 } })
    s.throttle (s.cluDoms n)
  else s

end Sys2Proof.Machine
end

