-- ==== Sys2Proof/Machine/Probe.lean ====
section
/-! DEFINITION. MARGIN_PROBE under way (14 R453, R454): its steps, its stop conditions and the verdict word. -/

namespace Sys2Proof.Machine
open Sys2Proof

/-- Operands of a MARGIN_PROBE: STEP, NSTEP, DWELL in us, VADDR (Table 13-5). -/
def Cmd.probeOps (c : Cmd) : Nat × Nat × Nat × Nat := (c.opnd 2 0 8, c.opnd 2 8 4, c.opnd 2 12 20, c.opnd 3 0 48)

/-- The verdict word (Table 14-7). -/
def verdictWord (step state stop code tag : Nat) : Word64 :=
  BitVec.ofNat 64 (pack [(4, step), (4, state), (4, stop), (12, code), (12, tag)])

/-- The probe's ramp toward a code at SLEW_DEF. -/
def State.probeRamp (p : Probe) (code : Nat) (s : State) : State :=
  { s with probes := Tab.put s.probes p.slot p }.placeDom p.dom
    { tgt := code, rate := s.sheet.s2.slewDef, cmd := none, shot := false }

/-- A probe with its record changed. -/
def State.setProbe (p : Probe) (s : State) : State := { s with probes := Tab.put s.probes p.slot p }

/-- A probe ends: FCEIL of its domain is free again. -/
def State.endProbe (slot : Nat) (s : State) : State :=
  match Tab.get? s.probes slot with
  | some p => ({ s with probes := Tab.del s.probes slot } : State).modDm p.dom (fun x => { x with probeT := none })
  | none => s

/-- The loop ends with a STOP code: the target returns to T. -/
def State.probeRestore (slot stop : Nat) (s : State) : State :=
  match Tab.get? s.probes slot with
  | some p => if p.phase < 4 then s.probeRamp { p with stop, phase := 4 } p.t else s
  | none => s

/-- Step `k` of the loop, or the restore after the last one. -/
def State.probeStep (slot k : Nat) (s : State) : State :=
  match Tab.get? s.probes slot, s.cmd? slot with
  | some p, some c =>
    if c.probeOps.2.1 < k then s.probeRestore slot 0
    else s.probeRamp { p with k, phase := 0 } (p.t - k * c.probeOps.1)
  | _, _ => s

/-- Cells of a probe's domain in RUN or BALLAST. -/
def State.probeRun (s : State) (d : Nat) : Nat :=
  ((s.sheet.domCells d).filter (fun q => (s.cell q.1 q.2).st.running)).length

/-- The stop conditions of R454, for every probe. -/
def State.probeCheck (s : State) : State :=
  each s.probes (fun q s =>
    let p := q.2
    if 4 ≤ p.phase then s
    else if s.vin.dip then s.probeRestore q.1 3
    else if (List.range 3).any (fun j => s.wonBy p.dom (j + 1)) || decide (0 < (s.dm p.dom).thr.vf) then s.probeRestore q.1 4
    else
      let run := s.probeRun p.dom
      if run < p.run then s.probeRestore q.1 5 else s.setProbe { p with run }) s

/-- Every half of a domain has settled on its target and no change waits (04 R131). -/
def State.domSettled (s : State) (d : Nat) : Bool :=
  (s.sheet.domHalves d).all (fun p =>
    let r := (s.half p.1 p.2).ramp
    r.done && r.chg.isEmpty)

/-- The probes of a domain. -/
def State.probesOf (s : State) (d : Nat) : List Probe := (s.probes.filter (fun q => q.2.dom == d)).map (fun q => q.2)

/-- A probe's domain has settled: the TEST word of a step, or the END word after the restore, is written. -/
def State.probeSettled (d : Nat) (s : State) : State :=
  each (s.probesOf d) (fun p s =>
    match s.cmd? p.slot with
    | none => s
    | some c =>
      if !s.domSettled d then s
      else
        let (step, _, _, va) := c.probeOps
        let tag := c.gen * 512 + p.slot
        if p.phase == 0 then
          (s.setProbe { p with phase := 1 }).startWrite va [verdictWord p.k 1 0 (p.t - p.k * step) tag] (.verdict p.slot false)
        else if p.phase == 4 then
          (s.setProbe { p with phase := 5 }).startWrite va
            [verdictWord p.last 4 p.stop (p.t - p.last * step) tag] (.verdict p.slot true)
        else s) s

/-- SETTLE_TO has passed in a step. -/
def State.probeTimeout (d : Nat) (s : State) : State :=
  each (s.probesOf d) (fun p s => if p.phase == 0 then s.probeRestore p.slot 7 else s) s

/-- The write of a verdict word is acknowledged: DWELL begins, or after the END word (`last`) the probe completes. -/
def State.probeAcked (slot : Nat) (last : Bool) (s : State) : State :=
  match Tab.get? s.probes slot, s.cmd? slot with
  | some p, some c =>
    if !last && p.phase == 1 then s.setProbe { p with phase := 2, dwellBy := s.elapsed + 1000 * c.probeOps.2.2.1 }
    else if last && p.phase == 5 then (s.endProbe slot).complete slot .done p.last
    else s
  | _, _ => s

/-- The verdict word has been read; a poisoned read counts as no verdict. -/
def State.probeVerdict (slot : Nat) (w : Option Word64) (s : State) : State :=
  match Tab.get? s.probes slot with
  | none => s
  | some p =>
    if p.phase != 3 then s
    else
      match w with
      | none => s.probeRestore slot 2
      | some w =>
        let x := w.toNat
        let st := fld x 4 4
        if fld x 0 4 != p.k || (st != 2 && st != 3) then s.probeRestore slot 2
        else if st == 3 then s.probeRestore slot 1
        else (s.setProbe { p with last := p.k }).probeStep slot (p.k + 1)

/-- MARGIN_PROBE_DWELL: DWELL after the acknowledgement of TEST the verdict word is read (R453). -/
def execMarginProbeDwell (slot : Slot) (s : State) : Host.Outcome State Fault Refusal :=
  .next (match Tab.get? s.probes slot, s.cmd? slot with
    | some p, some c =>
      if p.phase == 2 then
        ((s.advanceTo p.dwellBy).setProbe { p with phase := 3 }).startRead (c.probeOps.2.2.2 / 16 * 16) 16 (.verdict slot)
          (vget s.host.rings c.ring).pid
      else s
    | _, _ => s)

end Sys2Proof.Machine
end

