-- ==== Sys2Proof/Machine/Retake.lean ====
section
/-! DEFINITION. Retake triggers, notices and the cleared-through watermark (06 R206 to R212, R512), and the commands
that evaluate a shot at its end and write the watermark word. -/

namespace Sys2Proof.Machine
open Sys2Proof

/-! ## Notices (R206, R208) -/

/-- GBAND of a guard class of a context, mV; 63 is never retaken. -/
def Context.gband (x : Context) (cls : Nat) : Nat := x.recd.guard.getD cls 15

/-- The context is in plan mode (R172). -/
def Context.plan (x : Context) : Bool := x.st == .armed || x.st == .coasting

/-- The words of a retake notice (Table 6-13). -/
def noticeWords (c cause openN unit t0 t1 : Nat) (p : Played) : List Word64 :=
  [BitVec.ofNat 64 (pack [(8, 0x10), (4, c), (4, cause), (19, p.shot), (24, p.step), (4, openN), (1, 0)]),
   BitVec.ofNat 64 (pack [(32, p.seq), (11, unit)]), BitVec.ofNat 64 t0, BitVec.ofNat 64 t1]

/-- The played shot with a SEQ. -/
def Context.shotBy (x : Context) (seq : Nat) : Option Played := x.played.find? (fun p => p.seq == seq)

/-- A played shot changed. -/
def State.modPlayed (c seq : Nat) (f : Played → Played) (s : State) : State :=
  s.modCx c (fun x => { x with played := x.played.map (fun p => if p.seq == seq then f p else p) })

/-- A notice for one played shot (R208): one per shot, later triggers are counted; a class that is never retaken
receives none, except for poison and reset. -/
def State.issue (c seq cause unit t0 t1 : Nat) (s : State) : State :=
  match (s.cx c).shotBy seq with
  | none => s
  | some p =>
    if (s.cx c).gband p.guard == 63 && cause != 8 && cause != 10 && p.notice == .none then s
    else if p.notice != .none || (p.flagged.isSome && cause != 7) then
      s.modCx c (fun x => { x with rtMerge := satInc 7 x.rtMerge })
    else
      let w := noticeWords c cause (s.cx c).openN unit t0 t1 p
      (s.modPlayed c seq (fun p => { p with notice := .waiting })).postEvent (some c) w none (some (c, seq))

/-- The interval of a shot, from its onset to the next onset, meets a window. -/
def Played.meets (p : Played) (t0 t1 : Nat) : Bool :=
  match p.onset with
  | none => false
  | some o => p.begun && decide (o ≤ t1) && (match p.end_ with
    | some e => decide (t0 < e)
    | none => true)

/-- Notices of one window for every played shot of a context that meets it. -/
def State.issueAll (c cause unit t0 t1 : Nat) (s : State) : State :=
  each ((s.cx c).played.filter (fun p => p.meets t0 t1)) (fun p s => s.issue c p.seq cause unit t0 t1) s

/-! ## Triggers (R206) -/

/-- The open contexts that a trigger in a domain, or a VIN trigger, can implicate. -/
def State.trigCtxs (s : State) (d : Option Nat) : List Nat :=
  match d with
  | some d => match s.owner d with
    | some c => [c]
    | none => []
  | none => vfind (fun x => x.st != .closed) s.ctx

/-- A trigger window opens. -/
def State.trigOpen (d : Option Nat) (cause unit t0 : Nat) (s : State) : State :=
  if s.trigs.any (fun g => g.cause == cause && g.unit == unit) then s
  else { s with trigs := s.trigs ++ [{ cause, dom := d, unit, open_ := t0, close := none }] }

/-- A trigger window closes at `t1`: the shots it implicates, in the contexts that it implicates now, receive their
notices; a shot that had one from this trigger already gets no second (R208). -/
def State.trigClose (cause unit t1 : Nat) (s : State) : State :=
  match s.trigs.find? (fun g => g.cause == cause && g.unit == unit) with
  | none => s
  | some g =>
    let s := { s with trigs := s.trigs.filter (fun g => !(g.cause == cause && g.unit == unit)) }
    let e := max g.open_ t1
    each (s.trigCtxs g.dom) (fun c s =>
      each ((s.cx c).played.filter (fun p => p.meets g.open_ e && !g.hit.contains (c, p.seq)))
        (fun p s => s.issue c p.seq cause unit g.open_ e) s) s

/-- Windows of open phases past their T_CLOSE end when no lane of the domain is won by a protective loop (05 R166). -/
def State.endPhases (s : State) : State :=
  each (s.trigs.filter (fun g => g.spilt)) (fun g s =>
    let held := match g.dom with
      | some d => (List.range 3).any (fun j => s.wonBy d (j + 1))
      | none => false
    if held then s else s.trigClose g.cause g.unit s.elapsed) s

/-- A trigger whose window is known when it is found. -/
def State.trigAt (d : Option Nat) (cause unit t0 t1 : Nat) (s : State) : State :=
  each (s.trigCtxs d) (fun c s => s.issueAll c cause unit t0 t1) s

/-- DEGRADED faults of a cell end when it leaves the state that their rule entered (14 R433). -/
def State.closeCell (n k : Nat) (a b : CellState) (s : State) : State :=
  if a == b then s
  else if a == .disabled then s.closeUnit (uCell n k) [0x001, 0x002, 0x003, 0x004]
  else if a == .latched then s.closeUnit (uCell n k) [0x005]
  else if a == .park then s.closeUnit (uCell n k) [0x008, 0x00B]
  else s

/-- Retake cause 6 (Table 6-12): cells that went from a switching state to PARK under R77 open a window, cells that
left PARK close theirs; a probe is stopped where 14 R454 says so. `old` is the state before the event. -/
def State.noteParks (s old : State) : State :=
  each (List.range 64) (fun n s =>
    if (s.cl n).cells == (old.cl n).cells then s
    else each (List.range 16) (fun k s =>
      let a := old.cell n k
      let b := s.cell n k
      let s := s.closeCell n k a.st b.st
      let was := a.st == .park && a.sleepFrom.isNone
      let is := b.st == .park && b.sleepFrom.isNone
      if is && !was && (a.st == .start || a.st.running) then
        match s.sheet.cellDom n k with
        | some d => s.trigOpen (some d) 6 (uCell n k) s.elapsed
        | none => s
      else if was && !is then s.trigClose 6 (uCell n k) s.elapsed
      else s) s) s.probeCheck

/-! ## The watermark (R210, R211, R512) -/

/-- The halves that a context's domains use. -/
def State.ctxHalves (s : State) (c : Nat) : List (Nat × Nat) :=
  (s.sheet.domIxs.filter (fun d => bit (s.cx c).recd.doms.toNat d)).flatMap s.sheet.domHalves

/-- A context is CLOSED (R172, R184): its reels are no longer resident, its halves are without feed and
predictor; STOP_LO and STOP_HI stand until the context is next opened (R202). -/
def State.shutCtx (c : Nat) (s : State) : State :=
  (each (s.ctxHalves c) (fun p s => (s.modHalf p.1 p.2 (fun x => { x with feed := {} })).modCl p.1
    (fun x => { x with pred := x.pred.set p.2 { stop := (x.pred.get p.2).stop } })) s).modCx c (fun x => { x with
      st := .closed, closing := none, played := [], reels := [], pre := [], ram := [], next := none, pageWait := false, fr := none })

/-- CONTEXT_CLOSE waits no longer: the watermark has passed the last shot played and its word has gone to host memory,
or the watermark has stopped (11 R370). -/
def State.closeDone (c : Nat) (s : State) : State :=
  let x := s.cx c
  match x.closing with
  | some q =>
    if (x.played.isEmpty && !(x.wmDirty && x.recd.wmAddr != 0)) || x.wmStop then (s.shutCtx c).complete q .done 0 else s
  | none => s

/-- The watermark passes the shots at the front that may be passed; it stops at a lost notice, and never goes back. -/
def Context.passed (x : Context) : Nat → Context
  | 0 => x
  | fuel + 1 =>
    match x.played with
    | [] => x
    | p :: t =>
      if p.notice == .lost then { x with wmStop := true }
      else if p.evaluated && p.notice != .waiting && (x.plan || !x.wmFrozen) && !x.wmStop then
        let further := match x.wm with
          | none => true
          | some w => (p.seq + 2 ^ 32 - w.1) % 2 ^ 32 < 2 ^ 31
        Context.passed (if further then { x with played := t, wm := some (p.seq, p.step), wmDirty := true }
          else { x with played := t }) fuel
      else x

/-- The watermark of a context advances as far as it may; its source fires (14 Table 14-4). -/
def State.wmAdvance (c : Nat) (s : State) : State :=
  let old := (s.cx c).wm
  let s := s.modCx c (fun x => x.passed x.played.length)
  (if (s.cx c).wm == old then s else s.fire (24 + c)).closeDone c

/-- A shot ends: its end is set, and the notice of a clamped set-point goes out (cause 7, R14). -/
def State.endShot (c seq t : Nat) (s : State) : State :=
  match (s.cx c).shotBy seq with
  | none => s
  | some p =>
    if p.end_.isSome then s
    else
      let s := s.modPlayed c seq (fun p => { p with end_ := some t })
      match p.flagged with
      | some u => (s.issue c seq 7 u (p.onset.getD t) (max t (p.onset.getD t))).modPlayed c seq
          (fun p => { p with flagged := none })
      | none => s

/-- Every shot that has not ended ends now: play stops (R204, R211, 11 R367). -/
def State.endPlay (c : Nat) (s : State) : State :=
  each ((s.cx c).played.map (fun p => p.seq)) (fun q s => s.endShot c q s.elapsed) s

/-- A notice with a cause for every played shot that the watermark has not passed (R204, 11 R367). -/
def State.noticeAll (c cause t0 : Nat) (s : State) : State :=
  each ((s.cx c).played.map (fun p => p.seq)) (fun q s => s.issue c q cause 0 t0 s.elapsed) s

/-! ## The end of a shot -/

/-- A detector of a context's domain whose window, if confirmed, would open at or before `e` (R207): a continuity
class counted and not confirmed, or checker disagreements below their count. The unit is the first such cell. -/
def State.unresolved (s : State) (c e : Nat) : Option (Nat × Nat) :=
  let cells := (s.sheet.domIxs.filter (fun d => bit (s.cx c).recd.doms.toNat d)).flatMap s.sheet.domCells
  let hit := fun (p : Nat × Nat) =>
    let ln := vget (s.cl p.1).ctl.lanes p.2
    let sn := (s.cl p.1).sense
    let t0 := min ln.cmOpen (ln.susSince.getD ln.cmOpen)
    let cont := if 0 < ln.cmN && 1 ≤ ln.cmClass && ln.cmClass ≤ 3 && t0 ≤ e then some t0 else none
    let chk := fun (ch : Nat) =>
      if 0 < Tab.getN sn.dis ch && !sn.susp.getLsbD ch && Tab.getN sn.disAt ch ≤ e then some (Tab.getN sn.disAt ch)
      else none
    match cont, chk p.2, chk (16 + p.2) with
    | some t, _, _ => some (uCell p.1 p.2, t)
    | none, some t, _ => some (uCell p.1 p.2, t)
    | none, none, some t => some (uCell p.1 p.2, t)
    | none, none, none => none
  cells.findSome? hit

/-- The evaluation of one ended shot (R207): windows still open that meet it, then unresolved implication, cause 9,
whose window is the shot. -/
def State.evalShot (c : Nat) (p : Played) (s : State) : State :=
  let now := s.elapsed
  let mine := s.trigs.filter (fun g => (s.trigCtxs g.dom).contains c && p.meets g.open_ now)
  let s := each mine (fun g s => s.issue c p.seq g.cause g.unit g.open_ now) s
  let s := { s with trigs := s.trigs.map (fun g => if mine.contains g then { g with hit := g.hit ++ [(c, p.seq)] } else g) }
  let e := p.end_.getD now
  let s := match s.unresolved c e with
    | some (u, _) => s.issue c p.seq 9 u (p.onset.getD e) e
    | none => s
  s.modPlayed c p.seq (fun p => { p with evaluated := true })

/-- SHOT_END_EVALUATION: the context's earliest ended shot is evaluated 1,024 ns after its end (R207, R210). -/
def execShotEndEvaluation (c : CtxIx) (s : State) : Host.Outcome State Fault Refusal :=
  .next (match (s.cx c).played.find? (fun p => p.end_.isSome && !p.evaluated) with
    | none => s
    | some p => (((s.advanceTo (p.end_.getD 0 + 1024)).evalShot c p)).wmAdvance c)

/-- WATERMARK_WRITE: the watermark advances and its word is written, at most once each 128 ns (R210). -/
def execWatermarkWrite (c : CtxIx) (s : State) : Host.Outcome State Fault Refusal :=
  .next (
    let s := s.wmAdvance c
    let x := s.cx c
    match x.wm with
    | none => s
    | some (q, step) =>
      if x.wmDirty && x.recd.wmAddr != 0 then
        let s := if x.wmAt == 0 then s else s.advanceTo (x.wmAt + 128)
        let w := BitVec.ofNat 64 (pack [(32, q), (24, step), (4, c.val), (4, x.openN)])
        ((s.startWrite x.recd.wmAddr [w] (.wm c)).modCx c (fun x => { x with
          wmDirty := false, wmAt := s.elapsed })).closeDone c
      else s)

end Sys2Proof.Machine
end

