-- ==== Sys2Proof/Machine/Story.lean ====
section
/-! DEFINITION. The Storyboard (chapter 06): stored shots and profiles, the timeline, cues, preparation of planned
steps (05 R154 to R161), reel boundaries, coasting and poison, and the commands of the timeline. -/

namespace Sys2Proof.Machine
open Sys2Proof

/-! ## Shots and profiles (Tables 6-3 and 6-4) -/

/-- Fields of a shot. -/
structure Shot where
  step : Nat
  dur : Nat
  reel : Nat
  prof : Nat
  cued : Bool
  hold : Bool
  slate : Bool
  guard : Nat
  ven : Bool
  vunit : Nat
  vcode : Nat
  last : Bool
  poison : Bool
  deriving DecidableEq, Repr, Inhabited

/-- The fields of a stored entry. -/
def shotOf (e : ShotEnt) : Shot :=
  let a := e.w0.toNat
  let b := e.w1.toNat
  { step := fld a 0 24, dur := fld a 24 32, reel := fld a 56 8, prof := fld b 0 14, cued := bit b 14, hold := bit b 15,
    slate := bit b 16, guard := fld b 17 3, ven := bit b 20, vunit := fld b 21 11, vcode := fld b 32 12,
    last := bit b 44, poison := e.poison }

/-- Entry `i` of the shot slice; a place never written holds zeros. -/
def State.shotEnt (s : State) (i : Nat) : ShotEnt := Tab.getD s.up.shots i { w0 := 0, w1 := 0, poison := false }

/-- Shot `i` as context `c` has it: the copy held in the Gaffer's SRAM, as it was read, or the shot slice (R180). -/
def State.shot (s : State) (c i : Nat) : Shot :=
  shotOf (match (s.cx c).pre.find? (fun e => e.1 == i) with
    | some e => e.2
    | none => s.shotEnt i)

/-- A SLATE shot of the slate context of a joined chip; every other shot acts as one with SLATE clear (08 R260). -/
def State.slateShot (s : State) (c : Nat) (x : Shot) : Bool := x.slate && s.slt.joined && s.slt.ctx == c

/-- Where a shot with an onset puts its successor (R187): DUR behind it, or nowhere with DUR 0. -/
def Shot.next (x : Shot) (onset : Option Nat) : Option Nat := if x.dur == 0 then none else onset.map (fun o => o + x.dur)

/-- The planned onset that shot `x` of SEQ `q` gives its successor: the slate release for a SLATE shot, once known (R187). -/
def State.succOnset (s : State) (c q : Nat) (x : Shot) (onset : Option Nat) : Option Nat :=
  match s.slt.relFor with
  | some (r, t) => if x.slate && s.slt.ctx == c && r == q then some t else x.next onset
  | none => x.next onset

/-- Profile entry `p` of cluster `n`. -/
def State.profEnt (s : State) (n p : Nat) : ProfEnt := Tab.getD (vget s.up.prof n) p { w := 0, poison := false }

/-- The clusters that serve a context's domains. -/
def State.ctxClus (s : State) (c : Nat) : List Nat :=
  (List.range 64).filter (fun n => (s.ctxHalves c).any (fun p => p.1 == n))

/-- The clusters that serve a context's domains wake (01 R26). -/
def State.wakeCtx (c : Nat) (s : State) : State := each (s.ctxClus c) State.wakeClu s

/-- The entry of profile `p` that cluster `n` holds in state RAM for context `c` (R180). -/
def State.ramEnt (s : State) (c n p : Nat) : Option ProfEnt :=
  ((s.cx c).ram.find? (fun e => e.1 == n && e.2.1 == p)).map (fun e => e.2.2)

/-- Forecast of a profile entry for half `h` of cluster `n`, 1/32 credit (R178). -/
def State.fcOf (s : State) (n h : Nat) (w : Word32) : Nat :=
  let fc := fld w.toNat 0 11
  if s.sheet.isSplit n then
    let lo := fc * fld w.toNat 19 6
    if h == 0 then lo else 32 * fc - lo
  else 32 * fc

/-- Forecast of a shot of context `c` for a half, 1/32 credit; none where its channel is offline (R205) or its entry is not in
state RAM. -/
def State.fcShot (s : State) (c n h : Nat) (x : Shot) : Option Nat :=
  if s.chanOff n then none else (s.ramEnt c n x.prof).map (fun e => s.fcOf n h e.w)

/-! ## Reels and play order (R184) -/

/-- A resident reel by number: of two that carry it, the one loaded last. -/
def Context.reel (x : Context) (r : Nat) : Option Reel := x.reels.reverse.find? (fun e => e.num == r)

/-- Shot `i` lies in the reel. -/
def Reel.holds (e : Reel) (i : Nat) : Bool := decide (e.sbase ≤ i) && decide (i < e.sbase + e.nshot)

/-- The next shot in play order after shot `i`: none when it lies in a reel that is not resident, with the reel. -/
def State.after (s : State) (c i : Nat) : Option Nat × Nat :=
  let x := s.shot c i
  if !x.last then (some (i + 1), x.reel)
  else
    let r := (x.reel + 1) % 256
    (((s.cx c).reel r).map (fun e => e.sbase), r)

/-- The prefetch window from a shot onward: at most 64 shots in play order (R180). -/
def State.window (s : State) (c : Nat) : Nat → Option Nat → List Nat
  | 0, _ => []
  | _, none => []
  | fuel + 1, some i => i :: State.window s c fuel (s.after c i).1

/-- The reel of shot `i` is no longer resident (R184). -/
def State.dropReel (c i : Nat) (s : State) : State :=
  s.modCx c (fun x => { x with reels := x.reels.filter (fun e => !e.holds i) })

/-- The channel that serves a line of the shot slice (12 R387). -/
def State.shotChan (s : State) (line : Nat) : Nat :=
  let c := 64 + line % 2
  if (s.chan c).st == 3 then 129 - c else c

/-- A plan read goes before everything but the plan reads that wait already (12 R379). -/
def planFirst (l : List ChJob) (j : ChJob) : List ChJob :=
  let plan := fun (x : ChJob) => match x with
    | .arch _ _ => false
    | _ => true
  l.filter plan ++ j :: l.filter (fun x => !plan x)

/-- A plan read is asked of a channel, once. -/
def State.planRead (ch : Nat) (j : ChJob) (s : State) : State :=
  if (s.chan ch).st == 3 then s
  else s.modChan ch (fun x => if x.jobs.contains j then x else { x with jobs := planFirst x.jobs j })

/-- What the places of a newly loaded reel held is copied no longer: the next prefetch reads them again (R180). -/
def State.staleReel (c : Nat) (e : Reel) (s : State) : State :=
  s.modCx c (fun x => { x with
    pre := x.pre.filter (fun p => !e.holds p.1)
    ram := x.ram.filter (fun r => !(decide (e.pbase ≤ r.2.1) && decide (r.2.1 < e.pbase + e.nprof))) })

/-- Prefetch (R180): the next 64 shots in play order, the current one and those that have not ended are held in the Gaffer's
SRAM, and the entries of their profiles in the clusters' state RAM. What is held already stays as it was read; a cluster
whose channel cannot be read leaves an entry absent. -/
def State.prefetch (c : Nat) (s : State) : State :=
  let x := s.cx c
  if !x.plan then s
  else
    let live := x.cur.toList ++ (x.played.filter (fun p => p.end_.isNone)).map (fun p => p.shot)
    let ids := (s.window c 64 (x.next.bind (fun nx => nx.shot)) ++ live).eraseDups
    let pre := ids.map (fun i => match x.pre.find? (fun e => e.1 == i) with
      | some e => e
      | none => (i, s.shotEnt i))
    let profs := (pre.map (fun e => (shotOf e.2).prof)).eraseDups
    let ram := (s.ctxClus c).flatMap (fun n => profs.filterMap (fun p => match s.ramEnt c n p with
      | some e => some (n, p, e)
      | none => if s.chanOff n || (s.chan n).fenced then none else some (n, p, s.profEnt n p)))
    -- the reads that bring what is new: shot lines over G0 and G1, profile entries over each cluster's channel
    let lines := ((pre.filter (fun e => !x.pre.any (fun o => o.1 == e.1))).map (fun e => e.1 / 4)).eraseDups
    let fills := ram.filter (fun e => !x.ram.any (fun o => o.1 == e.1 && o.2.1 == e.2.1))
    let s := each lines (fun l s => s.planRead (s.shotChan l) (.shots c l)) s
    let s := each fills (fun e s => s.planRead e.1 (.fill c e.2.1)) s
    s.modCx c (fun y => { y with pre, ram })

/-! ## Held loads (R183) -/

/-- Ranges of a reel header: shots and profiles, first and count. -/
def hdrRanges (hdr : List Word64) : (Nat × Nat) × (Nat × Nat) :=
  let w1 := wordAt hdr 1
  ((fld w1 35 19, fld w1 0 20), (fld (wordAt hdr 2) 0 14, fld w1 20 15))

/-- Two ranges share a place; an empty one shares none. -/
def rangesMeet (a b : Nat × Nat) : Bool :=
  decide (0 < a.2) && decide (0 < b.2) && decide (a.1 < b.1 + b.2) && decide (b.1 < a.1 + a.2)

/-- A load whose header has been read overlaps a resident reel of its context. -/
def Context.overlaps (x : Context) (hdr : List Word64) : Bool :=
  let r := hdrRanges hdr
  x.reels.any (fun e => rangesMeet r.1 (e.sbase, e.nshot) || rangesMeet r.2 (e.pbase, e.nprof))

/-- The body of a reel is read: LENGTH less the header, from the address behind it. -/
def State.startReel (c : Nat) (l : Load) (s : State) : State :=
  match s.cmd? l.slot with
  | none => s
  | some q =>
    let len := fld (wordAt l.hdr 3) 0 32
    let s := s.modCx c (fun x => { x with loads := x.loads.map (fun y => if y.slot == l.slot then
      { y with loading := true } else y) })
    s.startRead (wordAt q.ops 0 + 64) (len - 64) (.reel l.slot) (vget s.host.rings q.ring).pid

/-- Held loads that no longer overlap a resident reel begin (R183). -/
def State.startLoads (c : Nat) (s : State) : State :=
  each ((s.cx c).loads.filter (fun l => !l.loading && l.hdr != [])) (fun l s =>
    if (s.cx c).overlaps l.hdr then s else s.startReel c l) s

/-! ## What a shot applies (R189, R178, R179, R239) -/

/-- The profile of a shot applied in one half: forecast, trim and weight, and the hold level in whole credits (log entry
118). -/
def State.applyProf (c n h : Nat) (x : Shot) (s : State) : State :=
  match s.fcShot c n h x with
  | none => s.modHalf n h (fun y => { y with feed := { y.feed with ctx := some c, armed := false, fft := 0 } })
  | some fc =>
    let w := ((s.ramEnt c n x.prof).map (fun e => e.w)).getD 0
    let fft := sfld w.toNat 11 8
    let lim : Int := ((s.cx c).recd.fftLim : Nat)
    let f' := clampI (-lim) lim fft
    let s := if f' == fft then s else
      s.modCl n (fun k => { k with pred := { k.pred with fftClamp := satInc 7 k.pred.fftClamp } })
    s.modHalf n h (fun y => { y with
      feed := { y.feed with ctx := some c, armed := true, fProf := fc, fft := f', pbl := min 8 (fld w.toNat 25 4) }
      broll := if x.hold then { y.broll with hold := true, tc := fc / 32 } else y.broll })

/-- The profile entry of a shot is poisoned in cluster `n`. -/
def State.entPoison (s : State) (c n : Nat) (x : Shot) : Bool :=
  !s.chanOff n && (match s.ramEnt c n x.prof with
    | some e => e.poison
    | none => false)

/-- The profile of a shot applied everywhere: from state RAM, or read over the cluster's channel when it is absent (R180). A
poisoned entry is not applied (R204). -/
def State.applyShotProf (c : Nat) (x : Shot) (s : State) : State :=
  each (s.ctxHalves c) (fun p s =>
    if (s.ramEnt c p.1 x.prof).isNone && !s.chanOff p.1 then
      s.planRead p.1 (.prof c x.prof)
    else if s.entPoison c p.1 x then s
    else s.applyProf c p.1 p.2 x) s

/-- The profile of a shot is poisoned in a cluster that uses it (R204). -/
def State.profPoison (s : State) (c : Nat) (x : Shot) : Bool := (s.ctxHalves c).any (fun p => s.entPoison c p.1 x)

/-- The set-point change of a shot (R126, R132, R189): each domain reached is clamped to VMIN to VMAX; domains outside
the context are skipped. The first clamped domain's address is returned. -/
def State.applyShotV (c : Nat) (x : Shot) (s : State) : Option Nat × State :=
  if !x.ven then (none, s)
  else
    let ds := (s.sheet.reach x.vunit).filter (fun d => bit (s.cx c).recd.doms.toNat d)
    ds.foldl (fun (acc : Option Nat × State) d =>
      match acc.2.sheet.domRec d with
      | none => acc
      | some r =>
        let v := max r.vmin (min r.vmax x.vcode)
        let fl := if v == x.vcode then acc.1 else (match acc.1 with
          | some u => some u
          | none => some (uDom d))
        (fl, if v == (acc.2.dm d).tgt then acc.2
          else acc.2.placeDom d { tgt := v, rate := acc.2.sheet.s2.slewShot, cmd := none, shot := true })) (none, s)

/-! ## Preparation (05 R154 to R160) -/

/-- The quantities of R154: BAL_P, K_S as a fraction of mA, headroom h_max in codes. -/
structure PrepQ where
  balP : Nat
  hMax : Nat
  kNum : Nat
  kDen : Nat
  deriving DecidableEq, Repr, Inhabited

/-- K_S = max(0, ((DMAX/2,048)² - D_on²) VIN / (2 L FSW)) in mA, as a fraction; `a` is V(r) + H and `vin` VIN_MEAS in
microvolts, `l` L_CAL in pH, `fsw` in 0.5 MHz (R154). -/
def kSupply (dmax a vin l fsw : Nat) : Nat × Nat :=
  (1000 * (dmax * dmax * vin * vin - 2048 * 2048 * a * a), 2048 * 2048 * vin * l * fsw)

/-- BAL_P = ceil((dF - K_S) / 125 mA) for a rise of `f` / 32 mA over `n` cells, before its clamp. -/
def balRaw (f n kNum kDen : Nat) : Nat :=
  -- (f/32n - kNum/kDen) / 125
  let num : Int := (f * kDen : Nat) - (32 * kNum * n : Nat)
  if num ≤ 0 then 0 else cdiv num.toNat (4000 * n * kDen)

/-- The quantities for a rise of `f` / 32 mA in half `h` of cluster `n`. -/
def State.prepQ (s : State) (n h f : Nat) : PrepQ :=
  let run := (s.sheet.cells n h).filter (fun k => (s.cell n k).st.running)
  let th := match s.sheet.halfDom n h with
    | some d => (s.cl n).s1.thresh d
    | none => (s.cl n).s1.base
  let l := (sumN (run.map (fun k => (s.cell n k).lcal)) + run.length / 2) / max 1 run.length
  let hMax := 8 * th.droopTh + max 4 (fld (s.cl n).cfg.prep.toNat 1 6)
  let a := uvOf (s.half n h).ramp.tgt + 250 * hMax
  let k := kSupply th.dmax a (s.vinUv n) l s.sheet.s1.fsw
  let k := if k.2 == 0 then (Config.freeNat s.freeCtr, 1) else k
  let room := th.ballastMax - ((s.half n h).broll.bal + b2n (decide (0 < (s.half n h).broll.balExtra)))
  { balP := min room (balRaw f (max 1 run.length) k.1 k.2), hMax, kNum := k.1, kDen := k.2 }

/-- n_lead (R155). -/
def State.nLead (s : State) (n : Nat) (q : PrepQ) : Nat :=
  s.leadFor n q.balP q.hMax

/-- Shots whose onset lies ahead, in play order with the shot before each and its planned onset: shots that have
switched, the next shot, and the uncued shots that follow it by duration. -/
def State.ahead (s : State) (c : Nat) : List (Nat × Option Nat × Nat) :=
  let x := s.cx c
  let pl := x.played
  let prevOf := fun (q : Nat) => (pl.filter (fun p => p.seq < q)).getLast?.map (fun p => p.shot)
  let sw := (pl.filter (fun p => !p.begun && p.end_.isNone)).filterMap (fun p =>
    p.onset.map (fun o => (p.shot, prevOf p.seq, o)))
  match x.next with
  | some nx =>
    match nx.shot, nx.onset with
    | some i, some o =>
      let chain := (s.window c 64 (some i)).drop 1
      let r := chain.foldl (fun (acc : Option (Nat × Nat) × List (Nat × Option Nat × Nat)) j =>
        match acc.1 with
        | none => acc
        | some (p, t) =>
          let y := s.shot c j
          let z := s.shot c p
          if y.cued || z.dur == 0 then (none, acc.2)
          else (some (j, t + z.dur), acc.2 ++ [(j, some p, t + z.dur)])) (some (i, o), [])
      sw ++ [(i, x.cur, o)] ++ r.2
    | _, _ => sw
  | none => sw

/-- The rise in 1/32 mA that a shot boundary of context `c` brings to a half: against the shot before it, or measured current
before the first. -/
def State.riseAt (s : State) (c n h : Nat) (e : Nat × Option Nat × Nat) : Nat :=
  let fc := fun i => (s.fcShot c n h (s.shot c i)).map (fun f => 125 * min f (2048 * (s.sheet.cells n h).length))
  match fc e.1 with
  | none => 0
  | some f =>
    let base : Int := match e.2.1 with
      | some p => (((fc p).getD f : Nat) : Int)
      | none => 128 * s.curSum n h
    ((f : Int) - base).toNat

/-- The next shot boundary that half `h` of cluster `n` prepares for (R154): a rise of 0.125 A or more per running
cell, behind the one prepared already. -/
def State.nextPrep (s : State) (n h : Nat) : Option (Nat × Nat × Nat) :=
  match s.halfCtx n h with
  | none => none
  | some c =>
    if (s.cx c).st != .armed || !(bit (s.cl n).cfg.prep.toNat 0) || s.chanOff n || (s.chan n).fenced then none
    else
      let l := s.ahead c
      let key := (s.half n h).prep.key
      let l : List (Nat × Option Nat × Nat) := match key with
        | some k => if l.any (fun e => e.1 == k) then (l.dropWhile (fun e => e.1 != k)).drop 1 else l
        | none => l
      let l := l.filter (fun e => (s.half n h).prep.gone != some e.1)
      let nr := s.nRun n h
      (l.find? (fun e => decide (0 < nr) && !(s.shot c e.1).poison && !s.entPoison c n (s.shot c e.1) &&
        decide (4000 * nr ≤ s.riseAt c n h e))).map (fun e => (e.1, e.2.2, s.riseAt c n h e))

/-- A preparation begins (R155, 07 R222, R224) for a rise in 1/32 mA: its targets, b_d to 0, and RES from ORD with the
shortfall borrowed. BAL and h go on from what an earlier preparation has left, whose RES returns first (R510). -/
def State.beginPrep (n h shot onset rise : Nat) (s : State) : State :=
  let s := s.accrue n
  let q := s.prepQ n h rise
  let run := (s.sheet.cells n h).filter (fun k => (s.cell n k).st.running)
  let nr := run.length
  let mask := run.foldl (fun (m : BitVec 16) k => m ||| BitVec.ofNat 16 (2 ^ k)) 0
  let want := min (rise / (4000 * max 1 nr)) (q.balP + q.kNum / (125 * max 1 q.kDen)) * nr
  let s := s.modHalf n h (fun x =>
    let ord := x.acc.ord + x.acc.res
    let res := min ord want
    { x with
      prep := { x.prep with
        on := true, new := true, balP := q.balP, hMax := q.hMax * 4096, onset, cells := mask, swapped := 0
        falling := false, withdrawn := false, key := some shot }
      acc := { x.acc with ord := ord - res, res, short := want - res, b := 0 } })
  s.borrow n h

/-- The preparations of a context withdrawn (R158). -/
def State.withdrawCtx (c : Nat) (s : State) : State :=
  each (s.ctxHalves c) (fun p s => s.withdraw p.1 p.2) s

/-- Boundaries withdrawn before may be prepared again: a plan is armed, a cue ends COASTING, or the shot has begun. -/
def State.forgetGone (c : Nat) (shot : Option Nat) (s : State) : State :=
  each (s.ctxHalves c) (fun p s => s.modHalf p.1 p.2 (fun x =>
    if shot.isNone || x.prep.gone == shot then { x with prep := { x.prep with gone := none } } else x)) s

/-- Planned onsets have moved: a preparation begun for a shot of the context keeps what it has reached and has its shot's new
onset (R190), that of an uncued shot behind a moved one too (R187). -/
def State.movePreps (c : Nat) (s : State) : State :=
  let l := s.ahead c
  each (s.ctxHalves c) (fun p s =>
    match (s.half p.1 p.2).prep.key with
    | none => s
    | some k => match l.find? (fun e => e.1 == k) with
      | none => s
      | some e =>
        if e.2.2 == (s.half p.1 p.2).prep.onset then s
        else (s.accrue p.1).modHalf p.1 p.2 (fun x => { x with prep := { x.prep with onset := e.2.2 } })) s

/-- The boundary at which the next preparation of a half starts: n_lead samples before the planned onset (R155). -/
def State.prepAt (s : State) (n h : Nat) : Option Nat :=
  match s.nextPrep n h with
  | none => none
  | some (_, onset, rise) =>
    if (s.half n h).prep.on then none
    else
      let per := if s.redMode n then 64 else 32
      some ((onset - s.nLead n (s.prepQ n h rise) * per) / per * per)

/-- The preparation that is next starts, where none is under way (R155, R510). -/
def State.prepStart (n h : Nat) (s : State) : State :=
  match s.nextPrep n h with
  | none => s
  | some (shot, onset, rise) => if (s.half n h).prep.on then s else s.beginPrep n h shot onset rise

/-- The boundary at which a half's preparation ends: the first at or after the onset plus STEP_WIN (R157). -/
def State.stepWinAt (s : State) (n h : Nat) : Option Nat :=
  let p := (s.half n h).prep
  if p.key.isNone then none
  else
    let per := if s.redMode n then 64 else 32
    some (cdiv (p.onset + max 1 (fld (s.cl n).cfg.prep.toNat 7 8) * per) per * per)

/-- The end of a preparation's window: headroom starts to fall, RES returns to ORD, and cells that have not kicked lose their
preparation (R157, R158, 07 R224). -/
def State.stepWin (n h : Nat) (s : State) : State :=
  if (s.half n h).prep.key.isNone then s
  else
    (s.accrue n).modHalf n h (fun x => { x with
      prep := { x.prep with on := false, falling := true, key := none,
                            withdrawn := x.prep.on && x.prep.bal.toList.any (fun b => decide (0 < b)) }
      acc := { x.acc with ord := x.acc.ord + x.acc.res, res := 0, short := 0 } })

/-! ## Fractions at a reel boundary (R197) -/

/-- The fractions of a reel taken in: the shares follow at the next broadcasts (10 R330). -/
def State.takeFractions (c : Nat) (e : Reel) (s : State) : State :=
  match e.fr with
  | some f => s.modCx c (fun x => { x with fr := some f })
  | none => s

/-! ## Coasting, disarming and poison (R185, R194, R195, R204) -/

/-- The context's halves without a shot's profile: FF_TRIM zero, forecast from the predictor (R172, R195). -/
def State.unfeed (c : Nat) (s : State) : State :=
  each (s.ctxHalves c) (fun p s => s.modHalf p.1 p.2 (fun x =>
    { x with feed := { x.feed with armed := false, fft := 0 } })) s

/-- B-roll holds of a context's halves end (11 R371). -/
def State.endHolds (c : Nat) (s : State) : State :=
  each (s.ctxHalves c) (fun p s => s.brollEnd p.1 p.2) s

/-- The context enters COASTING, with an INFO event of the given code. -/
def State.coast (c code : Nat) (s : State) : State :=
  if (s.cx c).st == .closed || (s.cx c).st == .reactive then s
  else
    let s := (s.withdrawCtx c).unfeed c
    (s.modCx c (fun x => { x with st := .coasting })).raise code (.ctx c) 0

/-- The next shot lies in a reel that is not resident (R185). -/
def State.pageLate (c : Nat) (s : State) : State :=
  if (s.cx c).pageWait then s
  else (s.modCx c (fun x => { x with pageWait := true, pageLate := satInc 6 x.pageLate })).coast c 0x031

/-- Play stops: the timeline is dropped, the current shot ends now, and with the last shot of a reel its residency (R184). -/
def State.haltPlay (c : Nat) (s : State) : State :=
  let lasts := ((s.cx c).played.filter (fun p => p.begun && p.end_.isNone && (s.shot c p.shot).last)).map
    (fun p => p.shot)
  let s := if (s.cx c).heldCue.isSome then { s with cueDrop := satInc 16 s.cueDrop } else s
  let s := s.endPlay c
  s.modCx c (fun x => { x with
    next := none, pageWait := false, heldCue := none, dropReels := [], lastSwitch := none, pre := [], ram := []
    reels := x.reels.filter (fun e => !lasts.any e.holds) })

/-- PLAN_DISARM takes effect (R175, R211, 11 R370): preparations withdrawn, REACTIVE with targets kept. -/
def State.disarmNow (c : Nat) (s : State) : State :=
  let s := (((s.withdrawCtx c).unfeed c).endHolds c).haltPlay c
  (s.modCx c (fun x => { x with st := .reactive, leaving := false })).wmAdvance c

/-- A context fails on poison (R204). -/
def State.failNow (c : Nat) (s : State) : State :=
  let s := s.modCx c (fun x => { x with poisoning := none })
  if !(s.cx c).plan then s
  else
    let s := ((s.withdrawCtx c).unfeed c).endHolds c
    let s := (s.noticeAll c 8 s.elapsed).haltPlay c
    ((s.modCx c (fun x => { x with st := .reactive, poisoned := true, leaving := false, wmFrozen := true })).raise
      0x030 (.ctx c) 0).startLoads c

/-- A context has consumed poison: it fails at the next sample boundary. -/
def State.consume (c : Nat) (s : State) : State :=
  s.modCx c (fun x => { x with poisoning := some (x.poisoning.getD (nextBoundary 32 s.elapsed)) })

/-- PLAN_DISARMs of a context that are dispatched and wait for its boundary. -/
def State.disarms (s : State) (c : Nat) : List Nat :=
  (s.host.cmds.filter (fun p => p.2.opc == 0x0D && p.2.ctx == c && p.2.stage == .dispatched)).map (fun p => p.1)

/-- What waits for a sample boundary in the contexts: poison first, then PLAN_DISARM (R196), which is DONE once its
context has left plan mode. -/
def State.ctxBoundary (s : State) : State :=
  each (List.range 16) (fun c s =>
    let s := match (s.cx c).poisoning with
      | some t => if t ≤ s.elapsed then s.failNow c else s
      | none => s
    let s := if (s.cx c).leaving then s.disarmNow c else s
    if (s.cx c).plan then s else each (s.disarms c) (fun q s => s.complete q .done 0) s) s

/-! ## Placing shots on the timeline (R187) -/

/-- The current shot is HOLD. -/
def State.curHold (s : State) (c : Nat) : Bool :=
  match (s.cx c).cur with
  | some i => (s.shot c i).hold
  | none => false

/-- The release instant of the current HOLD shot is its successor's onset (07 R242): each half of the context that holds
learns it. While the hold of the shot before it still awaits its own release, it is the one after. -/
def State.setRelease (c : Nat) (t : Option Nat) (s : State) : State :=
  each (s.ctxHalves c) (fun p s => s.modHalf p.1 p.2 (fun x =>
    if !x.broll.hold then x
    else if !x.broll.further.isEmpty then { x with broll := { x.broll with further := x.broll.further.dropLast ++ [t] } }
    else { x with broll := { x.broll with release := t } })) s

/-- The onset of the current shot moves before it comes: the release of a HOLD shot before it moves along. -/
def State.moveRelease (c t : Nat) (s : State) : State :=
  each (s.ctxHalves c) (fun p s => s.modHalf p.1 p.2 (fun x =>
    let b := x.broll
    let i := b.further.length
    -- the hold before the current shot: the last but one when that shot holds too
    let j := if s.curHold c then i - 1 else i
    if s.curHold c && i == 0 then x
    else if j == 0 then if b.release.isSome then { x with broll := { b with release := some t } } else x
    else { x with broll := { b with further := b.further.zipIdx.map (fun r => if r.2 + 1 == j then r.1.map (fun _ => t) else r.1) } })) s

/-- The current shot is a SLATE shot whose release is not known: it ends at that release (Table 6-3). -/
def State.slateWaits (s : State) (c : Nat) : Bool :=
  match (s.cx c).cur with
  | some i => s.slateShot c (s.shot c i) && (match s.slt.relFor with
    | some (q, _) => (q + 1) % 2 ^ 32 != (s.cx c).seq
    | none => true)
  | none => false

/-- The next shot's planned onset set, with what follows from it: the release of a HOLD shot is its successor's onset, or its
slate release (07 R242). -/
def State.placeNext (c : Nat) (onset : Option Nat) (cueAt : Option Nat) (late : Bool) (s : State) : State :=
  let s := s.modCx c (fun x => { x with next := x.next.map (fun nx => { nx with onset, cueAt, late }) })
  let s := if onset.isSome then s.movePreps c else s
  if s.curHold c then s.setRelease c (if s.slateWaits c then none else onset) else s

/-- The shot that follows shot `i` becomes the next shot, at the onset its predecessor gives it. -/
def State.follow (c i : Nat) (onset : Option Nat) (s : State) : State :=
  let a := s.after c i
  let x := s.shot c i
  let t := s.succOnset c (((s.cx c).seq + (2 ^ 32 - 1)) % 2 ^ 32) x onset
  (s.modCx c (fun y => { y with
    next := some { shot := a.1, reel := a.2, onset := none, cueAt := none, late := false } })).placeNext c t none false

/-- A shot becomes current (R189, R209): played, its profile and set-point applied. A shot with poison becomes current too
and applies nothing: its context has consumed the poison (R204). -/
def State.switchTo (c i : Nat) (onset : Option Nat) (s : State) : State :=
  let x := s.shot c i
  let y := s.cx c
  let p : Played := { seq := y.seq, shot := i, step := x.step, guard := x.guard, onset, end_ := none,
                      evaluated := false, notice := .none, flagged := none, begun := false }
  let s := s.modCx c (fun y => { y with
    cur := some i, curReel := x.reel, curOnset := onset, seq := (y.seq + 1) % 2 ^ 32, played := y.played ++ [p]
    lastSwitch := some s.elapsed, dropReels := y.dropReels ++ (y.next.map (fun nx => nx.drops)).getD [] })
  -- a HOLD shot that becomes current while its predecessor's hold awaits its release goes on from it (07 R242)
  let s := each (s.ctxHalves c) (fun p s => s.modHalf p.1 p.2 (fun z =>
    if x.hold && z.broll.hold && !s.chanOff p.1 then { z with broll := { z.broll with further := z.broll.further ++ [none] } } else z)) s
  let s := s.wakeCtx c
  if x.poison then (s.consume c).modCx c (fun y => { y with next := none })
  else
    let bad := s.profPoison c x
    let s := s.applyShotProf c x
    let v := s.applyShotV c x
    let s := match v.1 with
      | some u => v.2.modPlayed c y.seq (fun p => { p with flagged := some u })
      | none => v.2
    let s := (s.follow c i onset).prefetch c
    if bad then s.consume c else s

/-- The switch instant of the next shot (R188): a sample boundary at or after the onset less 400 ns, and the cue's
receipt, after the switch before it, and not in the past. -/
def Context.switchAt (x : Context) (now : Nat) (nx : NextShot) : Nat :=
  let t := max (max ((nx.onset.getD now) - 400) (nx.cueAt.getD 0)) now
  let b := cdiv t 32 * 32
  match x.lastSwitch with
  | some l => max b (l + 32)
  | none => b

/-- The next switch of a context: its instant, the shot, none where its reel is not resident, and the onset (R185, R188). An
uncued shot behind a SLATE shot waits for the release, and one at whose turn no cue has matched has no switch. -/
def State.switchOf (s : State) (c : Nat) : Option (Nat × Option Nat × Nat) :=
  let x := s.cx c
  match x.next with
  | none => none
  | some nx =>
    if x.st != .armed || x.poisoning.isSome then none
    else
      match nx.shot with
      | none =>
        match nx.onset with
        | some o => if s.slateWaits c then none else some (cdiv (o - 400) 32 * 32, none, o)
        | none => none
      | some i =>
        let cued := (s.shot c i).cued
        if cued && nx.cueAt.isNone || s.slateWaits c && !cued then none
        else
          let onset := nx.onset.getD s.elapsed
          some (x.switchAt s.elapsed { nx with onset := some onset }, some i, onset)

/-- A switch is that of an uncued shot. -/
def State.uncuedSwitch (s : State) (c : Nat) (q : Nat × Option Nat × Nat) : Bool :=
  match q.2.1 with
  | none => true
  | some i => !(s.shot c i).cued

/-- At a switch the shot becomes current; one whose reel is not resident makes the context page-late. -/
def State.switchGo (c : Nat) (q : Nat × Option Nat × Nat) (s : State) : State :=
  match q.2.1 with
  | none => s.pageLate c
  | some i => s.switchTo c i (some q.2.2)

/-- The next waiting command is a cue of the context, in the present cycle. -/
def State.cueNext (s : State) (c : Nat) : Bool :=
  match s.pending.head? with
  | some (.cue w) => fld w.toNat 0 4 == c && s.pins.rdy && s.gafClock == .running
  | _ => false

/-- A switch that a cue of the same cycle goes before, once no further one follows: it takes place where it is still due (R196). -/
def State.switchWaiting (c : Nat) (s : State) : State :=
  if !(s.cx c).switchDue || s.cueNext c then s
  else
    let s := s.modCx c (fun x => { x with switchDue := false })
    match s.switchOf c with
    | some q => if decide (q.1 ≤ s.elapsed) && s.uncuedSwitch c q then s.switchGo c q else s
    | none => s

/-- SHOT_SWITCH: the switch instant of the next shot; a poisoned shot or profile is consumed (R185, R188, R204). That of an
uncued shot comes after the cues of its cycle (R196). DESIGN CHOICE: log entry 119. -/
def execShotSwitch (c : CtxIx) (s : State) : Host.Outcome State Fault Refusal :=
  .next (match s.switchOf c with
    | none => s
    | some q =>
      let s := s.advanceTo q.1
      if s.uncuedSwitch c q && s.cueNext c then s.modCx c (fun x => { x with switchDue := true }) else s.switchGo c q)

/-- SHOT_ONSET: the planned onset of the earliest switched shot that has not begun (R187, R210): its predecessor ends,
reels that have played out are no longer resident, held loads begin, and at a reel boundary its fractions apply. -/
def execShotOnset (c : CtxIx) (s : State) : Host.Outcome State Fault Refusal :=
  .next (match (s.cx c).played.find? (fun p => !p.begun && p.end_.isNone) with
    | none => s
    | some p =>
      match p.onset with
      | none => s
      | some t =>
        let s := (s.advanceTo t).forgetGone c (some p.shot)
        let before := (s.cx c).played.filter (fun q => q.end_.isNone && q.begun)
        let s := s.modPlayed c p.seq (fun q => { q with begun := true, onset := some (max t 0) })
        let s := each before (fun q s =>
          let s := s.endShot c q.seq t
          if (s.shot c q.shot).last then s.dropReel c q.shot else s) s
        let s := each (s.cx c).dropReels (fun r s => s.dropReel c r) s
        let s := s.modCx c (fun x => { x with dropReels := [] })
        let s := match (s.cx c).reels.find? (fun e => decide (0 < e.nshot) && e.sbase == p.shot) with
          | some e => s.takeFractions c e
          | none => s
        let s := each (s.ctxHalves c) (fun q s =>
          let y := s.half q.1 q.2
          if y.prep.key == some p.shot && decide (0 < y.acc.short) then
            s.modCl q.1 (fun k => { k with led := { k.led with resShort := true } })
          else s) s
        s.startLoads c)

/-- MISSING_CUE: CUE_WAIT past the predicted onset of a cued shot without its cue (R194). -/
def execMissingCue (c : CtxIx) (s : State) : Host.Outcome State Fault Refusal :=
  .next (
    let x := s.cx c
    match x.next with
    | none => s
    | some nx =>
      match nx.shot, nx.onset with
      | some i, some o =>
        if x.st == .armed && (s.shot c i).cued && nx.cueAt.isNone then
          let s := s.advanceTo (o + x.recd.cueWait)
          (s.modCx c (fun x => { x with miss := satInc 6 x.miss })).coast c 0x032
        else s
      | _, _ => s)

/-! ## Cues (R186, R192 to R194) -/

/-- The current shot, when its onset lies ahead, takes a new onset (R193); a SLATE shot whose READY has gone counts it
in UNK (08 R261). -/
def State.recue (c onset : Nat) (s : State) : State :=
  let x := s.cx c
  match x.cur, x.played.getLast? with
  | some i, some p =>
    let s := s.modPlayed c p.seq (fun q => { q with onset := some onset })
    let s := ((s.modCx c (fun y => { y with curOnset := some onset })).moveRelease c onset).movePreps c
    let sh := s.shot c i
    let s := if s.slateShot c sh && s.slt.sentFor == some p.seq then
        s.modCx c (fun y => { y with unk := satInc 6 y.unk }) else s
    match (s.cx c).next with
    | some nx =>
      if nx.cueAt.isNone then
        s.placeNext c (s.succOnset c p.seq sh (some onset)) none nx.late
      else s
    | none => s
  | _, _ => s

/-- A cue matched against the window from the shot after the current one (R192, R194); `rcpt` is its receipt time. -/
def State.matchCue (c : Nat) (w : Word64) (rcpt onset : Nat) (s : State) : State :=
  let x := s.cx c
  let step := fld w.toNat 4 24
  let lead := fld w.toNat 28 16
  let curHit := match x.cur with
    | some i => (s.shot c i).step == step
    | none => false
  if curHit then
    match x.played.getLast? with
    | some p => if p.begun || p.end_.isSome || decide (p.onset.getD (rcpt + 1) ≤ rcpt) then s.modCx c (fun y => { y with unk := satInc 6 y.unk })
                else s.recue c onset
    | none => s.modCx c (fun y => { y with unk := satInc 6 y.unk })
  else
    -- from the shot after the current one, or the first of the reel armed
    let start := match x.cur with
      | some k => (s.after c k).1
      | none => x.armShot
    let win := s.window c 64 start
    let seen := win.takeWhile (fun i => !((s.shot c i).cued && (s.shot c i).step == step))
    let hit := win[seen.length]?
    let exam := win.take (seen.length + 1)
    -- shots that an earlier cue has skipped already
    let before := match x.next with
      | some nx => (win.takeWhile (fun i => some i != nx.shot)).length
      | none => 0
    if exam.any (fun i => (s.shot c i).poison) then s.consume c
    else
      match hit with
      | none =>
        if start.isNone && x.next.isSome then
          (s.pageLate c).modCx c (fun y => { y with heldCue := some (w, onset) })
        else (s.modCx c (fun y => { y with unk := satInc 6 y.unk })).coast c 0x033
      | some i =>
        let late := decide (lead < 400)
        let lasts := seen.filter (fun j => (s.shot c j).last)
        let same := (x.next.bind (fun nx => nx.shot)) == some i
        let s := { s with cueSkip := satAdd 9 s.cueSkip (seen.length - before) }
        let s := if same then s else s.withdrawCtx c
        let again := same && (x.next.bind (fun nx => nx.cueAt)).isSome && s.slateShot c (s.shot c i) &&
          s.slt.sentFor == some x.seq
        let s := s.modCx c (fun y => { y with
          late := if late then satInc 6 y.late else y.late
          unk := if again then satInc 6 y.unk else y.unk
          next := some { shot := some i, reel := (s.shot c i).reel, onset := none, cueAt := none, late, drops := lasts } })
        let s := if x.st == .coasting then
            let s := (s.modCx c (fun y => { y with st := .armed })).forgetGone c none
            match x.cur with
            | some k => s.applyShotProf c (s.shot c k)
            | none => s
          else s
        (s.prefetch c).placeNext c (some onset) (some rcpt) late

/-- A cue taken from the port (R194). -/
def State.takeCue (w : Word64) (rcpt : Nat) (s : State) : State :=
  let c := fld w.toNat 0 4
  let x := s.cx c
  if fld w.toNat 44 20 != 0 || !x.plan || x.leaving then { s with cueDrop := satInc 16 s.cueDrop }
  else
    let onset := rcpt + fld w.toNat 28 16
    let s := s.wakeCtx c
    if x.pageWait then s.modCx c (fun y => { y with heldCue := some (w, onset) })
    else s.matchCue c w rcpt onset

/-- A PLAN_DISARM of the cue's context comes next, in the same cycle: it goes before the cue (R196). -/
def State.disarmNext (s : State) (c : Nat) : Bool :=
  match s.pending.head? with
  | some (.planDisarm slot) => match s.cmd? slot with
    | some q => q.opc == 0x0D && q.ctx == c && (s.cx c).plan
    | none => false
  | _ => false

/-- CUE: a word on the cue port (R186, R194); a sleeping Gaffer wakes and the port holds up to 16 cues, and while
ZN_RDY is low a cue is dropped (17 Table 17-4). -/
def execCue (w : Word64) (s : State) : Host.Outcome State Fault Refusal :=
  .next (
    if !s.pins.rdy then { s with cueDrop := satInc 16 s.cueDrop }
    else if s.gafClock != .running then
      let s := s.wakeGaf
      if 16 ≤ s.cueQ.length then { s with cueDrop := satInc 16 s.cueDrop }
      else { s with cueQ := s.cueQ ++ [(w, s.elapsed)] }
    else if s.disarmNext (fld w.toNat 0 4) then { s with cueDrop := satInc 16 s.cueDrop }
    else (s.takeCue w s.elapsed).switchWaiting (fld w.toNat 0 4))

/-! ## Arming (R175) and residency (R185) -/

/-- PLAN_ARM: the reel's first shot is next in play order; the context is ARMED (R175, R197, 07 R221). -/
def State.armPlan (c : Nat) (e : Reel) (s : State) : State :=
  let onset := if (s.shot c e.sbase).cued then none else some s.elapsed
  let s := s.modCx c (fun x => { x with
    st := .armed, cur := none, curOnset := none, lastSwitch := none, armShot := some e.sbase, wmFrozen := false, pre := [], ram := []
    next := some { shot := some e.sbase, reel := e.num, onset, cueAt := none, late := false } })
  let s := ((s.takeFractions c e).wakeCtx c).prefetch c
  let s := each (s.ctxClus c) (fun n s => s.modCl n (fun k => { k with led := { k.led with p := 0 } })) s
  -- with no part of the shot slice to be read the context fails (R205)
  if s.chanOff 64 && s.chanOff 65 then s.consume c else s

/-- A reel has become resident: PAGE_WAIT ends, and the cue that is held is matched. Without one the context stays in COASTING
until a cue matches (R172, R185). -/
def State.reelReady (c r : Nat) (s : State) : State :=
  let x := s.cx c
  match x.next with
  | none => s
  | some nx =>
    if nx.shot.isSome || nx.reel != r then s
    else
      let first := (x.reel r).map (fun e => e.sbase)
      let s := s.modCx c (fun y => { y with next := some { nx with shot := first } })
      if !x.pageWait then s
      else
        let s := s.modCx c (fun y => { y with pageWait := false, heldCue := none })
        match x.heldCue with
        | some (w, o) => s.matchCue c w s.elapsed o
        | none => s

end Sys2Proof.Machine
end

