-- ==== Sys2Proof/Machine/Cells.lean ====
section
/-! DEFINITION. The commands of the power cell and of the carrier (chapter 03): what the cell's own comparators,
timers and detectors do, and how its cluster reacts. -/

namespace Sys2Proof.Machine
open Sys2Proof

/-! ## The carrier (R67 to R75) -/

/-- The carrier settings of a cluster: the call sheet's from its broadcast on, and without one those its cells hold (R79,
R103). -/
def State.carrSet (s : State) (n : Nat) : Sec1 :=
  match s.csh with
  | some cs => cs.s1
  | none => (s.cl n).s1

/-- FSW of a cluster in carrier units. -/
def State.fswU (s : State) (n : Nat) : Nat := (s.carrSet n).fsw * fswUnit

/-- The carrier of a cluster: before its first change of frequency a master runs free from m = 0 (R74). -/
def State.carr (s : State) (n : Nat) : Carrier :=
  let c := (s.cl n).carrier
  if c.freqTo == 0 then { c with freqFrom := ditherFreq (s.carrSet n) c.m, freqTo := ditherFreq (s.carrSet n) c.m } else c

/-- The carrier of a cluster replaced. -/
def State.setCarr (n : Nat) (c : Carrier) (s : State) : State := s.modCl n (fun x => { x with carrier := c })

/-- ZN_SYNC_IN is reported at a frequency; at the first report its phase is a free value (R67). -/
def State.syncSeen (hz : Nat) (s : State) : State :=
  let x := s.sync
  if x.hz == 0 then
    let p := s.drawNat
    { p.2 with sync := { hz, ph := p.1 % turnU, phAt := s.elapsed } }
  else { s with sync := { hz, ph := x.ph + 2 * hzUnits x.hz * (s.elapsed - x.phAt), phAt := s.elapsed } }

/-- Turns of the reference edge of a cluster since power-up, with its free phase until the first lock (R515). -/
def State.edgePh (s : State) (n : Nat) : Nat :=
  let c := (s.carr n).run s.elapsed
  c.ph + (if c.phFree then Config.edgePhase s.edgeKey n else 0)

/-- Running index of the four-period pattern of a cell, by its own carrier starts (R64). -/
def State.patIx (s : State) (n k : Nat) : Nat := (s.edgePh n + turnU - slotPh k) / turnU % 4

/-- Ns, in half frequency units x ns, until the next carrier start of a cell (R67, R68): the slots stand whichever cell is
master. -/
def State.toStartPh (s : State) (n k : Nat) : Nat := (turnU - (s.edgePh n + turnU - slotPh k) % turnU) % turnU

/-- The master follows ZN_SYNC_IN at a reported frequency: a glide to it, and after the glide the pull-in that closes the phase
error by the shorter way (R71, R72; log entry 107). -/
def State.follow_ (n hz : Nat) (s : State) : State :=
  let s := s.syncSeen hz
  let c := (s.carr n).glide s.elapsed (hzUnits hz) (glideRate (s.carrSet n).fsw)
  let t := c.glideEnd
  let here := c.turned t + (if c.phFree then Config.edgePhase s.edgeKey n else 0)
  let want := s.sync.ph + 2 * hzUnits hz * (t - s.elapsed) + turnU - offsetPh n
  let e := (want % turnU + turnU - here % turnU) % turnU
  let pull : Int := if 2 * e ≤ turnU then (e : Int) else (e : Int) - (turnU : Int)
  s.setCarr n { c with qualified := true, pull, pullAt := t }

/-- SYNC_QUALIFIED: 32 intervals of ZN_SYNC_IN inside the window; the glide toward it begins (R70, R71). A master that is
locked follows a new frequency by such a glide and stays locked (R72; log entry 107). -/
def execSyncQualified (n : CluIx) (hz : Nat) (s : State) : Host.Outcome State Fault Refusal :=
  .next (
    let s1 := s.carrSet n
    if s1.syncDis || (s.cl n).master.isNone || !inWindow s1.fsw hz then s else s.follow_ n hz)

/-- SYNC_LOCK: the glide and the pull-in have ended and 16 periods have had a phase error below 2 degrees: lock is declared
(R71). At a frequency other than the one that the glide went to there is no such error: the master goes on to follow. -/
def execSyncLock (n : CluIx) (hz : Nat) (s : State) : Host.Outcome State Fault Refusal :=
  .next (
    let c := s.carr n
    if !c.qualified || c.locked || (s.carrSet n).syncDis || !inWindow (s.carrSet n).fsw hz then s
    else if c.freqTo != hzUnits hz then s.follow_ n hz
    else
      let s := s.advanceTo (c.pullEnd + cdiv (16 * 26214400000) c.freqTo)
      let s := s.syncSeen hz
      let here := s.edgePh n
      s.setCarr n { (s.carr n).run s.elapsed with locked := true, ph := here, phFree := false })

/-- Loss of ZN_SYNC_IN in one cluster: the frequency is held, then glides to FSW (R72, R73). -/
def State.syncLost (n : Nat) (s : State) : State :=
  let c := s.carr n
  if c.qualified || c.locked then
    s.setCarr n { c.glide s.elapsed (s.fswU n) (glideRate (s.carrSet n).fsw) with qualified := false, locked := false }
  else s

/-- SYNC_LOSS: a missing edge, or a mean interval outside the window (R72). -/
def execSyncLoss (n : CluIx) (s : State) : Host.Outcome State Fault Refusal := .next (s.syncLost n)

/-- DITHER_STEP: a 16-period boundary of an unlocked master (R74): m goes on, and its frequency is entered, but during a glide,
which ends before dither resumes (R71, R73). -/
def execDitherStep (n : CluIx) (s : State) : Host.Outcome State Fault Refusal :=
  .next (
    let c := s.carr n
    if c.locked || (s.cl n).master.isNone then s
    else
      let m := c.m + 1
      s.setCarr n (
        if c.qualified || c.freq s.elapsed != c.freqTo then { c with m }
        else { c.setFreq s.elapsed (ditherFreq (s.carrSet n) m) with m }))

/-- Length in ns of `p` carrier periods of a cluster now. -/
def State.periodsNs (s : State) (n p : Nat) : Nat :=
  let f := (s.carr n).freq s.elapsed
  if f == 0 then 0 else p * 26214400000 / f

/-! ## Words and the park timeout (R63, R66, R77) -/

/-- A cell changed by an event of its own, with the retake window of its park (06 Table 6-12). -/
def State.cellEvent (n k : Nat) (f : Cell → Cell) (s : State) : State := (s.modCell n k f).noteParks s

/-- A retake window for the loss of a cell (05 R166): from `t0`, until a broadcast that carries the new CAPACITY. -/
def State.phaseTrig (n k t0 : Nat) (s : State) : State :=
  match s.sheet.cellDom n k with
  | none => s
  | some d =>
    let at_ := (s.cl n).ctl.sampleAt
    let z := if s.samples n && decide (s.elapsed < at_) then at_ else nextBoundary 32 s.elapsed
    let s := s.trigOpen (some d) 4 (uCell n k) t0
    { s with trigs := s.trigs.map (fun g => if g.cause == 4 && g.unit == uCell n k && g.close.isNone then
        { g with close := some z } else g) }

/-- The next carrier start of a cell: a cell that UNIT_DISABLE has named is DISABLED with cause 6; one that gave CAPACITY opens a
retake window (11 R370, 05 R166). -/
def State.carrierStart (n k : Nat) (s : State) : State :=
  if (s.cell n k).disDue then
    let gave := decide (0 < (s.cell n k).capacity)
    let s := s.cellEvent n k (fun x => x.toDisabled s.elapsed 6)
    if gave then s.phaseTrig n k s.elapsed else s
  else s

/-- The rows that are events of a cell's carrier period and pass no time: those that stand side by side come in one period. -/
def Instr.cellRow (c : Instr) : Bool :=
  match c with
  | .stuckSwitch .. | .noSwitching .. | .openPhase .. | .hiccup .. | .parkTimeout .. | .unitDisable _ | .vinReset _
  | .criticalTrip .. | .blockReset => true
  | _ => false

/-- The rank in R78 of a waiting row at a cell, 6 where it is no event there. -/
def State.cellRank (s : State) (n k : Nat) (c : Instr) : Nat :=
  let at_ := fun (m : CluIx) (j : CellIx) (on : Bool) (r : Nat) => if m.val == n && j.val == k && on then r else 6
  let if_ := fun (on : Bool) (r : Nat) => if on then r else 6
  let x := s.cell n k
  let on := x.st.switching && !x.vinStop
  match c with
  | .stuckSwitch m j p => at_ m j (on && decide (2 ≤ p)) 1
  | .noSwitching m j p => at_ m j (on && decide ((s.cellTh n k).noswN ≤ p)) 2
  | .openPhase m j p => at_ m j (on && decide ((s.cellTh n k).openN ≤ p)) 2
  | .unitDisable slot => if_ (match s.cmd? slot with
      | some q => q.opc == 0x18 && q.stage == .selected && !s.flt.fatal && s.accessible && s.gafClock == .running &&
          (s.switchSub q.unit).contains (uCell n k)
      | none => false) 2
  | .vinReset mv => if_ (decide (mv < s.vinResetMv) && !s.vin.rstreq) 3
  | .criticalTrip m e => if_ (!(vget (s.cl m).therm.sens e).elec && !s.trip) 3
  | .blockReset => if_ (s.supply && s.pins.rstN) 3
  | .hiccup m j p => at_ m j (on && decide ((s.cellTh n k).hiccupN ≤ p)) 4
  | .parkTimeout m j p => at_ m j (decide (s.sheet.hdr.parkN ≤ p)) 5
  | _ => 6

/-- The highest rank of the events at a cell that come in the same carrier period as the present row (R78), 6 where there is
none: a disable that waits for the carrier start, and the rows directly behind. DESIGN CHOICE: log entry 119. -/
def State.cellTop (s : State) (n k : Nat) : Nat :=
  (s.pending.takeWhile Instr.cellRow).foldl (fun r c => min r (s.cellRank n k c)) (if (s.cell n k).disDue then 2 else 6)

/-- A cell in PARK reports its park duty, a free value: the spec does not give the coefficients of the park loop (R97). -/
def State.parkReport (n k : Nat) (s : State) : State :=
  if (s.cell n k).st == .park then
    let p := s.drawNat
    p.2.modCell n k (fun c => { c with parkDuty := p.1 % 8192 })
  else s

/-- CELL_COMMAND_WORD: a word reaches the cell at a carrier start (R63, R66, R78). -/
def execCellCommandWord (n : CluIx) (k : CellIx) (w : BitVec 40) (m : PeriodMeas) (s : State) :
    Host.Outcome State Fault Refusal :=
  .next (
    -- an injected cycle-by-cycle offset limits this period (14 Table 14-8 KIND 4)
    let hit := fun (i : Inject) => i.kind == 4 && i.unit == uCell n k
    let inj := s.flt.injects.any hit
    let s := { s with flt := { s.flt with injects := s.flt.injects.filter (fun i => !hit i) } }
    let m := { m with cbc := m.cbc || inj }
    let s := ((s.carrierStart n k).accrue n).parkReport n k
    let r := (s.cell n k).word (s.cellTh n k) s.sheet.hdr.parkN s.elapsed s.pins.park (s.cellTop n k) w m
    -- the hardware ballast level of a VIN dip outranks BAL (11 R345)
    let c := if s.vin.frozen then { r.1 with drawn := 0 } else r.1
    let s := s.cellEvent n k (fun _ => c)
    if r.2 then s.injected inj (State.raise 0x005 (.unit (uCell n k)) 0) else s)

/-- PARK_TIMEOUT: carrier periods without a valid word (R77). -/
def execParkTimeout (n : CluIx) (k : CellIx) (periods : Nat) (s : State) : Host.Outcome State Fault Refusal :=
  .next ((s.parkReport n k).cellEvent n k (fun c =>
    let c := { c with prot := { c.prot with missN := periods } }
    if s.sheet.hdr.parkN ≤ periods && 5 ≤ s.cellTop n k then c.park s.elapsed else c))

/-! ## Fast paths (R85 to R89) -/

/-- KICK_END: recovery above the reference less DROOP_TH / 2, or KICK_T. -/
def execKickEnd (n : CluIx) (k : CellIx) (vout : Nat) (s : State) : Host.Outcome State Fault Refusal :=
  .next (
    let c := s.cell n k
    let th := s.cellTh n k
    if !c.fast.kickOn then s
    else
      let s := if c.refUv < vout + 1000 * th.droopTh then s else s.advanceTo (cdiv c.fast.kickBy 2)
      s.modCell n k (fun c => { c with fast := { c.fast with
        kickOn := false, kickRearmAt := min c.fast.kickBy (2 * s.elapsed) + 2 * th.kickRearm } }))

/-- KICK_REARM: KICK_REARM after the end of a kick. -/
def execKickRearm (n : CluIx) (k : CellIx) (s : State) : Host.Outcome State Fault Refusal :=
  .next (
    let c := s.cell n k
    if c.fast.kickOn || c.fast.kickArmed then s
    else (s.advanceTo (cdiv c.fast.kickRearmAt 2)).modCell n k (fun c => { c with fast := { c.fast with kickArmed := true } }))

/-- The overshoot comparator of a cell trips at a VOUT. -/
def State.truncNow (n k vout : Nat) (s : State) : State :=
  s.modCell n k (fun c =>
    if !c.vinStop && c.truncTrips (s.cellTh n k) vout then
      { c with fast := { c.fast with truncOn := true, nTrunc := c.fast.nTrunc + 1 }, bits := { c.bits with trunc := true } }
    else c)

/-- TRUNCATION: VOUT above the reference by OVS_TH. -/
def execTruncation (n : CluIx) (k : CellIx) (vout : Nat) (s : State) : Host.Outcome State Fault Refusal :=
  .next (s.truncNow n k vout)

/-- TRUNCATION_END: VOUT below the threshold at a carrier start; a held duty word takes effect (R88). -/
def execTruncationEnd (n : CluIx) (k : CellIx) (vout : Nat) (s : State) : Host.Outcome State Fault Refusal :=
  .next (s.modCell n k (fun c =>
    if c.fast.truncOn && decide (vout < c.refUv + 2000 * (s.cellTh n k).ovsTh) then
      let c' := { c with fast := { c.fast with truncOn := false, heldDuty := none } }
      match c.fast.heldDuty with
      | some (d, f) => { c' with duty := d, frac := f }
      | none => c'
    else c))

/-- The shunt comparator of a cell trips at a VOUT. -/
def State.shuntNow (n k vout : Nat) (s : State) : State :=
  s.modCell n k (fun c =>
    if !c.vinStop && c.shuntTrips (s.cellTh n k) vout then
      { c with
        fast := { c.fast with shuntOn := true, shuntArmed := false, shuntBy := s.elapsed + (s.cellTh n k).shuntT,
                              nShunt := c.fast.nShunt + 1 }
        bits := { c.bits with shunt := true } }
    else c)

/-- SHUNT: VOUT above the reference by SHUNT_TH. -/
def execShunt (n : CluIx) (k : CellIx) (vout : Nat) (s : State) : Host.Outcome State Fault Refusal :=
  .next (s.shuntNow n k vout)

/-- SHUNT_END: recovery below the reference plus OVS_TH, or SHUNT_T. -/
def execShuntEnd (n : CluIx) (k : CellIx) (vout : Nat) (s : State) : Host.Outcome State Fault Refusal :=
  .next (
    let c := s.cell n k
    if !c.fast.shuntOn then s
    else
      let s := if vout < c.refUv + 2000 * (s.cellTh n k).ovsTh then s else s.advanceTo c.fast.shuntBy
      s.modCell n k (fun c => { c with fast := { c.fast with shuntOn := false, shuntRearmAt := s.elapsed + 50 } }))

/-- SHUNT_REARM: 50 ns after the end of a shunt. -/
def execShuntRearm (n : CluIx) (k : CellIx) (s : State) : Host.Outcome State Fault Refusal :=
  .next (
    let c := s.cell n k
    if c.fast.shuntOn || c.fast.shuntArmed then s
    else (s.advanceTo c.fast.shuntRearmAt).modCell n k (fun c => { c with fast := { c.fast with shuntArmed := true } }))

/-! ## Over-current (R90 to R92) -/

/-- OVERLOAD_TIMER: the timer has run OVL_T. -/
def execOverloadTimer (n : CluIx) (k : CellIx) (s : State) : Host.Outcome State Fault Refusal :=
  .next (match (s.cell n k).prot.ovlSince with
    | none => s
    | some t => (s.advanceTo (t + (s.cellTh n k).ovlT * 1000)).modCell n k (fun c =>
        { c with prot := { c.prot with ovlExp := true } }))

/-- HICCUP: the count of consecutive limited cycles; a hardware park level outranks it (R78). -/
def execHiccup (n : CluIx) (k : CellIx) (cycles : Nat) (s : State) : Host.Outcome State Fault Refusal :=
  .next (
    let th := s.cellTh n k
    let c := s.cell n k
    if !c.st.switching || c.vinStop || decide (s.cellTop n k < 4) then s
    else
      let c := { c with prot := { c.prot with limN := cycles } }
      if cycles < th.hiccupN then s.modCell n k (fun _ => c)
      else if s.pins.park && c.st != .park then s.cellEvent n k (fun _ => c.park s.elapsed)
      else
        let r := c.hiccup th s.elapsed
        let s := s.cellEvent n k (fun _ => r.1)
        if r.2 then s.raise 0x005 (.unit (uCell n k)) 0 else s)

/-- HICCUP_HOLD: the hold-off has run out; a retry begins (R91). -/
def execHiccupHold (n : CluIx) (k : CellIx) (m : PeriodMeas) (s : State) : Host.Outcome State Fault Refusal :=
  .next (
    let c := s.cell n k
    if c.st != .hiccup then s
    else
      let s := s.advanceTo c.prot.hiccBy
      s.modCell n k (fun c => c.retryNow s.elapsed s.pins.park m))

/-- RETRY_RESET: 100 us in RUN, BALLAST or PARK without a hiccup (R92). -/
def execRetryReset (n : CluIx) (k : CellIx) (s : State) : Host.Outcome State Fault Refusal :=
  .next (
    let c := s.cell n k
    match c.prot.cleanSince with
    | none => s
    | some t =>
      if c.st.running || c.st == .park then
        (s.advanceTo (t + 100000)).modCell n k (fun c => { c with prot := { c.prot with retry := 0, retrying := false } })
      else s)

/-! ## Self-test and start (R81 to R84) -/

/-- The domain of a cell is switched on. -/
def State.cellOn (s : State) (n k : Nat) : Bool :=
  match s.sheet.cellDom n k with
  | some d => (s.dm d).on
  | none => false

/-- START_DONE: the first sample with VOUT within START_WIN of the reference the cell makes for: RUN from START, and the end
of a soft start in another state (R80, R84). -/
def execStartDone (n : CluIx) (k : CellIx) (vout : Nat) (s : State) : Host.Outcome State Fault Refusal :=
  .next ((s.accrue n).modCell n k (fun c =>
    let w := 1000 * (s.cellTh n k).startWin
    if !c.vinStop && decide (c.target ≤ vout + w) && decide (vout ≤ c.target + w) then
      if c.st == .start then c.toRun s.elapsed
      else if c.softStart then { c with softStart := false, preHigh := false }
      else c
    else c))

/-- START_TIMEOUT: START_TO with VOUT still above VREF + START_WIN (R83). -/
def execStartTimeout (n : CluIx) (k : CellIx) (vout : Nat) (s : State) : Host.Outcome State Fault Refusal :=
  .next (
    let c := s.cell n k
    let th := s.cellTh n k
    if (c.st == .start || c.softStart) && c.startArmed then
      let s := s.advanceTo (c.startAt + th.startTo * 1000)
      if c.target + 1000 * th.startWin < vout then
        (s.modCell n k (fun c => { c with startArmed := false, bits := { c.bits with prebiasHigh := true } })).raise
          0x006 (.unit (uCell n k)) (codeOf vout)
      else s.modCell n k (fun c => { c with startArmed := false })
    else s)

/-! ## Phase-failure detectors (R99, 05 R166) -/

/-- The detectors run: the cell switches and its stage is on. -/
def Cell.watched (c : Cell) : Bool := c.st.switching && !c.vinStop

/-- An open phase (05 R166): DISABLED with cause 2, a DEGRADED fault, and the retake window. -/
def State.openPhase (n k detail t0 : Nat) (s : State) : State :=
  let s := s.cellEvent n k (fun c => c.toDisabled s.elapsed 2)
  (s.raise 0x002 (.unit (uCell n k)) detail).phaseTrig n k t0

/-- STUCK_SWITCH: two periods; isolation opens (R99). -/
def execStuckSwitch (n : CluIx) (k : CellIx) (periods : Nat) (s : State) : Host.Outcome State Fault Refusal :=
  .next (
    if !(s.cell n k).watched then s
    else if periods < 2 then s.modCell n k (fun c => { c with prot := { c.prot with stuckN := periods } })
    else (s.cellEvent n k (fun c => c.toDisabled s.elapsed 3)).raise 0x003 (.unit (uCell n k)) 0)

/-- NO_SWITCHING: NOSW_N periods (R99). -/
def execNoSwitching (n : CluIx) (k : CellIx) (periods : Nat) (s : State) : Host.Outcome State Fault Refusal :=
  .next (
    if !(s.cell n k).watched then s
    else if periods < (s.cellTh n k).noswN then
      s.modCell n k (fun c => { c with prot := { c.prot with noswN := periods } })
    else if s.cellTop n k < 2 then s
    else (s.cellEvent n k (fun c => c.toDisabled s.elapsed 4)).raise 0x004 (.unit (uCell n k)) 0)

/-- OPEN_PHASE: OPEN_N periods (R99, 05 R166); the retake window opens at the first of them. -/
def execOpenPhase (n : CluIx) (k : CellIx) (periods : Nat) (s : State) : Host.Outcome State Fault Refusal :=
  .next (
    if !(s.cell n k).watched then s
    else if periods < (s.cellTh n k).openN then
      s.modCell n k (fun c => { c with prot := { c.prot with openN := periods } })
    else if s.cellTop n k < 2 then s
    else s.openPhase n k 0 (s.elapsed - s.periodsNs n periods))

/-- SENSE_IMPLAUSIBLE: SENSE_N periods set SENSE_SUSP (R99), retake cause 2 (06 Table 6-12). -/
def execSenseImplausible (n : CluIx) (k : CellIx) (periods : Nat) (s : State) : Host.Outcome State Fault Refusal :=
  .next (
    if !(s.cell n k).watched then s
    else if periods < (s.cellTh n k).senseN then
      s.modCell n k (fun c => { c with prot := { c.prot with senseN := periods } })
    else if (s.cell n k).bits.senseSusp then s
    else
      let s := s.modCell n k (fun c => { c with bits := { c.bits with senseSusp := true } })
      let s := s.modCl n (fun c => { c with ctl := { c.ctl with
        lanes := vmod c.ctl.lanes k (fun l => { l with susSince := some (l.susSince.getD s.elapsed) }) } })
      match s.sheet.cellDom n k with
      | some d => s.trigAt (some d) 2 (uCell n k) (s.elapsed - s.periodsNs n periods) s.elapsed
      | none => s)

/-! ## VIN at a cell (R80) -/

/-- CELL_VIN_STOP: VIN at the cell below 1.30 V: isolation opens and switching stops, the state stays. -/
def execCellVinStop (n : CluIx) (k : CellIx) (mv : Nat) (s : State) : Host.Outcome State Fault Refusal :=
  .next (
    if 1300 ≤ mv then s
    else s.modCell n k (fun c =>
      { c with vinStop := true, isoOpen := true, drawn := 0
               pulse := if c.pulses then { c.pulse with offAt := s.elapsed } else c.pulse
               fast := { nKick := c.fast.nKick, nTrunc := c.fast.nTrunc, nShunt := c.fast.nShunt }
               bits := { c.bits with whole := false, clampHi := false, clampLo := false } }))

/-- CELL_VIN_RESUME: VIN above 1.40 V: a state that switches comes back through a soft start from the measured VOUT, and
isolation is as the state has it (R80, Table 3-5). -/
def execCellVinResume (n : CluIx) (k : CellIx) (mv vout : Nat) (s : State) : Host.Outcome State Fault Refusal :=
  .next (
    if mv ≤ 1400 then s
    else s.modCell n k (fun c =>
      if !c.vinStop then c
      else if c.st.switching then Cell.soft s.elapsed vout (1000 * mv) { c with vinStop := false, pulse := { c.pulse with onAt := s.elapsed } }
      else { c with vinStop := false, isoOpen := c.st == .idle || c.st == .disabled }))

end Sys2Proof.Machine
end

