-- ==== Sys2Proof/Machine/Sense.lean ====
section
/-! DEFINITION. The sense units and the board-facing sense pairs (chapter 09): frames, urgent conversions, the checker,
background correction, open wires, the queue and the legacy window, with what a suspect channel does to its lane
(05 R165, R168, R169). -/

namespace Sys2Proof.Machine
open Sys2Proof

/-! ## Suspect channels (R290, 05 R165 to R170) -/

/-- Lane `k` of a cluster changed. -/
def State.modLane (n k : Nat) (f : Lane → Lane) (s : State) : State :=
  s.modCl n (fun c => { c with ctl := { c.ctl with lanes := vmod c.ctl.lanes k f } })

/-- Lane `k` of cluster `n`. -/
def State.lane (s : State) (n k : Nat) : Lane := vget (s.cl n).ctl.lanes k

/-- SHADOW_MAX of a half (05 R169). -/
def State.shadowMax (s : State) (n : Nat) : Nat :=
  let m := fld (s.cl n).cfg.cm.toNat 16 4
  if s.sheet.isSplit n then m / 2 else m

/-- A confirmed current-sense fault of a running lane: shadow-share, or MODE PARK beyond the limit or with fewer than
two contributing lanes (05 R168, R169). -/
def State.shadowJudge (n h k : Nat) (s : State) : State :=
  let inSh := (s.sheet.cells n h).filter (fun j => (s.lane n j).shadow)
  if inSh.length < s.shadowMax n && decide (2 ≤ (s.contrib n h).length) then
    (s.modLane n k (fun l => { l with shadow := true })).raise 0x007 (.unit (uCell n k)) 0
  else (s.modLane n k (fun l => { l with shParked := true })).raise 0x008 (.unit (uCell n k)) 0

/-- The lanes of a half whose current sense is confirmed faulty, judged when their cells run; with fewer than two
contributing lanes every shadow lane is parked (05 R169). -/
def State.shadowCheck (n h : Nat) (s : State) : State :=
  let cells := s.sheet.cells n h
  let new := cells.filter (fun k => (s.lane n k).iSusp && !(s.lane n k).shadow && !(s.lane n k).shParked &&
    (s.cell n k).st.running)
  let s := each new (fun k s => s.shadowJudge n h k) s
  if (s.contrib n h).length < 2 then
    each (cells.filter (fun k => (s.lane n k).shadow)) (fun k s =>
      (s.modLane n k (fun l => { l with shadow := false, shParked := true })).raise 0x008 (.unit (uCell n k)) 0) s
  else s

/-- A confirmed current-sense fault of cell `k` (05 R168). -/
def State.iConfirm (n k : Nat) (s : State) : State :=
  (s.modLane n k (fun l => { l with iSusp := true })).shadowCheck n (s.sheet.cellHalf n k)

/-- A confirmed voltage-sense fault of cell `k`: voltage substitution (05 R165). -/
def State.vConfirm (n k : Nat) (s : State) : State :=
  if (s.lane n k).vSub then s
  else (s.modLane n k (fun l => { l with vSub := true })).raise 0x009 (.unit (uCell n k)) 0

/-- The sense unit of a cluster changed. -/
def State.modSense (n : Nat) (f : Sense → Sense) (s : State) : State := s.modCl n (fun c => { c with sense := f c.sense })

/-- Channel 32 marked suspect (R297). -/
def State.vinSusp (n : Nat) (s : State) : State :=
  if (s.cl n).sense.susp.getLsbD 32 then s
  else (s.modSense n (fun x => { x with susp := x.susp ||| (1 <<< 32 : BitVec 33), vinBad := 0, vinGood := 0 })).raise
    0x023 (.unit (uClu n)) 0

/-- Channel `ch` marked suspect, with the retake window from `t0` to `t1` (R290, R296). -/
def State.markSusp (n ch t0 t1 : Nat) (s : State) : State :=
  if (s.cl n).sense.susp.getLsbD ch then s
  else if ch == 32 then s.vinSusp n
  else
    let k := ch % 16
    let s := s.modSense n (fun x => { x with susp := x.susp ||| BitVec.ofNat 33 (2 ^ ch) })
    match s.sheet.cellDom n k with
    | none => s
    | some d =>
      if !(s.sheet.allCells n).contains k then s
      else
        let s := s.trigAt (some d) 2 (uCell n k) t0 t1
        if ch < 16 then s.vConfirm n k else s.iConfirm n k

/-- A TEST that passes clears the marks of its cell and ends substitution (R290), and shadow-share where UNIT_DISABLE came
before it (05 R170). -/
def State.senseClear (n k : Nat) (s : State) : State :=
  let m := BitVec.ofNat 33 (2 ^ k + 2 ^ (16 + k))
  let s := s.modSense n (fun x => { x with
    susp := x.susp &&& ~~~m
    dis := Tab.del (Tab.del x.dis k) (16 + k), disAt := Tab.del (Tab.del x.disAt k) (16 + k) })
  let keep := (s.lane n k).shadow && !(s.lane n k).udis
  let s := s.modLane n k (fun l => { l with
    shadow := keep, vSub := false, iSusp := keep, shParked := false, udis := false, cmClass := 0, cmN := 0, susSince := none })
  if keep then s else s.closeUnit (uCell n k) [0x007]

/-! ## Results (R280, R281) -/

/-- Lowest and highest code of a channel. -/
def chRange (ch : Nat) : Int × Int := if 16 ≤ ch && ch < 32 then (-2048, 2047) else (0, 4095)

/-- A converted value clamped to its channel's range, with CLIP. -/
def clipCode (ch : Nat) (v : Int) : Int × Bool :=
  let r := chRange ch
  (clampI r.1 r.2 v, decide (v < r.1) || decide (r.2 < v))

/-- The 16 bits of a result (R281). -/
def align16 (left : Bool) (code : Int) : BitVec 16 :=
  if left then BitVec.ofNat 16 (16 * tc 12 code) else BitVec.ofInt 16 code

/-- A queue entry (Table 9-4). -/
def sQueueEntry (left : Bool) (ch : Nat) (r : SRes) (susp urg chk : Bool) : Word64 :=
  BitVec.ofNat 64 (pack [(16, (align16 left r.code).toNat), (6, ch), (1, b2n r.held), (1, b2n susp), (1, b2n r.clip),
    (1, b2n urg), (1, b2n chk), (4, 0), (1, 1), (32, r.hold)])

/-- An entry arrives at the queue of 256 (R300). -/
def Sense.push (wrap : Bool) (e : Word64) (x : Sense) : Sense :=
  if x.queue.length < 256 then { x with queue := x.queue ++ [e] }
  else if wrap then { x with queue := x.queue.tail ++ [e], ovr := true, qLost := satInc 16 x.qLost }
  else { x with ovr := true, qLost := satInc 16 x.qLost }

/-! ## Windows and hold instants (R282, R283, R285) -/

/-- The stage of a cell pulsed at an instant of a window that has just passed. -/
def Cell.pulsedAt (t : Nat) (c : Cell) : Bool :=
  if c.pulses then decide (c.pulse.onAt ≤ t) || decide (t < c.pulse.offAt)
  else decide (c.pulse.onAt ≤ t) && decide (t < c.pulse.offAt)

/-- W of R282 at carrier frequency `f`: the master's period, rounded up to whole ns, plus 1 ns. -/
def windowLen (f : Nat) : Nat := cdiv 26214400000 f + 1

/-- Start of the window of a channel in the frame of `b` (R282, R285). -/
def windowAt (b ch : Nat) : Nat := if 16 ≤ ch && ch < 32 then b - 40 else b - 24

/-- Trigger events of cell `k` after a window start `t0`, in ps after it, without the delay: the carrier start plus half of
the on-time commanded for that period, for the period that runs at `t0` and the two after it (R283). `duty` is the duty in
force at an instant in ps, in quarter steps. -/
def trigEvents (f ph k t0 : Nat) (duty : Nat → Nat) : List Int :=
  let e := ph + 65 * turnU - slotPh k
  (List.range 3).map (fun (j : Nat) =>
    let start : Int := (j : Int) * turnU - ((e % turnU : Nat) : Int)
    let d := duty (1000 * (t0 : Int) + start * 1000 / (2 * (f : Int))).toNat
    let on := d / 4 + b2n (decide ((e / turnU + j) % 4 < d % 4))
    (start + ((on * (turnU / 4096) : Nat) : Int)) * 1000 / (2 * (f : Int)))

/-- Duty commanded for a period of cell `k` that starts at an instant in ps, in quarter steps: that of the word in force
then. -/
def State.dutyAt (s : State) (n k ps : Nat) : Nat :=
  let c := s.cell n k
  let m : PeriodMeas := { vout := uvOf (s.code n k).toNat, vin := 1000000 + 500 * (s.code n 32).toNat, imean := 0, cbc := false }
  match (c.pulse.earlier.filter (fun e => decide (ps < 1000 * e.1))).getLast? with
  | some e => e.2
  | none => (c.applied (s.cellTh n k) m).1

/-- Section 0x0003 as a cluster uses it in a frame that starts at an instant: a sheet loaded in service acts from the first
frame after its broadcast (R305). -/
def State.s3Of (s : State) (n start : Nat) : Sec3 :=
  match (s.cl n).sense.s3Was with
  | some (old, t) => if start < t then old else s.sheet.s3
  | none => s.sheet.s3

/-- Section 0x0003 in the frame under way: frames start 40 ns before each multiple of 32 ns. -/
def State.s3Now (s : State) (n : Nat) : Sec3 := s.s3Of n (s.elapsed - (s.elapsed + 8) % 32)

/-- The hold of channel `ch` in the frame of `b`, in ps of elapsed time; none where a switching cell has no trigger event in
the window (R283, R285). `pulse` names the cells in TEST whose stage pulses, at DMIN (03 Table 3-7). -/
def State.holdAt (s : State) (n b : Nat) (pulse : BitVec 16) (ch : Nat) : Option Nat :=
  let c3 := s.s3Of n (b - 40)
  let t0 := windowAt b ch
  if ch == 32 then some (1000 * t0)
  else
    let k := ch % 16
    let c := s.cell n k
    let dly := 125 * (if ch < 16 then c3.dlyV else c3.dlyI)
    let test := c.st == .test && pulse.getLsbD k
    if (if ch < 16 then c3.trigV else c3.trigI) || !(test || c.pulsedAt t0) then some (1000 * t0 + dly)
    else
      let x := (s.carr n).seen t0
      let f := x.freq t0
      let ph := x.phaseAt t0 + (if x.phFree then Config.edgePhase s.edgeKey n else 0)
      let duty := fun (ps : Nat) => if test then 4 * (s.cellTh n k).dmin else s.dutyAt n k ps
      let evs := (trigEvents f ph k t0 duty).map (fun e => e + (dly : Int))
      match evs.find? (fun e => decide (0 ≤ e) && decide (e < 1000 * (windowLen f : Int))) with
      | none => none
      | some e =>
        let ps := 1000 * t0 + e.toNat
        if test || c.pulsedAt (ps / 1000) then some ps else none

/-! ## One frame (R282 to R294) -/

/-- First slot of slice `sl` of the frame of `b` at or after an instant in ps, among `lo` to 7; 8 when there is none. -/
def slotAt (b sl lo ps : Nat) : Nat :=
  ((List.range 8).filter (fun m => decide (lo ≤ m) && decide (ps + 37000 ≤ 1000 * (b + sl + 4 * m)))).head?.getD 8

/-- Slots of one class of a slice: holds in the order of closing, each the first free slot from `lo` on (R284). -/
def assignSlots (b sl lo : Nat) : List (Nat × Nat) → List (Nat × Nat) → List (Nat × Nat)
  | [], acc => acc
  | (ch, ps) :: t, acc =>
    let free := (List.range 4).map (fun i => lo + i)
    let m := (free.filter (fun m => decide (slotAt b sl lo ps ≤ m) && !acc.any (fun a => a.2 == m))).head?
    assignSlots b sl lo t (acc ++ [(ch, m.getD 8)])

/-- The slots of the held channels of a slice: currents in 0 to 3, voltages in 4 to 7. -/
def sliceSlots (b sl : Nat) (hold : Nat → Option Nat) : List (Nat × Nat) :=
  let go := fun (base lo : Nat) =>
    let l := ((List.range 4).map (fun i => base + sl + 4 * i)).filterMap (fun ch => (hold ch).map (fun ps => (ch, ps)))
    assignSlots b sl lo (sortBy (fun a b : Nat × Nat => decide (a.2 < b.2)) l) []
  go 16 0 ++ go 0 4

/-- The urgent request that slice `sl` serves in the frame of `b`: captures before single shots, the earliest, then
the lowest channel (R292); its slot; and whether a further capture is discarded. -/
def urgentOf (c3 : Sec3) (b sl : Nat) (us : List Urgent) : Option (Urgent × Nat) × Nat :=
  let ps := fun (u : Urgent) => 1000 * u.at_ + (if u.single then 0 else 125 * c3.dcapDly)
  let mine := us.filter (fun u => u.ch != 32 && u.ch % 4 == sl && decide (slotAt b sl 0 (ps u) < 8))
  let caps := sortBy (fun a b : Urgent => decide (a.at_ < b.at_) || (a.at_ == b.at_ && decide (a.ch < b.ch)))
    (mine.filter (fun u => !u.single))
  match caps, mine.filter (fun u => u.single) with
  | u :: t, _ => (some (u, slotAt b sl 0 (ps u)), t.length)
  | [], u :: _ => (some (u, slotAt b sl 0 (ps u)), 0)
  | [], [] => (none, 0)

/-- What the checker's comparison of one channel says: skipped, agrees, disagrees (R289). -/
inductive Cmp where
  | skip | agree | differ
  deriving DecidableEq, Repr

/-- The comparison of a channel's A and B results. -/
def cmpOf (pw : Nat) (r : SRes) (ch : Nat) (vb : Int) : Cmp :=
  let b := clipCode ch vb
  if r.held || r.clip || b.2 then .skip
  else if (pw : Int) < (r.code - b.1).natAbs then .differ else .agree

/-- Sums of the background correction after one comparison (R287). -/
def Corr.add (r prev : SRes) (ch : Nat) (vb : Int) (c : Corr) : Corr :=
  let d := r.code - (clipCode ch vb).1
  let mid : Int := if ch < 16 then 2048 else 0
  { c with sumD := c.sumD + d, n := c.n + 1, sumG := c.sumG + d * (r.code - mid).sign,
           sumT := c.sumT + d * (r.code - prev.code).sign }

/-- An offset injected into ADC-B's result of a channel (14 Table 14-8 KIND 1), and the injections after the
comparison. -/
def injB (n ch : Nat) (l : List Inject) : Int × List Inject :=
  match l.find? (fun i => i.kind == 1 && i.unit == uClu n && fld i.arg.toNat 0 6 == ch) with
  | none => (0, l)
  | some i => ((fld i.arg.toNat 8 8 : Nat),
      (l.map (fun j => if j == i then { j with left := j.left - 1 } else j)).filter (fun j => j.left != 0))

/-- The sense unit runs: clock and woken. It runs as soon as the clock does, before the takeover that ends a cluster reset
(R286). -/
def State.senseRuns (s : State) (n : Nat) : Bool := (s.cl n).clock == .running && (s.cl n).woke

/-- One comparison counted (R289): consecutive disagreements and the hold of the first. -/
def Sense.count (ch : Nat) (r : Cmp) (hold : Nat) (x : Sense) : Sense :=
  match r with
  | .skip => x
  | .agree => { x with dis := Tab.del x.dis ch, disAt := Tab.del x.disAt ch }
  | .differ =>
    let n := Tab.getN x.dis ch
    { x with dis := Tab.put x.dis ch (n + 1)
             disAt := if n == 0 then Tab.put x.disAt ch hold else x.disAt
             cycle := if x.cycle.contains ch then x.cycle else x.cycle ++ [ch] }

/-- Widespread disagreement (R291): 6 or more channels in one cycle, all of one slice, whose 8 channels are marked, or of
several, where ADC-B is at fault and checking stops. -/
def State.widespread (n t sl : Nat) (inj : Bool) (s : State) : State :=
  let x := (s.cl n).sense
  if x.cycle.all (fun c => c % 4 == sl) then
    let failed := x.sliceFail.getLsbD sl
    let s := s.modSense n (fun x => { x with sliceFail := x.sliceFail ||| BitVec.ofNat 4 (2 ^ sl) })
    let s := each ((List.range 32).filter (fun c => c % 4 == sl)) (fun c s => s.markSusp n c (Tab.getD x.disAt c t) t) s
    if failed then s else s.injected inj (State.raise 0x020 (.unit (uClu n)) sl)
  else
    (s.modSense n (fun x => { x with chkFail := true, dis := [], disAt := [], cycle := [] })).injected inj
      (State.raise 0x021 (.unit (uClu n)) 0)

/-- One comparison of the checker, made at the instant `t` (R287 to R291): channel `ch`, ADC-A's result and the one before
it, ADC-B's value, and section 0x0003 as its frame uses it. -/
def State.compare (n ch t : Nat) (c3 : Sec3) (r prev : SRes) (vb : Int) (inj : Bool) (s : State) : State :=
  if (s.cl n).sense.chkFail then s
  else
    let cmp := cmpOf (if ch < 16 then c3.pwV else c3.pwI) r ch vb
    let s := s.modSense n (fun x => { x.count ch cmp r.hold with
      corr := vmod x.corr (ch % 4) (fun c => if cmp == .skip then c else c.add r prev ch vb) })
    let x := (s.cl n).sense
    if cmp != .differ then s
    else if 6 ≤ x.cycle.length then s.widespread n t (ch % 4) inj
    else if c3.chkN ≤ Tab.getN x.dis ch then s.injected inj (State.markSusp n ch (Tab.getD x.disAt ch t) t)
    else s

/-- The voltage comparison of the last frame, made 8 ns after its boundary (R288), without its queue entry. -/
def State.settleVolt (n : Nat) (s : State) : State :=
  match (s.cl n).sense.volt with
  | none => s
  | some v => (s.modSense n (fun x => { x with volt := none })).compare n v.ch v.due (s.s3Of n (v.due - 48)) v.res v.prev v.b v.inj

/-- The clock stops: the voltage check that was converted by now has been compared and its entry queued (R288, R298); one whose
conversion has not ended is lost. -/
def State.endVolt (n : Nat) (s : State) : State :=
  match (s.cl n).sense.volt with
  | none => s
  | some v =>
    if s.elapsed < v.due then s.modSense n (fun x => { x with volt := none })
    else (s.settleVolt n).modSense n (fun x => match v.entry with
      | some e => x.push (bit (s.cl n).cfg.qCtrl.toNat 1) e
      | none => x)

/-- Cause 1 (06 Table 6-12): a measured VOUT code of a cell below r less GBAND of a shot, at the boundary `t`. -/
def State.guardCheck (n k t : Nat) (code : Int) (s : State) : State :=
  match s.sheet.cellDom n k with
  | none => s
  | some d =>
    match s.owner d with
    | none => s
    | some c =>
      let r := (s.half n (s.sheet.cellHalf n k)).ramp.r
      each ((s.cx c).played.filter (fun p => p.meets t t)) (fun p s =>
        let g := (s.cx c).gband p.guard
        if (s.cx c).plan && g != 63 && decide (4096 * code + 4096 * 4 * (g : Int) < (r : Int)) then
          s.issue c p.seq 1 (uCell n k) t t
        else s) s

/-- What a frame makes of the holds of its channels (R283, R284, R292, R293): each channel's hold in ps, its slot, 8 for
none, and the urgent request that each slice serves with its slot. -/
structure FramePlan where
  hold : Nat → Option Nat
  slot : Nat → Nat
  served : List (Nat × Urgent × Nat)
  drops : Nat

/-- The plan of the frame of `b`. -/
def State.framePlan (s : State) (n b : Nat) (m : FrameMeas) : FramePlan :=
  let holds := (List.range 33).map (s.holdAt n b m.pulse)
  let hold := fun (ch : Nat) => holds.getD ch none
  let slots := (List.range 4).flatMap (fun sl => sliceSlots b sl hold)
  let urg := (List.range 4).map (fun sl => (sl, urgentOf (s.s3Of n (b - 40)) b sl (s.cl n).sense.urgent))
  { hold
    slot := fun ch => ((slots.find? (fun p => p.1 == ch)).map (fun p => p.2)).getD 8
    served := urg.filterMap (fun p => p.2.1.map (fun u => (p.1, u.1, u.2)))
    drops := sumN (urg.map (fun p => p.2.2)) }

/-- An urgent request takes the channel's slot (R293). -/
def FramePlan.aborts (p : FramePlan) (ch : Nat) : Bool := p.served.any (fun u => u.1 == ch % 4 && u.2.2 == p.slot ch)

/-- The channel's result repeats the previous one: no trigger event, or its conversion aborted (R283, R293). -/
def FramePlan.held (p : FramePlan) (ch : Nat) : Bool :=
  decide (ch < 32) && ((p.hold ch).isNone || p.aborts ch || p.slot ch == 8)

/-- The frame of boundary `b` in cluster `n`. -/
def State.frame (n b : Nat) (m : FrameMeas) (s : State) : State :=
  let late := ((s.cl n).sense.volt.bind (fun v => v.entry))
  let s := s.settleVolt n
  let c3 := s.s3Of n (b - 40)
  let x := (s.cl n).sense
  let old := x.res
  let f := x.frame
  let p := s.framePlan n b m
  let res := fun (ch : Nat) =>
    if p.held ch then { vget old ch with held := true }
    else
      let v := clipCode ch (if ch == 32 then m.vin else m.a.getD ch 0)
      ({ code := v.1, held := false, clip := v.2, hold := (p.hold ch).getD 0 / 1000 } : SRes)
  let new : Vector SRes 33 := vmap (fun ch _ => res ch) old
  let lanes := b == (s.cl n).ctl.sampleAt
  let nHeld := ((List.range 32).filter p.held).length
  let nMiss := ((List.range 32).filter (fun ch => (p.hold ch).isNone)).length
  -- the check pair (R288)
  let j := f % 16
  let i1 := injB n (16 + j) s.flt.injects
  let i2 := injB n j i1.2
  let bI := m.bI + i1.1
  let bV := m.bV + i2.1
  let on := !x.chkFail
  -- urgent results: what is left of the requests, and those of channel 32, which the next hold of ADC-V serves (R293)
  let single := (sortBy (fun u v : Nat × Urgent × Nat => decide (u.1 + 4 * u.2.2 < v.1 + 4 * v.2.2))
    (p.served.filter (fun u => u.2.1.single))).getLast?
  let vinUrg := fun (u : Urgent) => u.ch == 32 && decide (u.at_ < b - 40)
  let vinReq := x.urgent.find? vinUrg
  let vinShot := vinReq.isSome
  -- the result of channel 32 completes last
  let sRes : Option Int := if vinShot then some (vget new 32).code
    else single.map (fun u => (clipCode u.2.1.ch (m.urg.getD u.1 0)).1)
  let gone := fun (u : Urgent) =>
    u.ch != 32 && !u.single && decide (slotAt b (u.ch % 4) 0 (1000 * u.at_ + 125 * c3.dcapDly) < 8)
  let left := (((p.served.filter (fun u => u.2.1.single)).map (fun u => u.2.1)) ++ vinReq.toList).foldl
    (fun l u => l.erase u) (x.urgent.filter (fun u => !gone u))
  let x := { x with
    res := new, cycle := if j == 0 then [] else x.cycle, frame := f + 1, frameAt := b + 32, urgent := left
    heldCnt := if lanes then satAdd 16 x.heldCnt nHeld else x.heldCnt
    trigMiss := satAdd 8 x.trigMiss nMiss, urgDrop := satAdd 6 x.urgDrop p.drops
    urgBusy := left.any (fun u => u.single), urgDone := x.urgDone || sRes.isSome
    urgRes := match sRes with
      | some v => align16 c3.align v
      | none => x.urgRes }
  -- the queue (R298 to R300), in the order of completion
  let q := (s.cl n).cfg.qCtrl.toNat
  let mask := (s.cl n).cfg.qMask
  let due := bit q 0 && f % 2 ^ (fld q 2 3) == 0
  let entry := fun (ch : Nat) (r : SRes) (u k : Bool) => sQueueEntry c3.align ch r (x.susp.getLsbD ch) u k
  let conv := ((List.range 32).filter (fun ch => mask.getLsbD ch)).map (fun ch =>
    (if p.held ch then 40 else ch % 4 + 4 * p.slot ch, entry ch (vget new ch) false false))
  let vin := if bit q 5 then [(36, entry 32 (vget new 32) false false)] else []
  let ur := if bit q 6 then p.served.map (fun u =>
      let v := clipCode u.2.1.ch (m.urg.getD u.1 0)
      let at_ := u.2.1.at_ + (if u.2.1.single then 0 else c3.dcapDly / 8)
      (u.1 + 4 * u.2.2, entry u.2.1.ch { code := v.1, held := false, clip := v.2, hold := at_ } true false)) ++
      (if vinShot then [(37, entry 32 (vget new 32) true false)] else []) else []
  let bEntry := fun (ch : Nat) (v : Int) =>
    let y := clipCode ch v
    if bit q 7 && on && due && (p.hold ch).isSome then
      some (entry ch { code := y.1, held := false, clip := y.2, hold := ((p.hold ch).getD 0) / 1000 } false true)
    else none
  let es := if due then conv ++ vin ++ ur else []
  let es := es ++ ((bEntry (16 + j) bI).toList.map (fun e => (25, e))) ++ (late.toList.map (fun e => (9, e)))
  let x := (sortBy (fun a b : Nat × Word64 => decide (a.1 < b.1)) es).foldl (fun x e => x.push (bit q 1) e.2) x
  let x := { x with volt := if on then some { ch := j, res := vget new j, prev := vget old j, b := bV, due := b + 8,
                                              inj := i2.1 != 0, entry := bEntry j bV } else none }
  let s := { s with flt := { s.flt with injects := i2.2 } }
  let s := s.modSense n (fun _ => x)
  -- the legacy window (R301)
  let sel := s.legacy.sel.toNat
  let lch := fld sel 6 6
  let s := if bit sel 12 && fld sel 0 6 == n && lch < 33 && !(vget new lch).held && f % 2 ^ (fld sel 13 3) == 0 then
      { s with legacy := { s.legacy with res := align16 c3.align (vget new lch).code, valid := true,
                                         ovr := s.legacy.ovr || s.legacy.valid } }
    else s
  -- captures are measured VOUT of the sample (R294)
  let s := each (p.served.filter (fun u => !u.2.1.single)) (fun u s =>
    s.guardCheck n u.2.1.ch b (clipCode u.2.1.ch (m.urg.getD u.1 0)).1) s
  -- the current comparison was made 8 ns before the boundary (R288)
  s.compare n (16 + j) (b - 8) c3 (vget new (16 + j)) (vget old (16 + j)) bI (i1.1 != 0)

/-- A frame that ends at no sample boundary feeds the continuity windows (R286): full redundancy mode. -/
def State.windowFrame (n : Nat) (s : State) : State :=
  let c := s.cl n
  let fresh := decide (winLen ≤ c.winAt)
  let one := fun (k : Nat) (ln : Lane) =>
    let x := vget c.cells k
    let bad := decide (0 < x.fast.nKick + x.fast.nTrunc + x.fast.nShunt)
    Lane.window fresh (s.laneV n (s.sheet.cellHalf n k) k) (s.code n (16 + k)) ln.duty x.st.running bad ln
  (s.modCl n (fun c => { c with ctl := { c.ctl with lanes := vmap one c.ctl.lanes } })).modCl n Cluster.winStep

/-- SENSE_FRAME: the next 32 ns frame of the cluster. Its results are there 1 ns before its boundary (R284). -/
def execSenseFrame (n : CluIx) (m : FrameMeas) (s : State) : Host.Outcome State Fault Refusal :=
  .next (
    if !s.senseRuns n then s
    else
      let b := max (s.cl n).sense.frameAt (nextBoundary 32 s.elapsed)
      let s := (s.advanceTo (b - 1)).frame n b m
      if s.redMode n && b != (s.cl n).ctl.sampleAt && s.samples n then s.windowFrame n else s)

/-! ## Background correction (R287) -/

/-- Which corrections of a slice stand at their limit: o in 1/8 LSB, at most 32 LSB; g in 2^-16, at most 1 %; tau in
62.5 fs, at most 2 ps. -/
def Corr.atLimit (c : Corr) : List Bool := [c.o.natAbs == 256, c.g.natAbs == 655, c.tau.natAbs == 32]

/-- Mean difference of a slice less the mean of the slices, as a fraction. -/
def corrDiff (cs : List Corr) (c : Corr) : Int × Int :=
  let act := cs.filter (fun c => 0 < c.n)
  let l : Int := act.foldl (fun p c => p * (c.n : Int)) 1
  let sum := sumI (act.map (fun c => c.sumD * (l / (c.n : Int))))
  -- D_s - D = (sumD l / n - sum / m) / l
  ((act.length : Int) * (c.sumD * (l / (c.n : Int))) - sum, (act.length : Int) * l)

/-- One slice after an update; CAL_LIM is set while a correction is at its limit (R287, R306). -/
def Corr.update (cs : List Corr) (c : Corr) : Corr :=
  let c := if c.n == 0 then c
    else
      let d := corrDiff cs c
      { c with
        o := clampI (-256) 256 (c.o + (if d.2 < 2 * d.1 then -1 else if 2 * d.1 < -d.2 then 1 else 0))
        g := clampI (-655) 655 (c.g - c.sumG.sign)
        tau := clampI (-32) 32 (c.tau - c.sumT.sign) }
  { o := c.o, g := c.g, tau := c.tau, lim := c.atLimit.any id }

/-- BACKGROUND_CORRECTION: the update of every 16 frames; each correction that reaches its limit raises a fault. -/
def execBackgroundCorrection (n : CluIx) (s : State) : Host.Outcome State Fault Refusal :=
  .next (
    let x := (s.cl n).sense
    if !s.senseRuns n || x.frame % 16 != 0 then s
    else
      let s := match x.volt with
        | none => s
        | some v => (s.advanceTo v.due).endVolt n
      let x := (s.cl n).sense
      if x.corr.toList.all (fun c => c.n == 0) then s
      else
        let new := vmap (fun _ c => Corr.update x.corr.toList c) x.corr
        let s' := s.modSense n (fun x => { x with corr := new })
        let reached := fun (sl : Nat) => (((vget x.corr sl).atLimit.zip (vget new sl).atLimit).filter (fun p => !p.1 && p.2)).length
        each (List.range 4) (fun sl s => each (List.range (reached sl)) (fun _ s => s.raise 0x022 (.unit (uClu n)) sl) s) s')

/-! ## Open wires (R295, R296) -/

/-- An input is open: its result moves by more than 64 counts between the ends of the two phases (R295). -/
def opened (ch : Nat) (v1 v2 : Int) : Bool := decide (64 < ((clipCode ch v2).1 - (clipCode ch v1).1).natAbs)

/-- An input found open: marked suspect with OPEN set. -/
def State.markOpen (n ch t0 t1 : Nat) (s : State) : State :=
  (s.modSense n (fun x => { x with open_ := x.open_ ||| BitVec.ofNat 33 (2 ^ ch) })).markSusp n ch t0 t1

/-- OPEN_WIRE_TEST: OW_INT has passed since the start of the last test: the next input in rotation. -/
def execOpenWireTest (n : CluIx) (s : State) : Host.Outcome State Fault Refusal :=
  .next (
    let w := (s.cl n).sense.ow
    if !s.senseRuns n || w.phase != 0 then s
    else
      let s := s.advanceTo w.nextAt
      s.modSense n (fun x => { x with ow := { x.ow with
        phase := 1, startAt := s.elapsed, nextAt := s.elapsed + 1000 * (s.s3Now n).owInt
        phaseBy := s.elapsed + 1000 * (s.s3Now n).owT } }))

/-- OPEN_WIRE_PHASE: the end of a phase, judged by the result that the input's regular conversions have at that moment. The
row's own operand, what the input is driven to, reaches that result through the frames only. -/
def execOpenWirePhase (n : CluIx) (_value : Int) (s : State) : Host.Outcome State Fault Refusal :=
  .next (
    let w := (s.cl n).sense.ow
    if !s.senseRuns n || w.phase == 0 then s
    else
      let s := s.advanceTo w.phaseBy
      let v := (vget (s.cl n).sense.res w.ch).code
      if w.phase == 1 then
        s.modSense n (fun x => { x with ow := { x.ow with
          phase := 2, first := v, phaseBy := s.elapsed + 1000 * (s.s3Now n).owT } })
      else
        let s' := s.modSense n (fun x => { x with ow := { x.ow with
          phase := 0, ch := (w.ch + 1) % 33, prev := Tab.put x.ow.prev w.ch w.startAt } })
        if opened w.ch w.first v then s'.markOpen n w.ch (Tab.getD w.prev w.ch w.startAt) s.elapsed else s')

/-! ## Register effects of the queue, single shots and the legacy window -/

/-- GO of SNS[n].URG: a single shot of a channel 0 to 32; one that finds another pending waits for its turn (R292). -/
def State.singleShot (n ch : Nat) (s : State) : State :=
  if ch ≤ 32 then
    s.modSense n (fun x => { x with
      urgCh := ch, urgBusy := true, urgent := x.urgent ++ [{ ch, single := true, at_ := s.elapsed }] })
  else s

/-- The head of the queue leaves it (R300). -/
def State.queuePop (n : Nat) (s : State) : State := s.modSense n (fun x => { x with queue := x.queue.tail })

/-- A droop capture requested by a kick (R292). -/
def State.capture (n k : Nat) (s : State) : State :=
  if (s.s3Now n).dcapDis || !s.senseRuns n then s
  else s.modSense n (fun x => { x with urgent := x.urgent ++ [{ ch := k, single := false, at_ := s.elapsed }] })

/-! ## Board-facing pairs (R302, R303) -/

/-- Package VIN, mV (R303). -/
def State.vPkg (s : State) : Nat := (if s.board.st0 == 0 then vget s.board.b 0 else vget s.board.b 2).toNat

/-- The AVSBus reference as the pairs stand, mV: B1 while it is Good, then B0 while it is Good, else B2 (R303). -/
def State.takeRef (s : State) : State :=
  let i := if s.board.st1 == 0 then 1 else if s.board.st0 == 0 then 0 else 2
  { s with board := { s.board with avsRef := (vget s.board.b i).toNat } }

/-- A pair leaves Good; it keeps its state. -/
def State.pairBad (b st : Nat) (s : State) : State :=
  let old := if b == 0 then s.board.st0 else s.board.st1
  if old != 0 || st == 0 then s
  else
    let bd := if b == 0 then { s.board with st0 := st } else { s.board with st1 := st }
    { s with board := bd }.raise 0x044 (.unit 0) (b + 4 * st)

/-- Consecutive counts of one pair after a reading: low, low or high, short. -/
def pairCounts (low bad short : Nat) (mv b2 : Int) : Nat × Nat × Nat :=
  (if mv < -50 then low + 1 else 0, if mv < -50 || 3000 < mv then bad + 1 else 0,
   if mv.natAbs < 100 && 1000 < b2 then short + 1 else 0)

/-- BOARD_SENSE_READING: one reading of B0, B1 or B2. -/
def execBoardSenseReading (b : Fin 3) (mv : Int) (s : State) : Host.Outcome State Fault Refusal :=
  .next (
    let x := s.board
    let mv := clampI (-32768) 32767 mv
    let x := { x with b := vset x.b b.val mv }
    if b.val == 2 then ({ s with board := x } : State).takeRef
    else
      let c := if b.val == 0 then pairCounts x.rev0 x.bad0 x.short0 mv (vget x.b 2)
        else pairCounts x.rev1 x.bad1 x.short1 mv (vget x.b 2)
      let x := if b.val == 0 then { x with rev0 := c.1, bad0 := c.2.1, short0 := c.2.2 }
        else { x with rev1 := c.1, bad1 := c.2.1, short1 := c.2.2 }
      let s := { s with board := x }
      (if 16 ≤ c.2.2 then s.pairBad b.val 2
       else if x.judged && decide (16 ≤ c.2.1) then s.pairBad b.val 1
       else s).takeRef)

/-- BOARD_SENSE_CHECK: the open-wire test of the pairs, at power-up and each 1 ms in service; `moved0`, `moved1` in mV. -/
def execBoardSenseCheck (moved0 moved1 : Int) (s : State) : Host.Outcome State Fault Refusal :=
  .next (
    let x := s.board
    let s := if x.judged then s.advanceTo x.checkAt else s
    let one := fun (b : Nat) (mv : Int) (rev : Nat) (s : State) =>
      if 64 < mv.natAbs then s.pairBad b 1
      else if !x.judged && decide (16 ≤ rev) then s.pairBad b 3 else s
    let s := one 1 moved1 x.rev1 (one 0 moved0 x.rev0 s)
    -- readings in service are those after the first judgement (Table 9-5)
    let fresh := fun (k : Nat) => if x.judged then k else 0
    { s with board := { s.board with
      judged := true, checkAt := s.elapsed + 1000000, bad0 := fresh s.board.bad0, bad1 := fresh s.board.bad1 } }.takeRef)

/-! ## Cell commands that reach the sense unit -/

/-- The droop comparator of a cell trips at a VOUT: the kick, and the capture it requests (03 R85, R87, R292). -/
def State.kickNow (n k vout : Nat) (s : State) : State :=
  let c := s.cell n k
  if !c.vinStop && c.kickTrips (s.cellTh n k) vout then
    (s.modCell n k (fun c => c.kick (s.cellTh n k) s.elapsed)).capture n k
  else s

/-- KICK: VOUT below the reference by DROOP_TH. -/
def execKick (n : CluIx) (k : CellIx) (vout : Nat) (s : State) : Host.Outcome State Fault Refusal :=
  .next (s.kickNow n k vout)

/-- The first check of TEST that fails, 0 when all pass (Table 3-7): `vout` is the cell's own reading, `lcal` its inductance
estimate in pH. -/
def CellTest.fail (vout lcal : Nat) (x : CellTest) : Nat :=
  if 10000 < vout - x.vAdc ∨ 10000 < x.vAdc - vout then 1
  else if x.iZero < -250 ∨ 250 < x.iZero then 2
  else if !((x.trips.zip [1200, 1000, 1000, 1000]).all (fun p => decide (p.1 ≤ p.2))) then 3
  else if !(x.toggles && x.freewheel && decide (100 ≤ x.ripple) && decide (x.ripple ≤ 2000)) then 4
  else if lcal < 2000 ∨ 12000 < lcal then 5
  else if x.open_ != 0 then 6
  else 0

/-- CELL_SELF_TEST: the end of TEST (R81, Table 3-7): IDLE or START when all checks pass, DISABLED at the first that fails. -/
def execCellSelfTest (n : CluIx) (k : CellIx) (x : CellTest) (lcal : Nat) (m : PeriodMeas) (s : State) :
    Host.Outcome State Fault Refusal :=
  .next (
    let fail := CellTest.fail m.vout lcal x
    if (s.cell n k).st != .test then s
    else if fail == 0 then
      let on := s.cellOn n k
      (s.modCell n k (fun c =>
        let c := { c with pass := true, lcal, preBias := m.vout }
        if on then c.toStart s.elapsed m.vout m.vin else c.toIdle s.elapsed)).senseClear n k
    else
      (s.modCell n k (fun c => { (c.toDisabled s.elapsed 1) with
        pass := false, preBias := if 2 ≤ fail then m.vout else c.preBias
        lcal := if 6 ≤ fail then lcal else c.lcal })).raise 0x001 (.unit (uCell n k)) fail)

end Sys2Proof.Machine
end

