-- ==== Sys2Proof/Machine/Sharing.lean ====
section
/-! DEFINITION. The commands of the control engine and of the share bus in a cluster: the sample, settling, bank swaps
(chapter 04), the continuity monitor, share-bus records and the loss of the Gaffer (chapter 05). -/

namespace Sys2Proof.Machine
open Sys2Proof

/-! ## The sample -/

/-- The cells of a cluster whose VOUT is judged against the guard of the shot that plays (06 Table 6-12, cause 1). -/
def State.guardAll (n : Nat) (s : State) : State :=
  let run := (s.sheet.allCells n).filter (fun k => (s.cell n k).st.running)
  each run (fun k s => s.guardCheck n k s.elapsed (s.code n k)) s

/-! ## Settling (04 R131) -/

/-- A domain's set-point command is over: no half awaits it. -/
def State.clearCmd (d : Nat) (s : State) : State :=
  each (s.sheet.domHalves d) (fun p s => s.modHalf p.1 p.2 (fun x => { x with ramp := { x.ramp with cmd := none } }))
    (s.modDm d (fun x => { x with cmd := none }))

/-- SETTLE_TIMEOUT: SETTLE_TO after r reached the target in the first cluster that has not settled. -/
def execSettleTimeout (d : DomIx) (s : State) : Host.Outcome State Fault Refusal :=
  .next (
    let late := (s.sheet.domHalves d).filterMap (fun p =>
      let r := (s.half p.1 p.2).ramp
      if r.done || !r.chg.isEmpty then none else r.reachedAt)
    match late with
    | [] => s
    | t :: l =>
      let s := s.advanceTo (l.foldl min t + 1000 * s.sheet.s2.settleTo)
      match (s.dm d).cmd with
      | some q => (s.endPart q d .timeout).clearCmd d
      | none => s.probeTimeout d)

/-! ## Bank swaps (R138 to R142) -/

/-- The conditions of R139 have held for four samples in every lane that runs. -/
def State.swapReady (s : State) (n : Nat) : Bool :=
  (s.sheet.allCells n).all (fun k => !(s.cell n k).st.running || decide (4 ≤ (s.lane n k).calm))

/-- Every lane rebased onto the inactive bank, which becomes the active one (R140); the ramp step follows its mode (R142). -/
def State.swapNow (n : Nat) (s : State) : State :=
  s.modCl n (fun c =>
    let b := c.ctl.inactive
    let r : Vector (Bool × Lane) 16 := vmap (fun k ln => Lane.rebase (vget b.lanes k) ln) c.ctl.lanes
    let clamp := r.toList.any (fun p => p.1)
    { c with
      ctl := { c.ctl with
        lanes := vmap (fun k ln => { (vget r k).2 with winBad := true, calm := ln.calm }) c.ctl.lanes
        activeB := !c.ctl.activeB, swap := none, swapClamp := c.ctl.swapClamp || clamp }
      halves := vmap (fun h (x : Half) => match s.sheet.halfDom n h with
        | some d => { x with ramp := { x.ramp with step := rampStep (s.dm d).rate b.red } }
        | none => x) c.halves })

/-- The clusters in which the swap of a command is deferred. -/
def State.swapMates (s : State) (slot : Nat) : List Nat :=
  s.sheet.cluIxs.filter (fun m => match (s.cl m).ctl.swap with
    | some (q, _) => q == slot
    | none => false)

/-- SWAP_EFFECT: the first sample boundary at which the conditions hold; the rebase comes before the sample (R141). A command
that reaches several clusters swaps nothing until they hold in every one of them, and then swaps them all (R139; log
entry 115). -/
def execSwapEffect (n : CluIx) (s : State) : Host.Outcome State Fault Refusal :=
  .next (match (s.cl n).ctl.swap with
    | none => s
    | some (q, _) =>
      if (s.swapMates q).all (fun m => s.swapReady m && s.samples m) && s.samples n then
        each (s.swapMates q) (fun m s => (s.swapNow m).endPart q m .done) (s.advanceTo (s.cl n).ctl.sampleAt)
      else s)

/-- SWAP_TIMEOUT: SWAP_TO has passed: nothing is swapped in any cluster of the command (R139). -/
def execSwapTimeout (n : CluIx) (s : State) : Host.Outcome State Fault Refusal :=
  .next (match (s.cl n).ctl.swap with
    | none => s
    | some (q, t) =>
      let s := s.advanceTo t
      each (s.swapMates q) (fun m s =>
        (s.modCl m (fun c => { c with ctl := { c.ctl with swap := none } })).endPart q m .timeout) s)

/-! ## The continuity monitor (R163 to R166) -/

/-- A judged window of one lane: residual r_V as a fraction of microvolts, and what the current says. -/
structure Judged where
  k : Nat
  num : Int
  den : Nat
  /-- |r_I| exceeds CM_IWIN; the mean lies below I_ref; the other lanes' mean rose as the phase class asks. -/
  iOut : Bool
  low : Bool
  rose : Bool
  deriving DecidableEq, Repr

/-- A residual lies within CM_VWIN. -/
def Judged.vIn (win : Nat) (j : Judged) : Bool := decide (j.num.natAbs ≤ 1000 * win * j.den)

/-- The median of residuals lies within CM_VWIN: none of an empty list, the mean of the middle two of an even one. -/
def medianIn (win : Nat) (l : List Judged) : Bool :=
  let s := sortBy (fun a b : Judged => decide (a.num * (b.den : Int) < b.num * (a.den : Int))) l
  let n := s.length
  match s[n / 2]?, s[n / 2 - 1]? with
  | some a, some b =>
    if n % 2 == 1 then a.vIn win
    else decide ((a.num * (b.den : Int) + b.num * (a.den : Int)).natAbs ≤ 2000 * win * a.den * b.den)
  | _, _ => false

/-- The window of lane `k` judged; none when it is discarded or has no source of I_ref (R163). -/
def State.judge (s : State) (n h k : Nat) : Option Judged :=
  let ln := s.lane n k
  if ln.winN != winLen || ln.winBad then none
  else
    let o := (s.contrib n h).filter (fun j => j != k && (s.lane n j).winN == winLen)
    let own := sumI (o.map (fun j => (s.lane n j).sumI))
    let src : Option (Int × Nat) :=
      if 2 ≤ o.length then some (own, o.length)
      else if (s.half n h).recValid then some (16 * (s.half n h).recMean, 1) else none
    match src with
    | none => none
    | some (ref, cnt) =>
      let iwin : Int := (fld (s.cl n).cfg.cm.toNat 6 6 : Nat)
      let rff : Int := ((vget (s.cl n).ctl.active.lanes k).rff : Nat)
      let c : Int := (cnt : Nat)
      let num := (4000000 + 250 * ln.sumV) * 8192 * c * 10 - (s.vinUv n : Nat) * ln.sumD * c * 10 + ref * 4 * rff * 8192
      let before : Int × Int := if 0 < ln.olderCnt then (ln.olderSum, ln.olderCnt) else (ln.prevSum, ln.prevCnt)
      let rose := decide (0 < o.length) && decide (0 < before.2) &&
        decide (ref * before.2 * (o.length : Int)
          ≤ 2 * (o.length : Int) * c * (own * before.2 - before.1 * (o.length : Int)))
      some { k, num, den := 16 * 8192 * cnt * 10
             iOut := decide (125 * iwin * 16 * c < 4 * ((ln.sumI * c - ref).natAbs : Int))
             low := decide (ln.sumI * c < ref), rose }

/-- The class of a judged window among those judged in the cluster (Table 5-5). -/
def classOf (win : Nat) (all : List Judged) (j : Judged) : Nat :=
  let out := all.filter (fun x => !x.vIn win)
  if !j.vIn win then
    if all.length < 2 * out.length then 4
    else if medianIn win (all.filter (fun x => x.k != j.k)) then 3 else 0
  else if j.iOut then (if j.low && j.rose then 1 else 2) else 0

/-- A confirmed class acts on its lane (Table 5-5): 1 open phase, 2 shadow-share, 3 voltage substitution; 4 reports the
VIN channel. -/
def State.confirm (n k cls t0 : Nat) (s : State) : State :=
  match s.sheet.cellDom n k with
  | none => s
  | some d =>
    if cls == 1 then s.openPhase n k 1 t0
    else if cls == 2 then
      if (s.lane n k).iSusp then s else (s.trigAt (some d) 3 (uCell n k) t0 s.elapsed).iConfirm n k
    else if cls == 3 then
      if (s.lane n k).vSub then s else (s.trigAt (some d) 3 (uCell n k) t0 s.elapsed).vConfirm n k
    else if cls == 4 then s.vinSusp n
    else s

/-- One judged lane: its class counted, and confirmed after CM_N windows, a current fault after one with SENSE_SUSP. -/
def State.countClass (n : Nat) (start cmN : Nat) (all : List Judged) (j : Judged) (s : State) : State :=
  let ln := s.lane n j.k
  let cls := classOf (fld (s.cl n).cfg.cm.toNat 0 6) all j
  if cls == 0 then s.modLane n j.k (fun l => { l with cmClass := 0, cmN := 0 })
  else
    let same := ln.cmClass == cls && decide (0 < ln.cmN)
    let cnt := if same then ln.cmN + 1 else 1
    let op := if same then ln.cmOpen else start
    let need := if cls == 2 && (s.cell n j.k).bits.senseSusp then 1 else max 1 cmN
    if need ≤ cnt then
      let t0 := if cls == 2 then min op (ln.susSince.getD op) else op
      (s.modLane n j.k (fun l => { l with cmClass := 0, cmN := 0, cmOpen := op })).confirm n j.k cls t0
    else s.modLane n j.k (fun l => { l with cmClass := cls, cmN := cnt, cmOpen := op })

/-- CONTINUITY_WINDOW: the end of a 16-sample window in the cluster. -/
def execContinuityWindow (n : CluIx) (s : State) : Host.Outcome State Fault Refusal :=
  .next (
    if (s.cl n).winAt != winLen || !s.samples n then s
    else
      let all := (s.hs n).flatMap (fun h => (s.sheet.cells n h).filterMap (fun k => s.judge n h k))
      let start := s.elapsed - 512
      let cmN := fld (s.cl n).cfg.cm.toNat 12 4
      let s' := each all (fun j s => s.countClass n start cmN all j) s
      each (s.hs n) (fun h s1 => each (s.sheet.cells n h) (fun k s1 =>
        let o := (s.contrib n h).filter (fun j => j != k && (s.lane n j).winN == winLen)
        s1.modLane n k (fun l => { l with
          olderSum := l.prevSum, olderCnt := l.prevCnt
          prevSum := sumI (o.map (fun j => (s.lane n j).sumI)), prevCnt := o.length })) s1)
        (s'.modCl n (fun c => { c with winAt := 0, ctl := { c.ctl with
          lanes := vmap (fun _ l => { l with sumV := 0, sumI := 0, sumD := 0, winN := 0, winBad := false }) c.ctl.lanes } })))

/-! ## Loss of the Gaffer (R15, R152, 07 R235) -/

/-- The cluster has missed four broadcasts: it goes on in reactive mode and admits nothing. -/
def State.loseGaffer (n : Nat) (s : State) : State :=
  let s := each (s.hs n) (fun h s =>
    let s := (s.withdraw n h).fillZero n h
    s.modHalf n h (fun x => { x with
      acc := { x.acc with ord := x.acc.ord + x.acc.res, res := 0, short := 0, drain := true }
      feed := { x.feed with armed := false, fft := 0 } })) s
  s.modCl n (fun c => { c with gafLost := true })

/-- Expected records that are missing or out of order, each an event (R152): the offset and the last record are held. -/
def State.missRecord (n k : Nat) (s : State) : State :=
  let s := s.modCl n (fun c => { c with busMiss := satAdd 7 c.busMiss k, busMissRow := c.busMissRow + k })
  if 4 ≤ (s.cl n).busMissRow && !(s.cl n).gafLost then s.loseGaffer n else s

/-- A record that came with a SEQ not one more than the last: `k` events (R152). A cluster that had lost the Gaffer has it
back (07 R235). -/
def State.oddRecord (n k : Nat) (s : State) : State :=
  if (s.cl n).gafLost then
    s.modCl n (fun c => { c with busMiss := satAdd 7 c.busMiss k, busMissRow := 1, gafLost := false })
  else s.missRecord n k

/-- The next report is due: a cluster that expected a record of the last broadcast and got none counts it as missing. -/
def State.missLast (s : State) : State :=
  each (List.range 64) (fun n s =>
    let out := s.samples n && !(s.cl n).busGot
    let s := s.modCl n (fun c => { c with busGot := !(s.samples n), busGone := if out then c.busGone + 1 else c.busGone })
    if out then s.missRecord n 1 else s) s

/-- SEQ of the last broadcast that went out: the one reported last may still wait. -/
def State.lastSent (s : State) : Nat := if s.busDue.isSome then (s.busSeq + 255) % 256 else s.busSeq

/-- GAFFER_LOSS: the fourth broadcast in a row has been missed: the misses that no record has shown yet are counted, and the
next expected SEQ lies behind theirs. -/
def execGafferLoss (n : CluIx) (s : State) : Host.Outcome State Fault Refusal :=
  .next (
    if s.samples n && !(s.cl n).gafLost then
      let k := 4 - (s.cl n).busMissRow
      (s.modCl n (fun c => { c with busGone := c.busGone + k })).missRecord n k
    else s)

/-! ## Records (R150 to R152, 07 R216, R222, 09 R297) -/

/-- The record of one half's domain applied: MEAN_I, offset, fade-in increment and the surplus to the bank. -/
def State.applyRec (n h : Nat) (s : State) : State :=
  match s.sheet.halfDom n h with
  | none => s
  | some d =>
    let s := s.accrue n
    let b := (s.dm d).bc
    let cfg := (s.cl n).cfg.shr.toNat
    let lim : Int := (256 * max 1 (fld cfg 16 8) : Nat)
    let g : Int := (fld cfg 8 8 : Nat)
    let con := s.contrib n h
    let sum := sumI (con.map (fun k => s.code n (16 + k)))
    let many := ((s.sheet.domHalves d).map (fun p => p.1)).eraseDups.length
    let offs := fun (o : Int) =>
      if !bit cfg 24 || many ≤ 1 then 0
      else if b.valid && !con.isEmpty then clampI (-lim) lim (o + rhalf ((b.meanI * con.length - sum) * g) con.length)
      else o
    let capC := s.halfCap n h
    let s := s.modHalf n h (fun x => { x with
      offs := offs x.offs, recValid := b.valid, recMean := b.meanI, recCells := b.ncell, recCap := b.cap
      acc := { x.acc with inc := incOf (s.dm d).slope capC b.cap (s.chan n).capK } })
    let a := (s.half n h).acc
    let tot := a.ord + (s.cl n).led.heldSum h
    let allot := (s.half n h).allot
    if s.pendSum n h == 0 && allot + s.sheet.s8.lendQ < tot then
      let k := min a.ord (tot - allot)
      (s.modHalf n h (fun x => { x with acc := { x.acc with ord := x.acc.ord - k } })).sendUp 5 n h d k
    else s

/-- ADC-V against the package VIN of a record (09 R297). -/
def State.vinRecord (n : Nat) (s : State) : State :=
  let mv := s.board.sent
  let s := s.modSense n (fun x => { x with vinPkg := some mv })
  let d := (2000 + s.code n 32 - 2 * (mv : Int)).natAbs
  let c3 := s.s3Now n
  let out := decide (2 * c3.vinPw < d)
  let x := (s.cl n).sense
  if x.susp.getLsbD 32 then
    let good := if out then 0 else x.vinGood + 1
    if 64 ≤ good && !x.open_.getLsbD 32 then
      s.modSense n (fun x => { x with susp := x.susp &&& ~~~(1 <<< 32 : BitVec 33), vinGood := 0, vinBad := 0 })
    else s.modSense n (fun x => { x with vinGood := good })
  else
    let bad := if out then x.vinBad + 1 else 0
    let s := s.modSense n (fun x => { x with vinBad := bad })
    if c3.chkN ≤ bad then s.vinSusp n else s

end Sys2Proof.Machine
end

