-- ==== Sys2Proof/Machine/Thermal.lean ====
section
/-! DEFINITION. Temperature (chapter 10): sampling, broken sensors, limits, the critical trip and ageing; and the
capacitance estimates of the cells (12 R389 to R391). Temperatures are in 0.0625 degC. -/

namespace Sys2Proof.Machine
open Sys2Proof

/-- The thermal limits of cluster `n` (R313, R336). -/
def CallSheet.tLimits (cs : CallSheet) (n : Nat) : TLimits :=
  ((cs.s4.ovr.find? (fun p => p.1.getLsbD n)).map (fun p => p.2)).getD cs.s4.base

/-- The thermal unit of a cluster changed. -/
def State.modTherm (n : Nat) (f : Therm → Therm) (s : State) : State := s.modCl n (fun c => { c with therm := f c.therm })

/-! ## Broken sensors (R310, R311) -/

/-- Twice the median of a list; none when it is empty. -/
def median2 (l : List Int) : Option Int :=
  let s := sortBy (fun a b : Int => decide (a < b)) l
  let n := s.length
  match s[n / 2]?, s[(n - 1) / 2]? with
  | some a, some b => some (a + b)
  | _, _ => none

/-- One sensor after a reading: its counts and the mark it now receives, 1 open, 2 short, 3 implausible, 0 none. -/
def Sensor.judge (c : Sec4) (others : List Int) (t : Int) (x : Sensor) : Nat × Sensor :=
  let openN := if 2400 < t then x.openN + 1 else 0
  let shortN := if t < -960 then x.shortN + 1 else 0
  let far := match median2 others with
    | some m => decide (32 * c.plaus < (2 * t - m))  || decide (32 * c.plaus < (m - 2 * t))
    | none => false
  let implN := if 2 ≤ others.length && far then x.implN + 1 else 0
  let y := { x with t, openN, shortN, implN }
  if x.elec then (0, y)
  else if 2 ≤ openN then (1, { y with broken := true, elec := true })
  else if 2 ≤ shortN then (2, { y with broken := true, elec := true })
  else if !x.broken && decide (c.tsN ≤ implN) then (3, { y with broken := true })
  else (0, y)

/-- Sensor `k` of a cluster judged against the valid others. -/
def State.judgeSensor (n : Nat) (t : List Int) (k : Nat) (s : State) : State :=
  let th := (s.cl n).therm
  let others := ((List.range 8).filter (fun j => j != k && !(vget th.sens j).broken)).map (fun j => t.getD j 0)
  let r := (vget th.sens k).judge s.sheet.s4 others (t.getD k 0)
  let s := s.modTherm n (fun x => { x with sens := vset x.sens k r.2 })
  if r.1 == 0 then s else s.raise 0x026 (.unit (uClu n)) (k + 16 * r.1)

/-! ## Limits and the thermal demand (R312 to R314, R318) -/

/-- A warning that sets beyond its limit and clears beyond the hysteresis. -/
def hystBit (old set clear : Bool) : Bool := if old then !clear else set

/-- A domain is on in a cluster. -/
def State.cluOn (s : State) (n : Nat) : Bool := (s.cluDoms n).any (fun d => (s.dm d).on)

/-- The limits of Table 10-1 after a sample with valid readings. -/
def State.limits (n : Nat) (s : State) : State :=
  let l := s.sheet.tLimits n
  let hy := s.sheet.s4.hyst
  let x := (s.cl n).therm
  if x.allBad then s
  else
    let lo := hystBit x.lWarn (decide (x.tMin < 16 * l.lwarn)) (decide (16 * (l.lwarn + hy) < x.tMin))
    let hi := hystBit x.hWarn (decide (16 * l.hwarn < x.tMax)) (decide (x.tMax < 16 * (l.hwarn - hy)))
    let st := hystBit x.lStop (decide (x.tMin < 16 * l.lstop)) (decide (16 * (l.lstop + hy) < x.tMin))
    let s := s.modTherm n (fun x => { x with lWarn := lo, hWarn := hi, lStop := st })
    let s := if lo && !x.lWarn then s.raise 0x028 (.unit (uClu n)) 0 else s
    let s := if hi && !x.hWarn then s.raise 0x028 (.unit (uClu n)) 1 else s
    if st && !x.lStop then (if s.cluOn n then s.raise 0x013 (.unit (uClu n)) 0 else s)
    else if x.lStop && !st then s.closeUnit (uClu n) [0x013]
    else s

/-- D_th of a domain at a delivered sample of one of its clusters (Table 10-2). -/
def State.thDemand (d : Nat) (s : State) : State :=
  let c := s.sheet.s5
  let ms := (s.sheet.domHalves d).map (fun p => (s.cl p.1).therm.tMax - 16 * (s.sheet.tLimits p.1).thr)
  match ms with
  | [] => s
  | m0 :: t =>
    let m := t.foldl max m0
    let x : Int := ((s.dm d).thr.dTh : Nat)
    let y := if 0 < m then x + 16 * (c.thG : Int) * m
      else if m ≤ -16 * s.sheet.s4.hyst then x - 256 * (c.thG : Int) else x
    s.modDm d (fun z => { z with thr := { z.thr with dTh := clampD y } })

/-- The interval to the next sample (R309): 5 us near a limit while awake, else 100 us. -/
def State.thInterval (s : State) (n : Nat) : Nat :=
  let l := s.sheet.tLimits n
  let fb := s.sheet.s4.fastBand
  let x := (s.cl n).therm
  if (s.cl n).clock == .running && !x.allBad &&
      (decide (16 * (l.hwarn - fb) ≤ x.tMax) || decide (x.tMin ≤ 16 * (l.lwarn + fb))) then 5000 else 100000

/-- A sample of a cluster delivered: eight readings. -/
def State.thDeliver (n : Nat) (t : List Int) (s : State) : State :=
  let t := t.map (clampI (-32768) 32767)
  let s := each (List.range 8) (fun k s => s.judgeSensor n t k) s
  let x := (s.cl n).therm
  let ok := x.sens.toList.filter (fun e => !e.broken)
  let s := match ok with
    | [] =>
      let thr := 16 * (s.sheet.tLimits n).thr
      let s' := s.modTherm n (fun y => { y with allBad := true, tMax := thr, tMin := thr })
      if x.allBad then s' else s'.raise 0x027 (.unit (uClu n)) 0
    | e :: r => s.modTherm n (fun y => { y with
        tMax := r.foldl (fun m (z : Sensor) => max m z.t) e.t
        tMin := r.foldl (fun m (z : Sensor) => min m z.t) e.t })
  let s := (s.thErrs n).limits n
  let p := s.thInterval n
  let s := s.modTherm n (fun y => { y with fast := p == 5000, dueAt := none, nextAt := nextBoundary p s.elapsed })
  (each (s.cluDoms n) State.thDemand s).throttle (s.cluDoms n)

/-- The thermal converter of a cluster runs: asleep or awake, out of reset, after its wake in bring-up. -/
def State.thRuns (s : State) (n : Nat) : Bool := (s.cl n).woke && (s.cl n).inReset.isNone

/-- THERMAL_SAMPLE: the sample instant, a multiple of the present interval (R308, R309); a sleeping cluster wakes for it
(01 R24). -/
def execThermalSample (n : CluIx) (s : State) : Host.Outcome State Fault Refusal :=
  .next (
    if s.thRuns n && (s.cl n).therm.dueAt.isNone then
      let s := s.advanceTo (s.cl n).therm.nextAt
      let s := if (s.cl n).clock == .asleep then s.wakeClu n else s
      s.modTherm n (fun x => { x with dueAt := some (s.elapsed + 2000) })
    else s)

/-- THERMAL_SAMPLE_DELIVERED: the results, 2 us after the sample instant. -/
def execThermalSampleDelivered (n : CluIx) (t : List Int) (s : State) : Host.Outcome State Fault Refusal :=
  .next (match (s.cl n).therm.dueAt with
    | none => s
    | some a => if s.thRuns n then (s.advanceTo a).thDeliver n t else s)

/-! ## Ageing (R328) -/

/-- The measured slowdown, AGE_REF in 1/32,768; none without a reference. -/
def slowdown (stressed reference ageRef : Nat) : Option Nat :=
  if reference * ageRef == 0 then none else some (65536 - 65536 * stressed * 32768 / (reference * ageRef))

/-- AGEING_MEASUREMENT: the counts of the two oscillators over 65,536 Gaffer cycles, every AGE_INT. A quotient without
a denominator is a free value. -/
def execAgeingMeasurement (n : CluIx) (stressed reference : Nat) (s : State) : Host.Outcome State Fault Refusal :=
  .next (
    if s.gafClock != .running || !(s.cl n).woke then s
    else
      let x := (s.cl n).therm
      let s := s.advanceTo x.ageAt
      let (m, s) := match slowdown stressed reference x.ageRef with
        | some m => (m, s)
        | none => s.drawNat
      let rise := decide (x.a + 16 ≤ m)
      let a := if rise && decide (x.a + 16 ≤ x.aPrev) then min m 65536 else x.a
      let s := s.modTherm n (fun y => { y with
        a, aPrev := m, ageAt := s.elapsed + s.sheet.s5.ageInt * 1000000000 })
      s.throttle (s.cluDoms n))

/-! ## The critical trip (R315, R316) -/

/-- The cluster with the highest maximum, the lowest index among equals (R312). -/
def State.hottest (s : State) : Nat :=
  match s.sheet.cluIxs with
  | [] => 0
  | n :: t => t.foldl (fun b k => if (s.cl b).therm.tMax < (s.cl k).therm.tMax then k else b) n

/-- PEC of a PMBus transfer: CRC-8 with the polynomial x^8 + x^2 + x + 1 over its bytes. PRESUMED from the PMBus standard. -/
def pmbPec (bytes : List Nat) : Nat :=
  bytes.foldl (fun c b => (List.range 8).foldl (fun x _ => if 128 ≤ x then Nat.xor (2 * x % 256) 7 else 2 * x) (Nat.xor c b)) 0

/-- OPERATION with 0x00, immediate off, to regulator `i` (17 R502). -/
def pmbOffOut (i : Nat) : Out := .pmbus (0x40 + i) 0x01 [0x00, pmbPec [2 * (0x40 + i), 0x01, 0x00]]

/-- The critical trip: latch, ZN_THERMTRIP_N, park level and throttle, OPERATION 0x00 to every PMBus device (17 R502),
and the FATAL fault. -/
def State.tripNow (n : Nat) (s : State) : State :=
  if s.trip then s
  else
    let s1 := { s with
      trip := true, tripClu := n, pins := { s.pins with thermtripN := false }
      buses := { s.buses with pmbOff := List.range s.pins.nReg } }.parkAll
    let s2 := (s1.noteParks s).throttleAll
    let s3 := each (List.range s.pins.nReg) (fun i s => s.put (pmbOffOut i)) s2
    -- the crossing wakes its cluster (01 R26)
    (s3.wakeClu n).raise 0x043 (.unit 0) s3.hottest

/-- CRITICAL_TRIP: a comparator's output has persisted for 500 ns. One of a sensor marked Open or Short is out of the
trip path. -/
def execCriticalTrip (n : CluIx) (e : Fin 8) (s : State) : Host.Outcome State Fault Refusal :=
  .next (if (vget (s.cl n).therm.sens e).elec then s else s.tripNow n)

/-! ## Capacitor bonds (12 R389 to R391) -/

/-- One cell's estimate judged (12 R390): capacitance, resonance, both. A resonance that was not measured says nothing. -/
def CapEst.judge (cfg cEst : Nat) (fRes : Option Nat) (x : CapEst) : Bool × Bool × CapEst :=
  let y := { x with
    cRef := if x.cRef == 0 then cEst else x.cRef, cEst
    fRef := if x.fRef == 0 then fRes.getD 0 else x.fRef, fRes := fRes.getD x.fRes }
  let lowC := decide (256 * cEst < y.cRef * fld cfg 0 8)
  let hiF := match fRes with
    | some f => decide (y.fRef * (256 + fld cfg 8 6) < 256 * f)
    | none => false
  let both := lowC && hiF
  (lowC, hiF, { y with bad := both, failed := x.failed || (both && x.bad) })

/-- C_est of a cell, 0.1 nF, from ΔV in nV (12 R389): ΔI / (8 × FSW × ΔV) with ΔI = (VIN_MEAS − VOUT) × D / (FSW × L_CAL).
A quotient by zero has no value: it is free. -/
def State.capOf (n k dv : Nat) (s : State) : Nat × State :=
  let c := s.cell n k
  let v := s.vinUv n - uvOf (s.code n k).toNat
  let f := 500 * (s.cl n).s1.fsw
  let den := 65536 * f * f * c.lcal * dv
  if den == 0 then s.drawNat else ((2 * (v * (4 * c.duty + c.frac) * 10 ^ 19) + den) / (2 * den), s)

/-- Cells whose bonds a cluster estimates at an instant, with an entry in the list of measurements (12 R389). -/
def State.capCells (s : State) (n int len : Nat) : List Nat := (s.capReady n int s.elapsed).filter (fun k => decide (k < len))

/-- Only one of the two means finds a cell's bonds failed (12 R390): an INFO event, for which Table 14-3 has no code of its own. -/
def State.capInfo (n : Nat) (s : State) : State :=
  s.collect { code := 0x02C, cls := 1, sc := .unit (uClu n), inj := false, detail := (s.chan n).capK, addr := 0, master := 0
              acc := 0, time := s.elapsed, first := false }

/-- CAPACITANCE_ESTIMATE: CAP_INT has passed; `est` gives ΔV (nV) and f_res (10 kHz) of cells 0 upward, as the 64 urgent
conversions and the dither of 12 R389 find them. -/
def execCapacitanceEstimate (n : CluIx) (est : List (Nat × Nat)) (s : State) : Host.Outcome State Fault Refusal :=
  .next (
    if !s.samples n then s
    else
      let s := s.advanceTo (s.cl n).capAt
      let int := s.capNs
      let cells := s.capCells n int est.length
      let old := (s.cl n).caps
      let (ms, s) := cells.foldl (fun (a : List (Nat × Nat × Option Nat) × State) k =>
        let (c, s) := a.2.capOf n k (est.getD k (0, 0)).1
        (a.1 ++ [(k, c, if s.capDithers n k then some (est.getD k (0, 0)).2 else none)], s)) ([], s)
      let res := ms.map (fun p => (p.1, (vget old p.1).judge s.vrtCap.toNat p.2.1 p.2.2))
      let caps := res.foldl (fun (v : Vector CapEst 16) p => vset v p.1 p.2.2.2) old
      let susp := (res.zip ms).filter (fun p => p.2.2.2.isSome && p.1.2.1 != p.1.2.2.1) |>.length
      let newFail := res.any (fun p => p.2.2.2.failed && !(vget old p.1).failed)
      let ks := (res.filter (fun p => p.2.2.2.failed)).map (fun p => max 64 (256 * p.2.2.2.cEst / max 1 p.2.2.2.cRef))
      let low := match ms with
        | [] => ((s.chan n).cMin, (s.chan n).fRes)
        | p :: t =>
          let val := fun (q : Nat × Nat × Option Nat) => (q.2.1, (vget caps q.1).fRes)
          t.foldl (fun (m : Nat × Nat) (q : Nat × Nat × Option Nat) => if q.2.1 < m.1 then val q else m) (val p)
      let s := s.modCl n (fun c => { c with
        caps, capAt := s.elapsed + int
        sense := { c.sense with heldCnt := satAdd 16 c.sense.heldCnt (64 * cells.length) } })
      let s := s.modChan n (fun ch => { ch with
        capSusp := satAdd 2 ch.capSusp susp, cMin := min 4095 low.1, fRes := min 4095 low.2
        capFail := ch.capFail || newFail, capK := ks.foldl min ch.capK })
      let s := if 0 < susp then s.capInfo n else s
      if newFail then s.raise 0x02C (.unit (uClu n)) (s.chan n).capK else s)

end Sys2Proof.Machine
end

