-- ==== Sys2Proof/Machine/Slate.lean ====
section
/-! DEFINITION. The slate port (chapter 08): lanes and markers, slate time, discovery, arrivals, releases and aborts,
departures and additions. Markers leave at the instant of the event that sends them: lane arbitration and crossing
times are not modelled. -/

namespace Sys2Proof.Machine
open Sys2Proof

/-! ## Markers (R250, Tables 8-1 and 8-2) -/

/-- One byte taken into a CRC-8 with polynomial 0x07, most significant bit first. -/
def crc8Byte (crc b : Nat) : Nat :=
  (List.range 8).foldl (fun x _ => if 128 ≤ x then (2 * x % 256) ^^^ 7 else 2 * x % 256) (crc ^^^ b)

/-- The check byte of a marker. -/
def mkCheck (k : Nat) (pay : BitVec 16) : BitVec 8 :=
  BitVec.ofNat 8 (crc8Byte (crc8Byte (crc8Byte 0 k) (fld pay.toNat 0 8)) (fld pay.toNat 8 8))

/-- The four symbols of a marker, first symbol lowest. -/
def mkWord (k : Nat) (pay : BitVec 16) : Word32 :=
  BitVec.ofNat 32 (pack [(8, k), (16, pay.toNat), (8, (mkCheck k pay).toNat)])

/-- K-codes as bytes. -/
def kArrive : Nat := 0x1C
def kRelease : Nat := 0x5C
def kAbort : Nat := 0x7C
def kTime : Nat := 0x9C
def kPing : Nat := 0xDC
def kEcho : Nat := 0xF7
def kUp : Nat := 0xFB
def kDown : Nat := 0xFD

/-- The payload of a CTRL marker. -/
def ctrlPay (op arg : Nat) : BitVec 16 := BitVec.ofNat 16 (arg % 4096 + 4096 * op)

/-- The slate port changed. -/
def State.modSlt (f : Slate → Slate) (s : State) : State := { s with slt := f s.slt }

/-- A slate port's state changed. -/
def State.modPort (p : Nat) (f : SPort → SPort) (s : State) : State :=
  s.modSlt (fun x => { x with ports := vmod x.ports p f })

/-- A single marker sent. -/
def State.sendMk (p k : Nat) (pay : BitVec 16) (s : State) : State := s.put (.marker p (mkWord k pay))

/-- A pair sent (R251). -/
def State.sendPair (p k : Nat) (pay : BitVec 16) (s : State) : State := (s.sendMk p k pay).sendMk p k pay

/-- ROLE of the call sheet: 0 none, 1 member, 2 root. -/
def State.role (s : State) : Nat := s.sheet.s9.role

/-- Port `p` faces a child. -/
def State.faceChild (s : State) (p : Nat) : Bool := s.role == 2 || p != 0

/-- Port `p` is enabled and connected (R277). -/
def State.portOn (s : State) (p : Nat) : Bool :=
  s.role != 0 && s.pins.sltCon.getLsbD p && (p == 0 || s.sheet.s9.dnen == 0 || s.sheet.s9.dnen.getLsbD (p - 1))

/-- The UP ports that face children. -/
def State.downPorts (s : State) : List Nat :=
  (List.range 4).filter (fun p => s.faceChild p && (vget s.slt.ports p).st == 2)

/-- A pair on every UP downstream port. -/
def State.sendDown (k : Nat) (pay : BitVec 16) (s : State) : State := each s.downPorts (fun p s => s.sendPair p k pay) s

/-- A CTRL upward on port 0 of a member. -/
def State.ctrlUp (op arg : Nat) (s : State) : State :=
  if s.role == 1 && (vget s.slt.ports 0).st == 2 then s.sendPair 0 kUp (ctrlPay op arg) else s

/-- The chip takes part in the tree, as a participant or as a relay. -/
def State.inTree (s : State) : Bool := s.slt.joined || s.slt.relay

/-! ## Slate time (R255, R262) -/

/-- Slate time of an instant less elapsed time, 0.125 ns: a member's offset with its rate trim since the last tick; none on the
root, whose slate time is its elapsed time. -/
def State.slateOffs (s : State) (t : Nat) : Int :=
  if s.role == 1 then s.slt.time.offs + fdivI (s.slt.time.trim * ((t : Int) - (s.slt.time.tickAt : Nat))) 4096 else 0

/-- Slate time of an instant of elapsed time, whole ns. -/
def State.toSlate (s : State) (t : Nat) : Int := fdivI (8 * (t : Int) + s.slateOffs t + 4) 8

/-- The instant of elapsed time of a slate time. -/
def State.toElapsed (s : State) (t : Int) : Nat :=
  let e := (fdivI (8 * t - (if s.role == 1 then s.slt.time.offs else 0) + 4) 8).toNat
  (fdivI (8 * t - s.slateOffs e + 4) 8).toNat

/-- The slate time that a 16-bit field names at receipt (R262). -/
def State.slate16 (s : State) (v : Nat) : Int :=
  let b := s.toSlate s.elapsed - 16384
  b + ((v : Int) - b) % 65536

/-- A slate time as a 16-bit field. -/
def slatePay (t : Int) : BitVec 16 := BitVec.ofInt 16 t

/-- LOCKED: always on the root while a port is UP (R278). -/
def State.slateLocked (s : State) : Bool :=
  if s.role == 2 then s.slt.ports.toList.any (fun p => p.st == 2) else s.slt.time.locked

/-- FLIGHT of port 0: half of the mean of the last 64 exchanges, 0.125 ns (R254). -/
def STime.flight (t : STime) : Nat :=
  (rhalf ((sumN t.flights : Nat) : Int) (2 * t.flights.length)).toNat

/-! ## Loss and departure (R271 to R274) -/

/-- LOST is set; its source fires (14 Table 14-4), with a DEGRADED fault. -/
def State.slateLost (s : State) : State :=
  let s := if s.slt.lost then s else (s.modSlt (fun x => { x with lost := true })).fire 42
  s.raise 0x03A (.unit 0) 0

/-- The release instant of a chip's own SLATE shot is known: its successor takes it as planned onset (R265, 06 R187), whether it
is still to come, with its cue or without, or has switched and not begun. -/
def State.releaseAt (t : Nat) (s : State) : State :=
  let s := s.modSlt (fun x => { x with
    rel := some t, lastRel := some t, ready := none
    relFor := match x.sentFor with
      | some q => some (q, t)
      | none => x.relFor })
  let c := s.slt.ctx
  match s.slt.sentFor, (s.cx c).played.getLast? with
  | some q, some p =>
    if !(s.cx c).plan then s
    else if p.seq == q then
      if (s.shot c p.shot).slate then
        let nx := (s.cx c).next
        s.placeNext c (some t) (nx.bind (fun n => n.cueAt)) (match nx with
          | some n => n.late
          | none => false)
      else s
    else if p.seq == (q + 1) % 2 ^ 32 && !p.begun then s.recue c t
    else s
  | _, _ => s

/-- A chip that waits releases at its next sample boundary (R272, R273). -/
def State.releaseNow (s : State) : State :=
  if s.slt.ready.isSome then s.releaseAt (nextBoundary 32 s.elapsed) else s

/-- The chip is a participant no more: a SLATE shot that has not arrived goes on as one with SLATE clear. -/
def State.unjoin (s : State) : State :=
  let c := s.slt.ctx
  let was := s.slt.joined
  let s := s.modSlt (fun x => { x with joined := false, leaving := false })
  let s := match s.slt.leave with
    | some q => (s.modSlt (fun x => { x with leave := none })).complete q .done 0
    | none => s
  if !was || s.slt.ready.isSome then s
  else
    match (s.cx c).cur, (s.cx c).next, (s.cx c).played.getLast? with
    | some i, some nx, some p =>
      if (s.shot c i).slate && (s.cx c).plan then
        s.placeNext c (nx.onset.orElse (fun _ => (s.shot c i).next p.onset)) nx.cueAt nx.late else s
    | _, _, _ => s

/-- DETACH acts on a chip (R271). -/
def State.detached (s : State) : State :=
  let s := s.sendDown kDown (ctrlPay 10 0)
  let s := s.unjoin
  (s.modSlt (fun x => { x with
    relay := false, nNext := none, nPend := none, disc := 0
    ports := vmap (fun _ p => { p with incl := false, counted := false, arrived := none, reach := none }) x.ports })).slateLost

/-! ## Combining and releasing (R263 to R271) -/

/-- LOCAL_MULT x SLT_TO in ns. -/
def State.localNs (s : State) : Nat := s.sheet.s9.localMult * s.sheet.s9.sltTo * 1000

/-- The root's N changed by participants that came or went: SIZE tells it behind the next RELEASE or ABORT (R267). -/
def State.changeN (d : Int) (s : State) : State :=
  s.modSlt (fun x => { x with nPend := some (((x.nPend.getD (x.nNext.getD x.n) : Nat) : Int) + d).toNat })

/-- Participants gone below this chip: told upward, or taken from N at the root. Before the chip's own COUNT they are left out of
that. -/
def State.leaveUp (k : Nat) (s : State) : State :=
  if k == 0 || s.slt.disc == 1 then s else if s.role == 2 then s.changeN (-(k : Int)) else s.ctrlUp 9 k

/-- Participants added below this chip. -/
def State.joinUp (k : Nat) (s : State) : State := if s.role == 2 then s.changeN k else s.ctrlUp 7 k

/-- A port that waits for admission is added to the combine set (R275). -/
def State.admitPort (p : Nat) (s : State) : State :=
  match (vget s.slt.ports p).joinWait with
  | none => s
  | some k =>
    let s := s.modPort p (fun x => { x with joinWait := none, incl := true, sub := x.sub + k, reach := x.reach.orElse (fun _ => some 0) })
    (s.sendPair p kDown (ctrlPay 8 0)).joinUp k

/-- Every port that waits for admission. -/
def State.admitAll (s : State) : State := each s.downPorts State.admitPort s

/-- A port leaves the combine set with its participants. -/
def State.dropPort (p : Nat) (s : State) : State :=
  let k := (vget s.slt.ports p).sub
  (s.modPort p (fun x => { x with incl := false, counted := false, arrived := none, sub := 0, excl := 0, reach := none })).leaveUp k

/-- The chip's own release for a T_R (R265, R270): `t` is T_R in elapsed time. -/
def State.ownRelease (t : Nat) (s : State) : State :=
  let x := s.slt
  if !x.joined then s.modSlt (fun x => { x with rel := some t })
  else
    match x.ready with
    | none => s.modSlt (fun x => { x with skips := x.skips + 1, rel := some t })
    | some r =>
      let soon := fun (s : State) => if t < s.elapsed + 80 then s.modSlt (fun x => { x with lateRel := true }) else s
      if x.sentAt < t && t < r then ((soon s).modSlt (fun x => { x with earlyRel := true })).releaseAt r
      else if x.sentAt ≤ t && t ≤ r + s.localNs then (soon s).releaseAt t
      else s

/-- EXCL after a RELEASE or an ABORT: zero for a port that arrived, one more for one that had not (R269). -/
def SPort.judge (abort : Bool) (p : SPort) : SPort :=
  if !p.incl then p
  else if p.arrived.isSome then { p with excl := 0 }
  else if abort then { p with excl := min 15 (p.excl + 1) } else p

/-- The ports whose EXCL has reached EXCL_MAX are detached (R271). -/
def State.detachPorts (s : State) : State :=
  each ((List.range 4).filter (fun p => (vget s.slt.ports p).incl && s.sheet.s9.exclMax ≤ (vget s.slt.ports p).excl))
    (fun p s => (s.sendPair p kDown (ctrlPay 10 0)).dropPort p) s

/-- REACH of the chip, ns: over its answering children, the child's FLIGHT, 30 ns and its REACH; a part of a ns is
rounded up. -/
def Slate.reachNow (x : Slate) : Nat :=
  maxN (x.ports.toList.filterMap (fun p => p.reach.map (fun r => cdiv p.flight 8 + 30 + r)))

/-- A REACH that has changed is told upward, or re-forms RLEAD at the root (R258). -/
def State.reachChanged (s : State) : State :=
  let r := s.slt.reachNow
  if s.slt.disc != 2 || r == s.slt.reach then s
  else
    let s := s.modSlt (fun x => { x with
      reach := r, rlead := if s.role == 2 then min 4095 (r + s.sheet.s9.rmargin) else x.rlead })
    s.ctrlUp 4 r

/-- A RELEASE or an ABORT with T_R in slate time passes this chip (R264, R265, R267, R269, R275). -/
def State.passRelease (k : Nat) (tr : Int) (s : State) : State :=
  let abort := k == kAbort
  let incomplete := !s.slt.upSent
  let s := s.sendDown k (slatePay tr)
  -- the root's SIZE and DISSOLVE go behind it
  let s := match s.slt.nPend with
    | some n => if s.role == 2 then
        (s.sendDown kDown (ctrlPay 5 (n - 1))).modSlt (fun x => { x with nNext := some n, nPend := none }) else s
    | none => s
  let t := s.toElapsed tr
  let s := s.modSlt (fun x => { x with
    abortCnt := if abort && incomplete then satInc 8 x.abortCnt else x.abortCnt
    ports := vmap (fun _ p => p.judge (abort && incomplete)) x.ports, lastFwd := t })
  let s := s.ownRelease t
  let s := s.modSlt (fun x => { x with
    open_ := false, upSent := false, own := none, ports := vmap (fun _ p => { p with arrived := none }) x.ports })
  (if abort then s.detachPorts else s).admitAll.reachChanged

/-- The root's DISSOLVE: every chip below clears JOINED (R274). -/
def State.dissolveNow (s : State) : State :=
  let s := s.sendDown kDown (ctrlPay 11 0)
  (s.unjoin).modSlt (fun x => { x with
    relay := false, nNext := none, nPend := none, disc := 0
    ports := vmap (fun _ p => { p with incl := false, counted := false, arrived := none, reach := none }) x.ports })

/-- The root's release or abort at the launch instant, and what waits behind it. -/
def State.rootRelease (k : Nat) (tr : Int) (s : State) : State :=
  let s := s.passRelease k tr
  if s.slt.leaving then s.dissolveNow else s

/-- The combine of an open slate is complete: every port of the set has arrived, and the chip itself when it takes
part (R263). -/
def State.combined (s : State) : Bool :=
  s.inTree && s.slt.open_ && (!s.slt.joined || s.slt.own.isSome) &&
  (List.range 4).all (fun p => !(vget s.slt.ports p).incl || (vget s.slt.ports p).arrived.isSome)

/-- A combine that is complete goes upward, or is released at the root (R263, R264). -/
def State.tryCombine (s : State) : State :=
  if !s.combined || s.slt.upSent then s
  else
    let own := match s.slt.own with
      | some r => [s.toSlate r]
      | none => []
    let rs := own ++ s.slt.ports.toList.filterMap (fun p => if p.incl then p.arrived else none)
    match rs with
    | [] => s
    | r0 :: t =>
      let m := t.foldl max r0
      let s := s.modSlt (fun x => { x with upSent := true })
      if s.role == 2 then s.rootRelease kRelease (max m (s.toSlate s.elapsed + (s.slt.rlead : Nat)))
      else if (vget s.slt.ports 0).st == 2 then s.sendPair 0 kArrive (slatePay m)
      else s

/-- The chip's own arrival with a READY. -/
def State.arrive (ready : Nat) (s : State) : State :=
  (s.modSlt (fun x => { x with open_ := true, ready := some ready, own := some ready, sentAt := s.elapsed })).tryCombine

/-- The chip leaves (R274): a member sends what it owes and LEAVE; the root dissolves the tree, behind the next RELEASE
when a slate is open. -/
def State.leaveTree (s : State) : State :=
  if !s.slt.joined || s.slt.leaving then s
  else if s.role == 2 then
    let s := s.modSlt (fun x => { x with leaving := true })
    if s.slt.open_ then s else s.dissolveNow
  else
    let s := if s.slt.open_ && s.slt.own.isNone then s.arrive s.elapsed else s
    (s.modSlt (fun x => { x with leaving := true })).ctrlUp 9 1

/-- The slate context has entered REACTIVE from plan mode, or CLOSED (R260): the chip leaves, with an INFO fault. -/
def State.slateCtxLeft (s old : State) : State :=
  let c := s.slt.ctx
  if s.slt.joined && !s.slt.leaving &&
      (((old.cx c).plan && !(s.cx c).plan) || (s.cx c).st == .closed) then
    s.leaveTree.raise 0x03C (.unit 0) 0
  else s

/-! ## Discovery (R258) -/

/-- A tree that has started: the answering ports with participants form the combine set (R258, R263). -/
def State.started (s : State) : State :=
  let s := s.modSlt (fun x => { x with
    disc := 2, n := x.nNext.getD x.n, nNext := none
    ports := vmap (fun _ p => { p with incl := p.counted && decide (0 < p.sub), excl := 0, arrived := none
                                       joinWait := if p.counted && decide (0 < p.sub) then none else p.joinWait }) x.ports
    open_ := false, upSent := false, ready := none, own := none, rel := none, relNext := none, nPend := none
    skips := 0, relFor := none, sentFor := none })
  match s.slt.join with
  | some (q, _) =>
    (s.modSlt (fun x => { x with joined := true, relay := false, join := none })).closeUnit 0 [0x03A]
      |>.complete q .done s.slt.n
  | none => s.modSlt (fun x => { x with relay := true })

/-- The answers of discovery are complete: a member answers, the root forms N and starts the tree. -/
def State.tryAnswer (s : State) : State :=
  let x := s.slt
  let ask := x.ports.toList.filter (fun p => p.asked)
  if x.disc != 1 || !s.slateLocked && s.role != 2 || ask.any (fun p => !(p.counted && p.reach.isSome)) then s
  else
    let cnt := sumN (ask.map (fun p => p.sub)) + b2n x.join.isSome
    let overrun := ask.any (fun p => p.overrun)
    let reach := x.reachNow
    if s.role == 2 then
      let s := s.modSlt (fun y => { y with reach, rlead := min 4095 (reach + s.sheet.s9.rmargin) })
      if overrun || 4096 < cnt then
        let q := s.slt.join
        let s := s.dissolveNow.modSlt (fun y => { y with join := none })
        match q with
        | some (q, _) => s.complete q .rejectedLimit 0
        | none => s
      else
        let s := s.modSlt (fun y => { y with nNext := some cnt })
        ((s.sendDown kDown (ctrlPay 5 (cnt - 1))).sendDown kDown (ctrlPay 6 0)).started
    else
      let s := s.modSlt (fun y => { y with disc := 2, reach })
      let s := if overrun || 4095 < cnt then s.ctrlUp 3 0 else s.ctrlUp 2 cnt
      s.ctrlUp 4 reach

/-- ENUM goes down: the level is taken, and every UP downstream port is asked (R258). -/
def State.enumerate (level : Nat) (s : State) : State :=
  let ports := if level < 8 then s.downPorts else []
  let s := s.modSlt (fun x => { x with
    level, disc := 1
    ports := vmap (fun p y => { y with
      asked := ports.contains p, counted := false, overrun := false, reach := none
      sub := if ports.contains p then 0 else y.sub }) x.ports })
  (each ports (fun p s => s.sendPair p kDown (ctrlPay 1 (level + 1))) s).tryAnswer

/-- SLATE_JOIN dispatched (R258, R275): the root finds the tree; a LOCKED member asks to join, and one in a discovery
is counted. -/
def State.slateJoin (slot c : Nat) (s : State) : State :=
  let s := s.modSlt (fun x => { x with
    join := some (slot, s.elapsed + s.sheet.s9.joinTo * 1000000), ctx := c, lost := x.lost })
  if s.role == 2 then s.enumerate 1
  else if s.slateLocked && s.slt.disc != 1 then s.ctrlUp 7 1
  else s

/-! ## Lanes -/

/-- A port trains (R248): it counts its exchanges afresh; one that faces a parent measures its flight with them. -/
def State.train (p : Nat) (s : State) : State :=
  let s := s.modPort p (fun x => { x with st := 1, child := s.faceChild p, exch := 0, last := none })
  if s.faceChild p then s
  else s.modSlt (fun x => { x with time := { x.time with
    flights := [], pingAt := s.elapsed + s.sheet.s9.pingInt * 1000, pingOut := none, locked := false, good := 0, missing := 0
    tickAt := 0, trim := 0 } })

/-- A link is lost (R273): on port 0 the chip acts as on DETACH, and releases where it waits; on a port that faces a child
the port leaves the combine set, and its answers are gone. -/
def State.linkLost (p : Nat) (s : State) : State :=
  if s.faceChild p then
    let k := if (vget s.slt.ports p).incl || (vget s.slt.ports p).counted then (vget s.slt.ports p).sub else 0
    let s := s.modPort p (fun x => { x with
      incl := false, counted := false, arrived := none, sub := 0, excl := 0, asked := false, joinWait := none, reach := none })
    -- an ARRIVE goes before the CTRL markers (R252)
    ((s.raise 0x03B (.unit 0) p).tryCombine.leaveUp k).tryAnswer.reachChanged
  else s.releaseNow.detached

/-- LANE_UP: alignment, the far end's ordered set, which must be the other one (`m.other`), and 64 exchanges (R248). A port that faces a
parent has measured its flight by its exchanges. On a port that faces a child `m.flight`, in 0.125 ns, is what the child
reports (R278); on one that is UP already the report has changed. -/
def execLaneUp (p : SltPort) (m : LaneTrain) (s : State) : Host.Outcome State Fault Refusal :=
  .next (
    let x := vget s.slt.ports p
    let child := s.faceChild p
    if !s.portOn p || !s.pins.rdy then s
    else if x.st == 2 then
      if child then (s.modPort p (fun x => { x with flight := min 4095 m.flight })).reachChanged else s
    else if !m.other || x.exch < 64 then s
    else
      let s := s.modPort p (fun x => { x with
        st := 2, child, incl := false, flight := if child then min 4095 m.flight else x.flight, excl := 0, sub := 0
        arrived := none, asked := false, counted := false, overrun := false, reach := none, joinWait := none, last := none })
      if child then s
      else s.modSlt (fun x => { x with time := { x.time with good := 0, missing := 0, locked := false } }))

/-- An UP lane goes DOWN; it trains again at once (R249). -/
def State.laneDown (p : Nat) (s : State) : State :=
  if (vget s.slt.ports p).st != 2 then s else (s.train p).linkLost p

/-! ## Receipt of a marker (R251) -/

/-- A marker whose check byte is bad, or which came from the wrong side, is counted in MK_ERR. -/
def State.mkBad (p : Nat) (s : State) : State :=
  (s.modSlt (fun x => { x with mkErr := satInc 6 x.mkErr })).modPort p (fun x => { x with last := none })

/-- A marker received: the check byte, the side it came from, the second copy of a
pair, which follows the first at once: within the 16 ns of a marker. -/
def State.recvMk (p k : Nat) (pay : BitVec 16) (chk : BitVec 8) (up pair : Bool) (act : State → State) (s : State) :
    State :=
  let x := vget s.slt.ports p
  let w := mkWord k pay
  if x.st == 0 then s
  else if chk != mkCheck k pay || s.faceChild p != up then s.mkBad p
  else if x.st == 1 && k != kPing && k != kEcho then s
  else if pair && (match x.last with
      | some (v, t) => v == w && decide (s.elapsed ≤ t + 16)
      | none => false) then s.modPort p (fun x => { x with last := some (w, s.elapsed) })
  else act (s.modPort p (fun x => { x with last := if pair then some (w, s.elapsed) else none }))

/-- A CTRL marker received. -/
def State.recvCtrl (p op : Nat) (arg : BitVec 12) (chk : BitVec 8) (up : Bool) (act : State → State) (s : State) :
    State :=
  s.recvMk p (if up then kUp else kDown) (ctrlPay op arg.toNat) chk up true act

/-! ## Pacing markers -/

/-- MK_ARRIVE: one port's READY; before the last forwarded release instant it is discarded and counted (R263). -/
def State.mkArrive (p : SltPort) (pay : BitVec 16) (chk : BitVec 8) (s : State) : State :=
  (s.recvMk p kArrive pay chk true true (fun s =>
    if s.elapsed < s.slt.lastFwd then s.modSlt (fun x => { x with raceCnt := satInc 6 x.raceCnt })
    else
      let r := s.slate16 pay.toNat
      ((s.modPort p (fun x => { x with arrived := some r })).modSlt (fun x => { x with open_ := true })).tryCombine))

/-- MK_RELEASE: T_R of the open slate (R264, R265). -/
def State.mkRelease (p : SltPort) (pay : BitVec 16) (chk : BitVec 8) (s : State) : State :=
  (s.recvMk p kRelease pay chk false true (fun s => if s.inTree then s.passRelease kRelease (s.slate16 pay.toNat) else s))

/-- MK_ABORT: T_R of an aborted slate (R269). -/
def State.mkAbort (p : SltPort) (pay : BitVec 16) (chk : BitVec 8) (s : State) : State :=
  (s.recvMk p kAbort pay chk false true (fun s => if s.inTree then s.passRelease kAbort (s.slate16 pay.toNat) else s))

/-! ## Time -/

/-- The full tick index that 8 bits name: the next one after the last. -/
def tickOf (last idx : Nat) : Nat := last + (idx + 256 - last % 256) % 256

/-- LOCKED is lost: a link loss of port 0 (R255). -/
def State.lockLost (s : State) : State :=
  (s.modSlt (fun x => { x with time := { x.time with locked := false, good := 0 } })).linkLost 0

/-- A TIME taken in (R255). -/
def State.takeTime (pay : BitVec 16) (s : State) : State :=
  let t := s.slt.time
  let first := t.tickAt == 0
  let tick := if first then fld pay.toNat 8 8 else tickOf t.lastTick (fld pay.toNat 8 8)
  let now : Int := 8 * 4096 * (tick : Int) + 2 * (fld pay.toNat 0 8 : Nat) + (t.flight : Nat)
  let offs := now - 8 * (s.elapsed : Int)
  let err := offs - s.slateOffs s.elapsed
  let corr := err.natAbs
  let good := if !first && corr ≤ 2 then t.good + 1 else 0
  let s := s.modSlt (fun x => { x with time := { x.time with
    offs, trim := if first then 0 else Config.slateTrim t.trim err, good, missing := 0, lastTick := tick
    tickAt := s.elapsed } })
  if t.locked && 16 < corr then s.lockLost
  else if !t.locked && 512 ≤ good then
    let s := s.modSlt (fun x => { x with time := { x.time with locked := true } })
    let s := if s.slt.join.isSome && s.slt.disc != 1 then s.ctrlUp 7 1 else s
    s.tryAnswer
  else s

/-- A tick has not come; four in a row lose LOCKED (R255). The slate time goes on as it ran. -/
def State.tickMissing (s : State) : State :=
  let t := s.slt.time
  if s.role != 1 || t.tickAt == 0 then s
  else
    let s := s.advanceTo (t.tickAt + 4096)
    let s := s.modSlt (fun x => { x with time := { x.time with
      offs := s.slateOffs s.elapsed, missing := x.time.missing + 1, good := 0, tickAt := t.tickAt + 4096 } })
    if t.locked && 4 ≤ t.missing + 1 then s.lockLost else s

/-- TIME_TICK: the next multiple of 4,096 ns of slate time: TIME on every UP downstream port, by the root and by a
LOCKED member. The launch offset is a free value, 0.25 ns; one above 63.75 ns withholds the marker (R252). -/
def execTimeTick (s : State) : Host.Outcome State Fault Refusal :=
  .next (
    if !s.slateLocked then s
    else
      let k := fdivI (s.toSlate s.elapsed) 4096 + 1
      let s := s.advanceTo (s.toElapsed (4096 * k))
      let (v, s) := s.drawNat
      if 255 < v then s
      else each s.downPorts (fun p s => s.sendMk p kTime (BitVec.ofNat 16 (v + 256 * tc 8 k))) s)

/-- MK_PING: answered by an ECHO with its turnaround, 0.25 ns; one beyond 87.75 ns is not sent (R252, R254). -/
def execMkPing (p : SltPort) (pay : BitVec 16) (chk : BitVec 8) (turn : Nat) (s : State) :
    Host.Outcome State Fault Refusal :=
  .next (s.recvMk p kPing pay chk true false (fun s =>
    if 351 < turn then s
    else (s.sendMk p kEcho (BitVec.ofNat 16 (fld pay.toNat 0 8 + 256 * (turn - 96)))).modPort p
      (fun x => { x with exch := x.exch + 1 })))

/-- MK_ECHO: the answer to the PING outstanding; `rtt` in 0.125 ns. A flight that changes re-forms REACH above. -/
def execMkEcho (p : SltPort) (pay : BitVec 16) (chk : BitVec 8) (rtt : Nat) (s : State) :
    Host.Outcome State Fault Refusal :=
  .next (s.recvMk p kEcho pay chk false false (fun s =>
    match s.slt.time.pingOut with
    | none => s
    | some (q, _) =>
      if fld pay.toNat 0 8 != q then s
      else
        let d := rtt - (192 + 2 * fld pay.toNat 8 8)
        let s := s.modSlt (fun x => { x with time := { x.time with
          flights := (d :: x.time.flights).take 64, pingOut := none } })
        s.modPort 0 (fun x => { x with flight := min 4095 s.slt.time.flight, exch := x.exch + 1 })))

/-- PING_INTERVAL: a PING on port 0 of a member, in training and while UP (R248, R254). -/
def execPingInterval (s : State) : Host.Outcome State Fault Refusal :=
  .next (
    if s.role != 1 || (vget s.slt.ports 0).st == 0 then s
    else
      let s := s.advanceTo s.slt.time.pingAt
      let q := s.slt.time.pingSeq
      let s := s.modSlt (fun x => { x with time := { x.time with
        pingSeq := (q + 1) % 256, pingAt := s.elapsed + s.sheet.s9.pingInt * 1000
        pingOut := some (q, s.elapsed + 1000) } })
      s.sendMk 0 kPing (BitVec.ofNat 16 q))

/-- PING_TIMEOUT: a PING without an answer within 1 us is dropped. -/
def execPingTimeout (s : State) : Host.Outcome State Fault Refusal :=
  .next (match s.slt.time.pingOut with
    | none => s
    | some (_, t) => (s.advanceTo t).modSlt (fun x => { x with time := { x.time with pingOut := none } }))

/-! ## CTRL markers (Table 8-2) -/

/-- ENUM: discovery reaches this chip. -/
def State.mkEnum (p : SltPort) (arg : BitVec 12) (chk : BitVec 8) (s : State) : State :=
  (s.recvCtrl p 1 arg chk false (fun s => s.enumerate (min 8 arg.toNat)))

/-- COUNT: participants below a port. -/
def State.mkCount (p : SltPort) (arg : BitVec 12) (chk : BitVec 8) (s : State) : State :=
  (s.recvCtrl p 2 arg chk true (fun s =>
    (s.modPort p (fun x => { x with sub := arg.toNat, counted := true, overrun := false })).tryAnswer))

/-- COUNT_OVER: more than 4,095 participants below a port. -/
def State.mkCountOver (p : SltPort) (arg : BitVec 12) (chk : BitVec 8) (s : State) : State :=
  (s.recvCtrl p 3 arg chk true (fun s => (s.modPort p (fun x => { x with counted := true, overrun := true })).tryAnswer))

/-- REACH of a port's subtree. -/
def State.mkReach (p : SltPort) (arg : BitVec 12) (chk : BitVec 8) (s : State) : State :=
  (s.recvCtrl p 4 arg chk true (fun s =>
    ((s.modPort p (fun x => { x with reach := some arg.toNat })).tryAnswer).reachChanged))

/-- SIZE: the new N, taken at START or at the next release (R258, R267). -/
def State.mkSize (p : SltPort) (arg : BitVec 12) (chk : BitVec 8) (s : State) : State :=
  (s.recvCtrl p 5 arg chk false (fun s =>
    (s.modSlt (fun x => { x with nNext := some (arg.toNat + 1) })).sendDown kDown (ctrlPay 5 arg.toNat)))

/-- START: the tree runs; every pending SLATE_JOIN completes (R258). -/
def State.mkStart (p : SltPort) (arg : BitVec 12) (chk : BitVec 8) (s : State) : State :=
  (s.recvCtrl p 6 arg chk false (fun s => (s.sendDown kDown (ctrlPay 6 0)).started))

/-- JOIN: participants to be added below a port; at once when no slate is open (R275). -/
def State.mkJoin (p : SltPort) (arg : BitVec 12) (chk : BitVec 8) (s : State) : State :=
  (s.recvCtrl p 7 arg chk true (fun s =>
    let s := s.modPort p (fun x => { x with joinWait := some (x.joinWait.getD 0 + arg.toNat) })
    if s.inTree && !s.slt.open_ then (s.admitPort p).reachChanged else s))

/-- ADMIT: the joiner is in; its first slate is the next one (R275). -/
def State.mkAdmit (p : SltPort) (arg : BitVec 12) (chk : BitVec 8) (s : State) : State :=
  (s.recvCtrl p 8 arg chk false (fun s =>
    match s.slt.join with
    | none => s
    | some (q, _) =>
      (((s.modSlt (fun x => { x with
        join := none, joined := true, relay := false, open_ := false, upSent := false, ready := none, own := none
        skips := 0, sentFor := none, relFor := none, disc := 2, reach := 0 })).closeUnit 0 [0x03A]).complete q .done
          s.slt.n).admitAll.reachChanged))

/-- LEAVE: participants gone below a port; the port stays in the combine set (R274). -/
def State.mkLeave (p : SltPort) (arg : BitVec 12) (chk : BitVec 8) (s : State) : State :=
  (s.recvCtrl p 9 arg chk true (fun s =>
    (s.modPort p (fun x => { x with sub := x.sub - arg.toNat })).leaveUp arg.toNat))

/-- DETACH: this subtree is out (R271). -/
def State.mkDetach (p : SltPort) (arg : BitVec 12) (chk : BitVec 8) (s : State) : State :=
  (s.recvCtrl p 10 arg chk false State.detached)

/-- DISSOLVE: the tree ends without a fault (R274). -/
def State.mkDissolve (p : SltPort) (arg : BitVec 12) (chk : BitVec 8) (s : State) : State :=
  (s.recvCtrl p 11 arg chk false State.dissolveNow)

/-! ## The chip's own arrivals and its timers -/

/-- The SLATE shot whose ARRIVE is due next: its SEQ, its READY, and the earliest instant its own events allow (R261). -/
def State.slateDue (s : State) : Option (Nat × Nat × Nat) :=
  let c := s.slt.ctx
  let x := s.cx c
  let cur := match x.cur, x.played.getLast? with
    | some i, some p => if s.slateShot c (s.shot c i) && p.end_.isNone then p.onset.map (fun o => (p.seq, o, s.elapsed)) else none
    | _, _ => none
  let nxt := match x.next with
    | some nx => match nx.shot, nx.onset, nx.cueAt with
      | some i, some o, some t => if s.slateShot c (s.shot c i) then some (x.seq, o, t) else none
      | _, _, _ => none
    | none => none
  if !x.plan then none
  else match cur with
    | some e => if s.slt.sentFor == some e.1 then nxt.filter (fun e => s.slt.sentFor != some e.1) else some e
    | none => nxt.filter (fun e => s.slt.sentFor != some e.1)

/-- The instant at which the chip's own ARRIVE goes (R261). -/
def State.arriveAt (s : State) : Option Nat :=
  if !s.slt.joined || s.slt.ready.isSome || s.slt.own.isSome then none
  else s.slateDue.map (fun e =>
    max e.2.2 (max (e.2.1 - 16384) (match s.slt.lastRel with
      | some r => r + 64
      | none => 0)))

/-- The chip's own arrival for its next SLATE shot, or a skip paid, whose release is the shot's own onset (R261, R270). -/
def State.arriveSend (s : State) : State :=
  match s.slateDue, s.arriveAt with
  | some (q, ready, _), some t =>
    let s := (s.advanceTo t).modSlt (fun x => { x with sentFor := some q })
    if 0 < s.slt.skips then
      let s := s.modSlt (fun x => { x with skips := x.skips - 1, skipCnt := satInc 8 x.skipCnt })
      let old := s.slt.rel
      let s := s.releaseAt ready
      (match old with
        | some r => s.modSlt (fun x => { x with rel := some r, relNext := some ready })
        | none => s).raise 0x039 (.unit 0) 0
    else s.arrive ready
  | _, _ => s

/-- SLATE_RELEASE_INSTANT: the release (R265, R267, R274, 07 R221): the new N, p of every ledger, the leaver's end. -/
def execSlateReleaseInstant (s : State) : Host.Outcome State Fault Refusal :=
  .next (match s.slt.rel with
    | none => s
    | some t =>
      let s := s.advanceTo t
      let s := s.modSlt (fun x => { x with rel := x.relNext, relNext := none, n := x.nNext.getD x.n, nNext := none })
      let s := { s with clu := vmap (fun _ c => { c with led := { c.led with p := 0 } }) s.clu }
      if s.slt.leaving && s.role != 2 then
        let kids := s.slt.ports.toList.any (fun p => p.incl)
        s.unjoin.modSlt (fun x => { x with relay := kids })
      else s)

/-- The root's READY and SLT_TO pass with its combine incomplete: ABORT (R269). -/
def State.abortAt (s : State) : Option Nat :=
  if s.role == 2 && s.slt.open_ && !s.slt.upSent then s.slt.ready.map (fun r => r + s.sheet.s9.sltTo * 1000) else none

/-- The abort of the root. -/
def State.slateTimeout (s : State) : State :=
  match s.abortAt with
  | none => s
  | some t =>
    let s := s.advanceTo t
    (s.rootRelease kAbort (s.toSlate s.elapsed + (s.slt.rlead : Nat))).raise 0x038 (.unit 0) 0

/-- LOCAL_MULT x SLT_TO past READY without a release (R272). -/
def State.localTimeout (s : State) : State :=
  match s.slt.ready with
  | none => s
  | some r =>
    let s := s.advanceTo (r + s.localNs)
    s.releaseNow.slateLost.leaveTree

/-! ## Events of one word clock (R276) -/

/-- The place of an event in its word clock (R276). -/
def slateRank : Instr → Nat
  | .laneDown _ | .tickMissing | .mkTime _ _ _ => 1
  | .mkRelease _ _ _ | .mkAbort _ _ _ | .mkDetach _ _ _ | .mkDissolve _ _ _ => 2
  | .mkArrive _ _ _ => 3
  | .arriveSend => 4
  | .slateTimeout | .localTimeout => 5
  | _ => 6

/-- The instant of an event that is due by itself. -/
def State.slateAt (s : State) : Instr → Option Nat
  | .tickMissing => if s.role != 1 || s.slt.time.tickAt == 0 then none else some (s.slt.time.tickAt + 4096)
  | .arriveSend => s.arriveAt
  | .slateTimeout => s.abortAt
  | .localTimeout => s.slt.ready.map (fun r => r + s.localNs)
  | _ => none

/-- A command is an event of the word clock of 4 ns in progress: a marker or the loss of a lane, which no time precedes, or an
event of the chip's own that is due in it. -/
def State.slateNow (s : State) (c : Instr) : Bool :=
  match c with
  | .laneDown _ | .mkTime _ _ _ | .mkRelease _ _ _ | .mkAbort _ _ _ | .mkDetach _ _ _ | .mkDissolve _ _ _ | .mkArrive _ _ _
  | .mkEnum _ _ _ | .mkCount _ _ _ | .mkCountOver _ _ _ | .mkReach _ _ _ | .mkSize _ _ _ | .mkStart _ _ _
  | .mkJoin _ _ _ | .mkAdmit _ _ _ | .mkLeave _ _ _ => true
  | .tickMissing | .arriveSend | .slateTimeout | .localTimeout => (match s.slateAt c with
    | some t => decide (t / 4 ≤ s.elapsed / 4)
    | none => false)
  | _ => false

/-- What an event does. -/
def State.slateDo (c : Instr) (s : State) : State :=
  match c with
  | .laneDown p => s.laneDown p
  | .tickMissing => s.tickMissing
  | .mkTime p pay chk => s.recvMk p kTime pay chk false false (State.takeTime pay)
  | .mkRelease p pay chk => s.mkRelease p pay chk
  | .mkAbort p pay chk => s.mkAbort p pay chk
  | .mkDetach p arg chk => s.mkDetach p arg chk
  | .mkDissolve p arg chk => s.mkDissolve p arg chk
  | .mkArrive p pay chk => s.mkArrive p pay chk
  | .arriveSend => s.arriveSend
  | .slateTimeout => s.slateTimeout
  | .localTimeout => s.localTimeout
  | .mkEnum p arg chk => s.mkEnum p arg chk
  | .mkCount p arg chk => s.mkCount p arg chk
  | .mkCountOver p arg chk => s.mkCountOver p arg chk
  | .mkReach p arg chk => s.mkReach p arg chk
  | .mkSize p arg chk => s.mkSize p arg chk
  | .mkStart p arg chk => s.mkStart p arg chk
  | .mkJoin p arg chk => s.mkJoin p arg chk
  | .mkAdmit p arg chk => s.mkAdmit p arg chk
  | .mkLeave p arg chk => s.mkLeave p arg chk
  | _ => s

/-- The next waiting command is an event of the same word clock. -/
def State.slateMore (s : State) : Bool :=
  match s.pending.head? with
  | some c => s.slateNow c
  | none => false

/-- An event reaches the chip: it waits while the next command is an event of the same word clock, and the last of them has all
of them handled in the order of R276. DESIGN CHOICE: log entry 119. -/
def State.slateEvent (c : Instr) (s : State) : State :=
  let s := match s.slateAt c with
    | some t => s.advanceTo t
    | none => s
  if s.slateMore then s.modSlt (fun x => { x with defer := x.defer ++ [c] })
  else
    let l := sortBy (fun a b => decide (slateRank a < slateRank b)) (s.slt.defer ++ [c])
    each l State.slateDo (s.modSlt (fun x => { x with defer := [] }))

/-! ## The rows of these events -/

/-- LANE_DOWN: 4 code violations within 256 symbols, or loss of alignment (R249). -/
def execLaneDown (p : SltPort) (s : State) : Host.Outcome State Fault Refusal :=
  .next (s.slateEvent (.laneDown p))

/-- TICK_MISSING: a tick of slate time has not come (R255). -/
def execTickMissing (s : State) : Host.Outcome State Fault Refusal :=
  .next (s.slateEvent .tickMissing)

/-- MK_TIME: a tick of the parent. -/
def execMkTime (p : SltPort) (pay : BitVec 16) (chk : BitVec 8) (s : State) : Host.Outcome State Fault Refusal :=
  .next (s.slateEvent (.mkTime p pay chk))

/-- RELEASE received (R264). -/
def execMkRelease (p : SltPort) (pay : BitVec 16) (chk : BitVec 8) (s : State) : Host.Outcome State Fault Refusal :=
  .next (s.slateEvent (.mkRelease p pay chk))

/-- ABORT received (R269). -/
def execMkAbort (p : SltPort) (pay : BitVec 16) (chk : BitVec 8) (s : State) : Host.Outcome State Fault Refusal :=
  .next (s.slateEvent (.mkAbort p pay chk))

/-- ARRIVE received (R263). -/
def execMkArrive (p : SltPort) (pay : BitVec 16) (chk : BitVec 8) (s : State) : Host.Outcome State Fault Refusal :=
  .next (s.slateEvent (.mkArrive p pay chk))

/-- ENUM received (R258). -/
def execMkEnum (p : SltPort) (arg : BitVec 12) (chk : BitVec 8) (s : State) : Host.Outcome State Fault Refusal :=
  .next (s.slateEvent (.mkEnum p arg chk))

/-- COUNT received (R258). -/
def execMkCount (p : SltPort) (arg : BitVec 12) (chk : BitVec 8) (s : State) : Host.Outcome State Fault Refusal :=
  .next (s.slateEvent (.mkCount p arg chk))

/-- COUNT_OVER received (R258). -/
def execMkCountOver (p : SltPort) (arg : BitVec 12) (chk : BitVec 8) (s : State) : Host.Outcome State Fault Refusal :=
  .next (s.slateEvent (.mkCountOver p arg chk))

/-- REACH received (R258). -/
def execMkReach (p : SltPort) (arg : BitVec 12) (chk : BitVec 8) (s : State) : Host.Outcome State Fault Refusal :=
  .next (s.slateEvent (.mkReach p arg chk))

/-- SIZE received (R267). -/
def execMkSize (p : SltPort) (arg : BitVec 12) (chk : BitVec 8) (s : State) : Host.Outcome State Fault Refusal :=
  .next (s.slateEvent (.mkSize p arg chk))

/-- START received (R258). -/
def execMkStart (p : SltPort) (arg : BitVec 12) (chk : BitVec 8) (s : State) : Host.Outcome State Fault Refusal :=
  .next (s.slateEvent (.mkStart p arg chk))

/-- JOIN received (R275). -/
def execMkJoin (p : SltPort) (arg : BitVec 12) (chk : BitVec 8) (s : State) : Host.Outcome State Fault Refusal :=
  .next (s.slateEvent (.mkJoin p arg chk))

/-- ADMIT received (R275). -/
def execMkAdmit (p : SltPort) (arg : BitVec 12) (chk : BitVec 8) (s : State) : Host.Outcome State Fault Refusal :=
  .next (s.slateEvent (.mkAdmit p arg chk))

/-- LEAVE received (R274). -/
def execMkLeave (p : SltPort) (arg : BitVec 12) (chk : BitVec 8) (s : State) : Host.Outcome State Fault Refusal :=
  .next (s.slateEvent (.mkLeave p arg chk))

/-- DETACH received (R271). -/
def execMkDetach (p : SltPort) (arg : BitVec 12) (chk : BitVec 8) (s : State) : Host.Outcome State Fault Refusal :=
  .next (s.slateEvent (.mkDetach p arg chk))

/-- DISSOLVE received (R274). -/
def execMkDissolve (p : SltPort) (arg : BitVec 12) (chk : BitVec 8) (s : State) : Host.Outcome State Fault Refusal :=
  .next (s.slateEvent (.mkDissolve p arg chk))

/-- ARRIVE_SEND: the instant of the chip's own arrival (R261). -/
def execArriveSend (s : State) : Host.Outcome State Fault Refusal :=
  .next (s.slateEvent .arriveSend)

/-- SLATE_TIMEOUT: SLT_TO past the root's READY (R269). -/
def execSlateTimeout (s : State) : Host.Outcome State Fault Refusal :=
  .next (s.slateEvent .slateTimeout)

/-- LOCAL_TIMEOUT: LOCAL_MULT x SLT_TO past READY (R272). -/
def execLocalTimeout (s : State) : Host.Outcome State Fault Refusal :=
  .next (s.slateEvent .localTimeout)

/-- JOIN_TIMEOUT: JOIN_TO has passed (R259). -/
def execJoinTimeout (s : State) : Host.Outcome State Fault Refusal :=
  .next (match s.slt.join with
    | none => s
    | some (q, t) =>
      ((s.advanceTo t).modSlt (fun x => { x with join := none, disc := if s.role == 2 then 0 else x.disc })).complete
        q .timeout 0)

end Sys2Proof.Machine
end

