-- ==== Sys2Proof/Machine/Banks.lean ====
section
/-! DEFINITION. Images in host memory: CRC-32, coefficient banks and their checks (04 R134, R135, R146), and the end of
a bank's load (R136, R137). -/

namespace Sys2Proof.Machine
open Sys2Proof

/-! ## CRC-32 (IEEE 802.3) -/

/-- One byte taken into a CRC-32, bits reflected. -/
def crc32Byte (crc b : Nat) : Nat :=
  (List.range 8).foldl (fun x _ => if x % 2 == 1 then (x / 2) ^^^ 0xEDB88320 else x / 2) (crc ^^^ b)

/-- A word's eight bytes, least significant first. -/
def crc32Word (crc : Nat) (w : Word64) : Nat :=
  (List.range 8).foldl (fun c i => crc32Byte c (fld w.toNat (8 * i) 8)) crc

/-- CRC-32 of an image of whole words. -/
def crc32 (l : List Word64) : Nat := (l.foldl crc32Word 0xFFFFFFFF) ^^^ 0xFFFFFFFF

/-- An image with bits `lo` to `lo + 31` of word `i` read as zero. -/
def zeroField (l : List Word64) (i lo : Nat) : List Word64 :=
  l.set i (BitVec.ofNat 64 (wordAt l i - fld (wordAt l i) lo 32 * 2 ^ lo))

/-- Words `i` to `i + n - 1` of an image are zero. -/
def zeroWords (l : List Word64) (i n : Nat) : Bool := (List.range n).all (fun j => wordAt l (i + j) == 0)

/-- Bits of a word from `lo` upward are zero. -/
def zeroFrom (l : List Word64) (i lo : Nat) : Bool := wordAt l i / 2 ^ lo == 0

/-! ## Bank images (Tables 4-5 to 4-8) -/

/-- The loop set at word `b`. -/
def loopOf (l : List Word64) (b : Nat) : LoopCoef :=
  let a := wordAt l b
  let c := wordAt l (b + 1)
  let d := wordAt l (b + 2)
  { ki := sfld a 0 24, b0 := sfld a 24 24, imax := sfld a 48 16, b1 := sfld c 0 24, b2 := sfld c 24 24
    imin := sfld c 48 16, a1 := sfld d 0 24, a2 := sfld d 24 24, sh := fld d 48 3 }

/-- The lane block of lane `k`. -/
def laneOf (l : List Word64) (k : Nat) : LaneCoef :=
  let b := 32 + 32 * k
  let c := wordAt l (b + 7)
  { loops := #v[loopOf l b, loopOf l (b + 4), loopOf l (b + 8), loopOf l (b + 12)]
    clPeak := fld c 0 7, clCont := fld c 7 7, clTime := fld c 14 4
    slMult := fld (wordAt l (b + 11)) 0 4, thOffset := sfld (wordAt l (b + 15)) 0 8
    n0 := sfld (wordAt l (b + 16)) 0 24, n1 := sfld (wordAt l (b + 16)) 24 24
    n2 := sfld (wordAt l (b + 17)) 0 24, m1 := sfld (wordAt l (b + 17)) 24 24
    m2 := sfld (wordAt l (b + 18)) 0 24, notchEn := bit (wordAt l (b + 18)) 24
    rff := fld (wordAt l (b + 19)) 0 8, trkMargin := fld (wordAt l (b + 19)) 8 12 }

/-- The bank of an image. -/
def bankOf (l : List Word64) : Bank :=
  let h := wordAt l 0
  { fswLo := fld h 0 9, fswHi := fld h 9 9, cls := fld h 18 8, red := bit h 26
    lanes := Vector.ofFn (fun k => laneOf l k.val), valid := true }

/-- Reserved fields and bytes of an image are zero (check 2). -/
def bankReserved (l : List Word64) : Bool :=
  zeroFrom l 0 27 && zeroFrom l 1 32 && zeroWords l 2 30 && zeroWords l 544 480 &&
  (List.range 16).all (fun k =>
    let b := 32 + 32 * k
    (List.range 4).all (fun j => zeroFrom l (b + 4 * j + 2) 51) &&
    zeroFrom l (b + 3) 0 && zeroFrom l (b + 7) 18 && zeroFrom l (b + 11) 4 && zeroFrom l (b + 15) 8 &&
    zeroFrom l (b + 16) 48 && zeroFrom l (b + 17) 48 && zeroFrom l (b + 18) 25 && zeroFrom l (b + 19) 20 &&
    zeroWords l (b + 20) 12)

/-- The fields of a lane lie in their ranges (check 4). A loop set of zeros is valid as it is written (R134). -/
def LaneCoef.inRange (c : LaneCoef) : Bool :=
  let q := fun (x : Int) => decide (-8388608 ≤ x) && decide (x < 8388608)
  let h := fun (x : Int) => decide (-32768 ≤ x) && decide (x < 32768)
  let fits := c.loops.toList.all (fun k =>
      q k.ki && q k.b0 && q k.b1 && q k.b2 && q k.a1 && q k.a2 && h k.imax && h k.imin && decide (k.sh ≤ 7)) &&
    q c.n0 && q c.n1 && q c.n2 && q c.m1 && q c.m2 && decide (c.rff ≤ 255) && decide (c.trkMargin ≤ 4095)
  let order := c.loops.toList.all (fun k => decide (k.imin ≤ k.imax))
  let cur := (vget c.loops 1 == ({} : LoopCoef) && c.clPeak == 0 && c.clCont == 0 && c.clTime == 0) ||
    (decide (8 ≤ c.clPeak) && decide (c.clPeak ≤ 64) && decide (8 ≤ c.clCont) && decide (c.clCont ≤ 40) &&
      decide (1 ≤ c.clTime) && decide (c.clTime ≤ 9))
  let slope := (vget c.loops 2 == ({} : LoopCoef) && c.slMult == 0) || decide (1 ≤ c.slMult)
  let th := decide (-127 ≤ c.thOffset) && decide (c.thOffset ≤ 0)
  fits && order && cur && slope && th && decide (1 ≤ c.trkMargin)

/-- A denominator is stable (check 5), on encoded values. -/
def stable (a1 a2 : Int) : Bool :=
  decide ((a2.natAbs : Int) < q22) && decide ((a1.natAbs : Int) < q22 - a2)

/-- Every denominator of a lane that is used is stable. -/
def LaneCoef.stableAll (c : LaneCoef) : Bool :=
  c.loops.toList.all (fun k => stable k.a1 k.a2) && (!c.notchEn || stable c.m1 c.m2)

/-- The first check of Table 4-8 that a bank fails for a cluster, 3 to 6. `ovl` is OVL_T of a lane's cell, none when
the lane has no cell. -/
def Bank.check (ovl : Nat → Option Nat) (b : Bank) : Option (Nat × Status) :=
  if b.fswHi < b.fswLo || b.fswLo < 200 || 320 < b.fswHi then some (3, .rejectedLimit)
  else if !b.lanes.toList.all LaneCoef.inRange then some (4, .rejectedLimit)
  else if !b.lanes.toList.all LaneCoef.stableAll then some (5, .rejectedLimit)
  else if (List.range 16).any (fun k => match ovl k with
      | some t => decide (t ≤ (vget b.lanes k).clTime)
      | none => false) then some (6, .rejectedLimit)
  else none

/-- An image of 8,192 bytes against Table 4-8. -/
def bankCheck (ovl : Nat → Option Nat) (l : List Word64) : Option (Nat × Status) :=
  if crc32 (zeroField l 1 0) != fld (wordAt l 1) 0 32 then some (1, .rejectedFormat)
  else if !bankReserved l then some (2, .rejectedFormat)
  else (bankOf l).check ovl

/-- OVL_T of lane `k` of cluster `n` under a call sheet. -/
def CallSheet.laneOvl (cs : CallSheet) (n k : Nat) : Option Nat :=
  if (cs.allCells n).contains k then (cs.cellDom n k).map (fun d => (cs.thresh d).ovlT) else none

/-- A lane of the built-in bank: the defaults of Table 4-6, R113 and R118, the notch off, and loops that the spec does not
give. A free loop set that fails a check of Table 4-8 is replaced by loops that never move. DESIGN CHOICE: log entry 116. -/
def builtinCoef (free : LaneCoef) : LaneCoef :=
  let c := { free with clPeak := 60, clCont := 39, clTime := 8, slMult := 4, thOffset := 0, trkMargin := 32, notchEn := false }
  if c.inRange && c.stableAll then c else { c with loops := vrep 4 {} }

/-- The built-in default bank (R146): its lanes' coefficients are not given, except that the notch is off. -/
def builtinBank : Bank :=
  { fswLo := 200, fswHi := 320, cls := 0, red := false
    lanes := Vector.ofFn (fun k => builtinCoef (Config.builtinLane k.val)), valid := true }

/-! ## The end of a load -/

/-- A load into cluster `n`'s inactive bank ends: a bank without a failing check is valid; a failure leaves the bank
marked invalid. -/
def State.bankLoaded (slot n : Nat) (b : Bank) (bad : Option (Nat × Status)) (s : State) : State :=
  let b' := match bad with
    | none => { b with valid := true }
    | some _ => { (s.cl n).ctl.inactive with valid := false }
  let s := s.modCl n (fun c => { c with ctl := { (c.ctl.setInactive b') with loadBusy := false } })
  match bad with
  | none => s.endPart slot n .done
  | some (k, st) => s.endPartWith slot n st k

/-- A load from the archive of cluster `n` has been read: slot `a`, poisoned or whole. -/
def State.archLoaded (slot n a : Nat) (poison : Bool) (s : State) : State :=
  let b := vget (vget s.up.arch n) a
  let bad := if poison then some (0, Status.poisoned) else b.check (s.sheet.laneOvl n)
  s.bankLoaded slot n b bad

/-- A load that the channel cannot serve (12 R386). -/
def State.archFailed (slot n : Nat) (s : State) : State :=
  s.bankLoaded slot n {} (some (0, .rejectedState))

end Sys2Proof.Machine
end

