-- ==== Sys2Proof/Machine/Channels.lean ====
section
/-! DEFINITION. The vertical channels (chapter 12): training, lanes and spares, reads, recalibration, the scrubber, and
what an offline channel does. -/

namespace Sys2Proof.Machine
open Sys2Proof

/-! ## Faults of a channel -/

/-- Scope of a channel's faults: its cluster, or unit 0x000 for G0 and G1 (R384). -/
def chScope (c : Nat) : Scope := .unit (if c < 64 then uClu c else 0)

/-- A raise of a channel: MASTER 128 + c, a link beat (14 Table 14-1). -/
def State.chRaise (code c detail : Nat) (s : State) : State :=
  s.raiseAcc code (chScope c) detail 0 (128 + c) 5 false

/-! ## Offline (R386, 06 R205) -/

/-- What channel `c` can no longer give: reads discarded, the cluster's feeds and preparations off, overflow records
lost; with both Gaffer channels gone every armed context fails. -/
def State.offEffects (c : Nat) (jobs : List ChJob) (s : State) : State :=
  if c < 64 then
    let s := each jobs (fun j s => match j with
      | .arch slot _ => s.archFailed slot c
      | .fill ctx p => s.modCx ctx (fun y => { y with ram := y.ram.filter (fun e => !(e.1 == c && e.2.1 == p)) })
      | _ => s) s
    let s := each (s.hs c) (fun h s => (s.withdraw c h).modHalf c h (fun x =>
      { x with feed := { x.feed with armed := false, fft := 0 } })) s
    let lost := vget s.host.ovf c
    let s := { s with host := { s.host with ovf := vset s.host.ovf c [] } }
    let held := s.host.held.filter (fun e => e.clu == some c)
    let s := { s with host := { s.host with held := s.host.held.filter (fun e => e.clu != some c), ovfAt := vset s.host.ovfAt c 0 } }
    each (lost ++ held) (fun e s => s.evLost e.ring e.notice) s
  else if s.chanOff 64 && s.chanOff 65 then
    each (List.range 16) (fun k s => if (s.cx k).plan then s.consume k else s) s
  else each jobs (fun j s => s.planRead (129 - c) j) s

/-- A channel goes offline, until block reset. -/
def State.goOffline (c : Nat) (vudc : Bool) (s : State) : State :=
  if (s.chan c).st == 3 then s
  else
    let jobs := (s.chan c).jobs
    let s := s.modChan c (fun ch => { ch with st := 3, jobs := [], issued := 0, archAt := 0, archBad := false, corrs := [], vudcLost := ch.vudcLost || vudc })
    (s.offEffects c jobs).chRaise 0x02B c 0

/-! ## Lanes (R384, R385, R388) -/

/-- Good DQ lanes. -/
def Channel.good (ch : Channel) : Nat := 80 - (bitsIn 80 ch.dqFail.toNat).length

/-- The lowest spare lane that is good and unused. -/
def Channel.spare (ch : Channel) : Option Nat :=
  ((List.range 8).map (fun i => 72 + i)).find? (fun l =>
    !ch.dqFail.getLsbD l && !ch.map.any (fun p => p.2 == l))

/-- The lanes that carry a word in half width: the 39 lowest good ones (R385). -/
def Channel.halfLanes (ch : Channel) : List Nat := ((List.range 80).filter (fun l => !ch.dqFail.getLsbD l)).take 39

/-- A data or check lane has failed and no good spare stands for it. -/
def Channel.short (ch : Channel) : Bool :=
  (List.range 72).any (fun l => ch.dqFail.getLsbD l && !ch.map.any (fun p => p.1 == l && !ch.dqFail.getLsbD p.2))

/-- The channel runs at half width. -/
def State.goHalf (c : Nat) (s : State) : State := s.modChan c (fun ch => { ch with st := 2, half := ch.halfLanes })

/-- A DQ lane is marked failed: a spare takes the place of the lane it served; without one, half width; with fewer than
39 good lanes, offline. -/
def State.dqFailed (c lane : Nat) (s : State) : State :=
  let s := s.modChan c (fun ch => { ch with dqFail := ch.dqFail ||| BitVec.ofNat 80 (2 ^ lane) })
  let ch := s.chan c
  let served := if lane < 72 then some lane else (ch.map.find? (fun p => p.2 == lane)).map (fun p => p.1)
  match served with
  | none => if ch.good < 39 then s.goOffline c false else s
  | some x =>
    match ch.spare with
    | some sp =>
      (s.modChan c (fun ch => { ch with map := ch.map.filter (fun p => p.1 != x) ++ [(x, sp)] })).chRaise 0x029 c lane
    | none =>
      if ch.good < 39 then s.goOffline c false
      else if ch.st == 1 then (s.goHalf c).chRaise 0x02A c lane
      else if ch.st == 2 then s.goHalf c else s

/-- A CA lane is marked failed: CA[9] stands for it; a second failure is the end. -/
def State.caFailed (c lane : Nat) (s : State) : State :=
  let had := (s.chan c).caFail != 0
  let s := s.modChan c (fun ch => { ch with caFail := ch.caFail ||| BitVec.ofNat 10 (2 ^ (lane - 80)) })
  if had then s.goOffline c false else if lane == 89 then s else s.chRaise 0x029 c lane

/-- A lane, 0 to 79 DQ and 80 to 89 CA, fails on a channel that is not offline. -/
def State.laneFail (c lane : Nat) (s : State) : State :=
  let ch := s.chan c
  if ch.st == 3 || decide (90 ≤ lane) then s
  else
    let s1 := s.modChan c (fun x => { x with failAt := some s.elapsed })
    if lane < 80 then (if ch.dqFail.getLsbD lane then s else s1.dqFailed c lane)
    else if ch.caFail.getLsbD (lane - 80) then s else s1.caFailed c lane

/-- A clock bond, 0 to 7, is lost: the other bond of its polarity carries on, or the channel ends. -/
def State.ckFail (c b : Nat) (s : State) : State :=
  let ch := s.chan c
  if ch.st == 3 || ch.ckFail.getLsbD b then s
  else
    let s := s.modChan c (fun x => { x with ckFail := x.ckFail ||| BitVec.ofNat 8 (2 ^ b) })
    if ch.ckFail.getLsbD (2 * (b / 2) + 1 - b % 2) then s.goOffline c false else s.chRaise 0x029 c (90 + b)

/-- Interval of recalibration in ns. -/
def State.recalNs (s : State) : Nat := max 1 (fld s.vrtCfg.toNat 8 8) * 100000

/-- Interval of the scrubber in ns (R376). -/
def State.scrubNs (s : State) : Nat := max 1 (fld s.vrtCfg.toNat 16 8) * 100000000

/-- The centre of a lane's eye. -/
def eyeCentre (e : LaneEye) : Nat := e.lo + e.width / 2

/-- CHANNEL_TRAINING: the end of a channel's training: each lane at the centre of its eye, and those whose eye is narrower than 4
steps repaired in ascending order (R381, R388). A lane that failed before keeps its spare, and a channel without one left stays at
half width. After a cluster reset the training begins once the cluster clock runs. -/
def execChannelTraining (ch : ChIx) (ok : Bool) (eyes : List LaneEye) (s : State) : Host.Outcome State Fault Refusal :=
  .next (
    let c := ch.val
    if (s.chan c).st != 0 || (decide (c < 64) && (s.cl c).inReset.isSome && !s.chanClock c) then s
    else if !ok then s.goOffline c false
    else
      let s := s.modChan c (fun x => { x with
        st := if x.short then 2 else 1, half := x.halfLanes, recalAt := s.elapsed + s.recalNs, group := 0
        scrubAt := s.elapsed + s.scrubNs
        delay := vmap (fun i d => ((eyes[i]?).map eyeCentre).getD d) x.delay })
      each ((eyes.zipIdx.filter (fun e => decide (e.1.width < 4))).map (fun e => e.2)) (fun l s => s.laneFail c l) s)

/-! ## Reads (R378 to R380, R392) -/

/-- An armed injection of kind 2 on channel `c`: the lanes of the beats it inverts in a transfer of `beats`, and what is
left of it (14 Table 14-8). -/
def injLane (c beats : Nat) (l : List Inject) : List Nat × List Inject :=
  match l.find? (fun i => i.kind == 2 && fld i.arg.toNat 8 7 == c && decide (0 < i.left)) with
  | none => ([], l)
  | some i =>
    let k := min beats i.left
    (List.replicate k (fld i.arg.toNat 0 7),
     if i.left ≤ k then l.filter (fun j => j != i) else l.map (fun j => if j == i then { j with left := j.left - k } else j))

/-- Corrections of one transfer: counted, kept for 1 ms, and lanes that reach LANE_ERR_N failed (R384). -/
def State.correct (c : Nat) (lanes : List Nat) (s : State) : State :=
  let now := s.elapsed
  let s := s.modChan c (fun ch => { ch with
    corr := satAdd 16 ch.corr lanes.length
    corrs := ch.corrs.filter (fun p => decide (now < p.2 + 1000000)) ++ lanes.map (fun l => (l, now)) })
  let n := max 1 (fld s.vrtCfg.toNat 0 8)
  let bad := (List.range 80).filter (fun l => decide (n ≤ ((s.chan c).corrs.filter (fun p => p.1 == l)).length))
  each bad (fun l s => s.laneFail c l) s

/-- A profile entry read for a context arrives in state RAM (06 R180, R204), or does not. -/
def State.profRead (c ctx p : Nat) (bad : Bool) (s : State) : State :=
  let fenced := (s.chan c).fenced
  let x := s.cx ctx
  let cur := match x.cur with
    | some i => x.plan && (s.shot ctx i).prof == p
    | none => false
  if bad then
    if fenced then s.modChan c (fun ch => { ch with fencePoison := satInc 3 ch.fencePoison })
    else if cur then s.consume ctx else s
  else
    let s := s.modCx ctx (fun y => { y with
      ram := y.ram.filter (fun e => !(e.1 == c && e.2.1 == p)) ++ [(c, p, s.profEnt c p)] })
    match x.cur with
    | some i => if cur && x.st == .armed then
        each ((s.ctxHalves ctx).filter (fun q => q.1 == c)) (fun q s => s.applyProf ctx q.1 q.2 (s.shot ctx i)) s
      else s
    | none => s

/-- A prefetched profile entry has come: one that is bad is poison in state RAM, and absent behind a fence (R392, 06 R180). -/
def State.fillRead (c ctx p : Nat) (bad : Bool) (s : State) : State :=
  let at_ := fun (e : Nat × Nat × ProfEnt) => e.1 == c && e.2.1 == p
  if !bad || !((s.cx ctx).ram.any at_) then s
  else if (s.chan c).fenced then
    (s.modChan c (fun ch => { ch with fencePoison := satInc 3 ch.fencePoison })).modCx ctx (fun y =>
      { y with ram := y.ram.filter (fun e => !at_ e) })
  else
    let s := s.modCx ctx (fun y => { y with
      ram := y.ram.map (fun e => if at_ e then (e.1, e.2.1, { e.2.2 with poison := true }) else e) })
    match (s.cx ctx).cur with
    | some i => if (s.cx ctx).plan && (s.shot ctx i).prof == p then s.consume ctx else s
    | none => s

/-- A prefetched line of shots has come: one that is bad is poison in the Gaffer SRAM, and absent behind a fence. -/
def State.shotsRead (c ctx line : Nat) (bad : Bool) (s : State) : State :=
  let at_ := fun (e : Nat × ShotEnt) => e.1 / 4 == line
  if !bad || !((s.cx ctx).pre.any at_) then s
  else if (s.chan c).fenced then
    (s.modChan c (fun ch => { ch with fencePoison := satInc 3 ch.fencePoison })).modCx ctx (fun y =>
      { y with pre := y.pre.filter (fun e => !at_ e) })
  else s.modCx ctx (fun y => { y with
    pre := y.pre.map (fun e => if at_ e then (e.1, { e.2 with poison := true }) else e) })

/-- Lines of an archive slot that a load reads, two in a burst (R379). -/
def archLines : Nat := 68

/-- A burst of an archive read has come: the last one brings the slot (R136). -/
def State.archBurst (c slot a : Nat) (bad : Bool) (s : State) : State :=
  let ch := s.chan c
  if ch.archAt + 2 < archLines then s.modChan c (fun x => { x with archAt := x.archAt + 2, archBad := x.archBad || bad })
  else
    let all := bad || ch.archBad || (vget s.up.archPoison c).getLsbD a
    (s.modChan c (fun x => { x with jobs := x.jobs.erase (.arch slot a), archAt := 0, archBad := false })).archLoaded slot c a all

/-- A line of the shot slice is poisoned: its four shots. -/
def State.poisonShots (line : Nat) (s : State) : State :=
  let put := fun (t : Tab ShotEnt) i =>
    Tab.put t i { (Tab.getD t i { w0 := 0, w1 := 0, poison := false }) with poison := true }
  { s with up := { s.up with shots := ((List.range 4).map (fun i => 4 * line + i)).foldl put s.up.shots } }

/-- A line of a cluster slice is poisoned: sixteen profile entries, or an archive slot. -/
def State.poisonLine (c line : Nat) (s : State) : State :=
  if line < 1024 then
    let put := fun (t : Tab ProfEnt) i => Tab.put t i { (Tab.getD t i { w := 0, poison := false }) with poison := true }
    { s with up := { s.up with prof := vmod s.up.prof c (fun t =>
        ((List.range 16).map (fun i => 16 * line + i)).foldl put t) } }
  else if line < 1536 && (line - 1024) % 128 < 68 then
    { s with up := { s.up with archPoison := vmod s.up.archPoison c (fun m =>
        m ||| BitVec.ofNat 4 (2 ^ ((line - 1024) / 128))) } }
  else if 1536 ≤ line then
    -- two records of the dailies overflow
    let hit := fun (i : Nat) => ((vget s.host.ovfAt c + i) % 3072) / 2 == line - 1536
    { s with host := { s.host with ovf := vmod s.host.ovf c (fun l =>
        l.zipIdx.map (fun p => if hit p.2 then { p.1 with poison := true } else p.1)) } }
  else s

/-- The line that a read took is poisoned in its slice. -/
def State.poisonJob (c : Nat) (j : ChJob) (s : State) : State :=
  match j with
  | .prof _ p | .fill _ p => s.poisonLine c (p / 16)
  | .arch _ a => s.poisonLine c (1024 + 128 * a + (s.chan c).archAt)
  | .shots _ line => s.poisonShots line

/-- CHANNEL_READ: the read at the head of a channel returns, of an archive slot its next burst. Behind a fence only what was issued
before it does (R392). A double-bit error that the slice met in storage leaves the line poisoned (R376). -/
def execChannelRead (ch : ChIx) (m : LineMeas) (s : State) : Host.Outcome State Fault Refusal :=
  .next (
    let c := ch.val
    match (s.chan c).jobs with
    | [] => s
    | j :: rest =>
      if (s.chan c).fenced && (s.chan c).issued == 0 then s
      else
      let arch := match j with
        | .arch _ _ => true
        | _ => false
      let s := s.modChan c (fun x => { x with
        jobs := if arch then x.jobs else rest, issued := x.issued - 1, corr := satAdd 16 x.corr m.fixed })
      let beats := if arch then 16 else 8
      let inj := injLane c (if (s.chan c).st == 2 then 2 * beats else beats) s.flt.injects
      let s := { s with flt := { s.flt with injects := inj.2 } }
      let s := if m.strobe then
          s.modChan c (fun x => { x with uncorr := satAdd 6 x.uncorr m.poison })
        -- no strobe: every beat returns as poison (R378)
        else s.modChan c (fun x => { x with uncorr := satAdd 6 x.uncorr beats, caErr := satInc 4 x.caErr })
      let bad := !m.strobe || decide (0 < m.poison) || m.dbl
      let s := if m.dbl then s.poisonJob c j else s
      let s := match j with
        | .prof ctx p => s.profRead c ctx p (bad || (s.profEnt c p).poison)
        | .arch slot a => s.archBurst c slot a bad
        | .fill ctx p => s.fillRead c ctx p bad
        | .shots ctx line => s.shotsRead c ctx line bad
      let s := (s.correct c m.corr).injected true (State.correct c inj.1)
      each m.ck (fun b s => s.ckFail c b) s)

/-! ## Recalibration and the scrubber (R376, R383) -/

/-- A lane recalibrated: its delay moves by one step at most toward the centre of its eye (R383). -/
def Channel.recal (lane : Nat) (e : LaneEye) (ch : Channel) : Channel :=
  let step := fun (d : Nat) => if d < eyeCentre e then d + 1 else if eyeCentre e < d then d - 1 else d
  { ch with delay := vmap (fun i (d : Nat) => if i == lane then step d else d) ch.delay }

/-- RECALIBRATION: one group of ten lanes; those whose eye has become narrow fail. It is the last of a channel's requests, and none
runs behind the fence (R379, R392). One that falls on the cycle of a lane failure moves to the next slot (R388). -/
def execRecalibration (ch : ChIx) (eyes : List LaneEye) (s : State) : Host.Outcome State Fault Refusal :=
  .next (
    let c := ch.val
    if s.chanOff c || (s.chan c).fenced || !s.chanClock c || !(s.chan c).jobs.isEmpty then s
    else
      let s := s.advanceTo (s.chan c).recalAt
      let g := (s.chan c).group
      if (s.chan c).failAt == some s.elapsed then
        s.modChan c (fun x => { x with recalAt := s.elapsed + s.recalNs })
      else
      let s := s.modChan c (fun x => { x with recalAt := s.elapsed + s.recalNs, group := (g + 1) % 9 })
      each eyes.zipIdx (fun p s =>
        let l := 10 * g + p.2
        let s := s.modChan c (Channel.recal l p.1)
        if p.1.width < 4 then s.laneFail c l else s) s)

/-- SCRUB: the scrubber ends its pass over one slice, SCRUB_INT after the last: lines with a corrected word, and lines found
poisoned. The two channels of the shot slice share one pass. -/
def execScrub (slice : Fin 65) (corrected poisoned : List Nat) (s : State) : Host.Outcome State Fault Refusal :=
  .next (
    let c := slice.val
    let runs := fun (c : Nat) => !s.chanOff c && !(s.chan c).fenced && s.chanClock c
    let one := fun (c : Nat) (s : State) => s.modChan c (fun x => { x with corr := satInc 16 x.corr })
    let turn := fun (s : State) =>
      let s := s.advanceTo (s.chan c).scrubAt
      s.modChan c (fun x => { x with scrubAt := s.elapsed + s.scrubNs })
    if c < 64 then
      if runs c then each poisoned (fun l s => s.poisonLine c l) (each corrected (fun _ s => one c s) (turn s)) else s
    else if runs 64 || runs 65 then
      each poisoned State.poisonShots (each corrected (fun l s => one (s.shotChan l) s) (turn s))
    else s)

/-- VUDC_LOSS: ZN_VUDC below its retention level takes every channel offline (R386). -/
def execVudcLoss (s : State) : Host.Outcome State Fault Refusal :=
  .next (each (List.range 66) (fun c s =>
    (s.goOffline c true).modChan c (fun x => { x with vudcLost := true })) s)

end Sys2Proof.Machine
end

