-- ==== Sys2Proof/Machine/CallSheet.lean ====
section
/-! DEFINITION. The call-sheet image: its header, tables and sections, and the checks of 02 Table 2-12. -/

namespace Sys2Proof.Machine
open Sys2Proof

/-- A field that zero leaves at a default. -/
def dflt (x d : Nat) : Nat := if x == 0 then d else x

/-- A number lies in a range. -/
def inR (lo hi x : Nat) : Bool := decide (lo ≤ x) && decide (x ≤ hi)

/-- A list has no repeats. -/
def distinct {α : Type} [BEq α] : List α → Bool
  | [] => true
  | x :: t => !t.contains x && distinct t

/-- A section directory entry (Table 2-10). -/
structure SecDir where
  ty : Nat
  off : Nat
  size : Nat
  deriving DecidableEq, Repr

/-- Word `i` of a section, zero past its SIZE. -/
def secWord (img : List Word64) (d : SecDir) (i : Nat) : Nat :=
  if 8 * (i + 1) ≤ d.size then wordAt img (d.off / 8 + i) else 0

/-- The first section of a type. -/
def secOf (ds : List SecDir) (ty : Nat) : Option SecDir := ds.find? (fun d => d.ty == ty)

/-! ## Header and tables (Tables 2-6 to 2-10) -/

/-- Directory entries of an image. -/
def dirOf (img : List Word64) : List SecDir :=
  let h := wordAt img 1
  let o := fld (wordAt img 5) 48 16 / 8
  (List.range (fld h 54 6)).map (fun i =>
    let w := wordAt img (o + i)
    { ty := fld w 0 16, off := fld w 16 16, size := fld w 32 16 })

/-- Cluster records of an image. -/
def cluRecs (img : List Word64) : List CluRec :=
  let o := fld (wordAt img 5) 0 16 / 8
  (List.range (fld (wordAt img 1) 32 7)).map (fun i =>
    let w := wordAt img (o + i)
    { clu := fld w 0 6, cells := BitVec.ofNat 16 (fld w 6 16), domLo := fld w 22 7, domHi := fld w 29 7 })

/-- Domain records of an image. -/
def domRecs (img : List Word64) : List DomRec :=
  let o := fld (wordAt img 5) 16 16 / 8
  (List.range (fld (wordAt img 1) 39 8)).map (fun i =>
    let a := wordAt img (o + 4 * i)
    let b := wordAt img (o + 4 * i + 1)
    let c := wordAt img (o + 4 * i + 2)
    { dom := fld a 0 7, dtype := fld a 7 3, vmin := fld a 10 12, vmax := fld a 22 12, vboot := fld a 34 12
      vreset := fld a 46 12, parent := fld a 58 6, ilim := fld b 0 16, slope := fld b 16 16, fmax := fld c 0 16
      thrDom := fld c 16 6, thrEn := bit c 22, stackMask := BitVec.ofNat 16 (fld (wordAt img (o + 4 * i + 3)) 0 16) })

/-- Group records of an image. -/
def grpRecs (img : List Word64) : List GrpRec :=
  let o := fld (wordAt img 5) 32 16 / 8
  (List.range (fld (wordAt img 1) 47 7)).map (fun i =>
    let w := wordAt img (o + i)
    { grp := fld w 0 6, level := fld w 6 3, parent := fld w 9 6 })

/-- Header fields, defaults substituted (R53). -/
def hdrOf (img : List Word64) : CshHdr :=
  let a := wordAt img 3
  let b := wordAt img 4
  { seq := BitVec.ofNat 32 (fld (wordAt img 2) 32 32), vinWarn := dflt (fld a 0 16) 1720, vinHyst := dflt (fld a 16 8) 30
    vinReset := dflt (fld a 24 16) 1550, vinWin := dflt (fld a 40 16) 50, cluSleep := dflt (fld b 0 10) 10
    gafSleep := dflt (fld b 10 10) 10, sleepI := fld b 20 8, parkN := dflt (fld b 28 9) 64 }

/-- LENGTH of an image lies in its range (check 1). -/
def lengthOk (n : Nat) : Bool := inR 64 65536 n && n % 8 == 0

/-- Check 1. -/
def csh1 (img : List Word64) : Bool :=
  fld (wordAt img 0) 0 32 == 0x5A435348 && fld (wordAt img 0) 32 16 == 0x0301 && lengthOk (fld (wordAt img 1) 0 32)

/-- Two byte ranges, start and length, share a byte. -/
def bytesMeet (a b : Nat × Nat) : Bool := decide (a.1 < b.1 + b.2) && decide (b.1 < a.1 + a.2)

/-- No two ranges of a list share a byte. -/
def apart : List (Nat × Nat) → Bool
  | [] => true
  | x :: t => !t.any (bytesMeet x) && apart t

/-- Check 3: counts, places and alignment. -/
def csh3 (img : List Word64) : Bool :=
  let h := wordAt img 1
  let o := wordAt img 5
  let len := fld h 0 32
  let nclu := fld h 32 7
  let ndom := fld h 39 8
  let ngrp := fld h 47 7
  let nsec := fld h 54 6
  let tabs := [(fld o 0 16, 8 * nclu), (fld o 16 16, 32 * ndom), (fld o 32 16, 8 * ngrp), (fld o 48 16, 8 * nsec)]
  let secs := (dirOf img).map (fun d => (d.off, d.size))
  let all := tabs ++ secs
  inR 1 64 nclu && inR 1 128 ndom && inR 1 64 ngrp && decide (nsec ≤ 32) &&
  (nsec != 0 || fld o 48 16 == 0) &&
  all.all (fun r => r.1 % 8 == 0 && decide (r.1 + r.2 ≤ len)) &&
  apart ((0, 64) :: all.filter (fun r => r.2 != 0))

/-- Reserved fields of the sections are zero, in the records that lie within SIZE. -/
def secReserved (img : List Word64) (d : SecDir) : Bool :=
  let w := secWord img d
  let top := fun (i lo : Nat) => w i / 2 ^ lo == 0
  let upto := fun (n base per : Nat) => List.range (min n ((d.size / 8 - base) / per))
  match d.ty with
  | 1 => top 0 39 && top 1 55 && top 2 40 && top 3 38 && (upto (fld (w 0) 31 8) 4 4).all (fun i =>
      top (4 + 4 * i) 7 && top (5 + 4 * i) 55 && top (6 + 4 * i) 40 && top (7 + 4 * i) 38)
  | 2 => top 0 58 && (upto (fld (w 0) 0 8) 1 2).all (fun i => top (2 + 2 * i) 51)
  | 3 => top 0 60
  | 4 => top 0 58 && (upto (fld (w 0) 51 7) 1 2).all (fun i => top (2 + 2 * i) 32)
  | 5 => top 0 46 && top 1 46 && top 2 43 && top 3 52
  | 6 => top 0 25 && top 1 63 && top 2 63 && top 3 18
  | 7 => top 0 61 && (upto (fld (w 0) 44 8) 1 1).all (fun i => top (1 + i) 32) &&
      (upto (fld (w 0) 52 9) (1 + fld (w 0) 44 8) 1).all (fun i => top (1 + fld (w 0) 44 8 + i) 14)
  | 8 => top 0 40 && (upto (fld (w 0) 0 8) 1 5).all (fun i => top (1 + 5 * i) 6)
  | 9 => top 0 57
  | _ => true

/-- Check 4: reserved fields. -/
def csh4 (img : List Word64) : Bool :=
  let h := wordAt img 1
  let o := wordAt img 5
  let tab := fun (lo n : Nat) (p : Nat → Bool) => (List.range n).all (fun i => p (fld o lo 16 / 8 + i))
  zeroFrom img 0 48 && zeroFrom img 1 60 && zeroFrom img 3 56 && zeroFrom img 4 37 && zeroWords img 6 2 &&
  tab 0 (fld h 32 7) (fun i => zeroFrom img i 36) &&
  tab 32 (fld h 47 7) (fun i => zeroFrom img i 15) &&
  tab 48 (fld h 54 6) (fun i => zeroFrom img i 48) &&
  (List.range (fld h 39 8)).all (fun i =>
    let b := fld o 16 16 / 8 + 4 * i
    zeroFrom img (b + 1) 32 && zeroFrom img (b + 2) 23 && zeroFrom img (b + 3) 16) &&
  (dirOf img).all (secReserved img)

/-- Check 5: indices, and the clusters and cells that the hardware has. -/
def csh5 (hw : Vector (BitVec 16) 64) (cs : CallSheet) : Bool :=
  distinct (cs.clus.map (fun r => r.clu)) && distinct (cs.doms.map (fun r => r.dom)) &&
  distinct (cs.grps.map (fun r => r.grp)) &&
  cs.clus.all (fun r => vget hw r.clu != 0 && r.cells &&& ~~~(vget hw r.clu) == 0)

/-- Check 6: types, cells and composition of the domains (R51, R52). -/
def csh6 (cs : CallSheet) : Bool :=
  cs.clus.all (fun r => (cs.domRec r.domLo).isSome && (cs.domRec r.domHi).isSome) &&
  decide ((cs.doms.filter (fun r => r.dtype == 4)).length ≤ 1) &&
  cs.doms.all (fun r =>
    let parts := cs.clus.flatMap (fun c => (c.halves.filter (fun p => p.2 == r.dom)).map (fun p => (c, p.1)))
    decide (r.dtype ≤ 4) && (r.dtype == 0 || r.vreset == 0) &&
    (if r.dtype == 4 then parts.isEmpty
     else parts.any (fun p => !(p.1.halfCells p.2).isEmpty) &&
       (parts.length == 1 || parts.all (fun p => !p.1.split))))

/-- Check 7: groups, levels and chains (R39). -/
def csh7 (cs : CallSheet) : Bool :=
  let kids := fun (g : Nat) =>
    (cs.doms.filter (fun r => r.parent == g)).map (fun _ => 2) ++
    (cs.grps.filter (fun r => r.grp != 0 && r.parent == g)).map (fun r => r.level)
  cs.doms.all (fun r => (cs.grpRec r.parent).isSome) &&
  cs.grps.all (fun r =>
    (if r.grp == 0 then r.parent == 0 else (cs.grpRec r.parent).isSome) &&
    inR 1 128 (kids r.grp).length && inR 3 7 r.level && (kids r.grp).all (fun l => decide (l < r.level)) &&
    cs.grpUnder 64 0 r.grp) && (cs.grpRec 0).isSome

/-! ## Sections -/

/-- A threshold record (03 Table 3-11): zeros select the fields of `b`. -/
def threshOf (w1 w2 w3 : Nat) (b : Thresh) : Thresh :=
  { dmin := dflt (fld w1 0 11) b.dmin, dmax := dflt (fld w1 11 11) b.dmax, droopTh := dflt (fld w1 22 5) b.droopTh
    ovsTh := dflt (fld w1 27 5) b.ovsTh, shuntTh := dflt (fld w1 32 5) b.shuntTh, kickT := dflt (fld w1 37 4) b.kickT
    kickRearm := dflt (fld w1 41 6) b.kickRearm, shuntT := dflt (fld w1 47 8) b.shuntT
    hiccupN := dflt (fld w2 0 11) b.hiccupN, hiccupHold := dflt (fld w2 11 9) b.hiccupHold
    hiccupRetry := dflt (fld w2 20 4) b.hiccupRetry, ilimCbc := dflt (fld w2 24 7) b.ilimCbc
    ovlT := dflt (fld w2 31 4) b.ovlT, ballastMax := dflt (fld w2 35 5) b.ballastMax
    ssRate := dflt (fld w3 0 8) b.ssRate, startWin := dflt (fld w3 8 4) b.startWin
    startTo := dflt (fld w3 12 10) b.startTo, openN := dflt (fld w3 22 6) b.openN, senseN := dflt (fld w3 28 6) b.senseN
    noswN := dflt (fld w3 34 4) b.noswN }

/-- A threshold record lies in its ranges (03 R102). -/
def Thresh.ok (t : Thresh) : Bool :=
  inR 1 1023 t.dmin && inR 1024 1900 t.dmax && inR 4 31 t.droopTh && inR 4 31 t.ovsTh && inR 4 24 t.shuntTh &&
  inR 2 10 t.kickT && inR 8 63 t.kickRearm && inR 10 200 t.shuntT && inR 8 1024 t.hiccupN && inR 2 500 t.hiccupHold &&
  inR 1 15 t.hiccupRetry && inR 48 80 t.ilimCbc && inR 1 10 t.ovlT && inR 1 20 t.ballastMax && inR 1 40 t.ssRate &&
  inR 1 15 t.startWin && inR 10 1000 t.startTo && inR 8 63 t.openN && inR 8 63 t.senseN && inR 2 15 t.noswN &&
  decide (2 * t.ovsTh < 4 * t.shuntTh)

/-- Section 0x0001 (03 R101, R102). -/
def sec1Of (cs : CallSheet) (d : SecDir) (w : Nat → Nat) : Option Sec1 :=
  let n := fld (w 0) 31 8
  let base := threshOf (w 1) (w 2) (w 3) {}
  let ovr := (List.range n).map (fun i => (fld (w (4 + 4 * i)) 0 7, threshOf (w (5 + 4 * i)) (w (6 + 4 * i)) (w (7 + 4 * i)) base))
  let x : Sec1 := { fsw := dflt (fld (w 0) 0 9) 250, syncDis := bit (w 0) 9, dspan := fld (w 0) 10 5
                    dseed := fld (w 0) 15 16, base, ovr }
  if d.size == 32 + 32 * n && decide (n ≤ 128) && inR 200 320 x.fsw && decide (x.dspan ≤ 16) &&
      decide (x.fsw * (400 + x.dspan) ≤ 320 * 400) && decide (200 * 400 ≤ x.fsw * (400 - x.dspan)) && base.ok &&
      ovr.all (fun p => p.2.ok && cs.cellFed p.1) && distinct (ovr.map (fun p => p.1)) then some x else none

/-- A cluster mask names clusters of the image only. -/
def CallSheet.maskOk (cs : CallSheet) (m : Nat) : Bool := (bitsIn 64 m).all (fun n => (cs.cluRec n).isSome)

/-- No cluster lies in two of the masks. -/
def masksApart (l : List Nat) : Bool :=
  (List.range 64).all (fun n => decide ((l.filter (fun m => bit m n)).length ≤ 1))

/-- Section 0x0002 but for the images it names (04 R145, R146). -/
def sec2Of (cs : CallSheet) (d : SecDir) (w : Nat → Nat) : Option Sec2 :=
  let n := fld (w 0) 0 8
  let es := (List.range n).map (fun i =>
    ({ mask := BitVec.ofNat 64 (w (1 + 2 * i)), addr := fld (w (2 + 2 * i)) 0 48
       dest := fld (w (2 + 2 * i)) 48 3 } : BankEntry))
  let x : Sec2 := { slewDef := dflt (fld (w 0) 8 8) 40, slewShot := dflt (fld (w 0) 16 8) 200
                    swapErr := dflt (fld (w 0) 24 6) 4, swapTo := dflt (fld (w 0) 30 10) 100
                    settleWin := dflt (fld (w 0) 40 8) 8, settleTo := dflt (fld (w 0) 48 10) 20, entries := es }
  if d.size == 8 + 16 * n && decide (n ≤ 128) && inR 1 200 x.slewDef && inR 1 200 x.slewShot && inR 1 1000 x.swapTo &&
      inR 1 1000 x.settleTo && es.all (fun e => decide (e.dest ≤ 4) && e.addr % 64 == 0 && cs.maskOk e.mask.toNat) &&
      (List.range 5).all (fun k => masksApart ((es.filter (fun e => e.dest == k)).map (fun e => e.mask.toNat))) then
    some x else none

/-- Section 0x0003 (09 R304, R305). -/
def sec3Of (d : SecDir) (w : Nat → Nat) : Option Sec3 :=
  let a := w 0
  let x : Sec3 := { trigV := bit a 0, trigI := bit a 1, dlyV := fld a 2 5, dlyI := fld a 7 5, pwV := dflt (fld a 12 8) 12
                    pwI := dflt (fld a 20 8) 25, chkN := dflt (fld a 28 4) 2, align := bit a 32
                    owInt := dflt (fld a 33 8) 64, owT := dflt (fld a 41 4) 2, dcapDly := dflt (fld a 45 6) 10
                    dcapDis := bit a 51, vinPw := dflt (fld a 52 8) 100 }
  if d.size == 8 && decide (x.dlyV ≤ 24) && decide (x.dlyI ≤ 24) && inR 16 255 x.owInt then some x else none

/-- Four limits coded in degrees + 64 (10 Table 10-5); zeros select those of `b`. -/
def tLimitsOf (a : Nat) (b : TLimits) : TLimits :=
  let t := fun (lo : Nat) (d : Int) => if fld a lo 8 == 0 then d else (fld a lo 8 : Int) - 64
  { lstop := t 0 b.lstop, lwarn := t 8 b.lwarn, hwarn := t 16 b.hwarn, thr := t 24 b.thr }

/-- Four limits lie in their ranges. -/
def TLimits.ok (t : TLimits) : Bool :=
  decide (-40 ≤ t.lstop) && decide (t.lstop ≤ 0) && decide (-30 ≤ t.lwarn) && decide (t.lwarn ≤ 40) &&
  decide (40 ≤ t.hwarn) && decide (t.hwarn ≤ 120) && decide (50 ≤ t.thr) && decide (t.thr ≤ 120)

/-- The order of R336 under a T_CRIT in 0.0625 degC. -/
def TLimits.ordered (tCrit : Int) (t : TLimits) : Bool :=
  decide (t.lstop < t.lwarn) && decide (t.lwarn < t.hwarn) && decide (t.hwarn ≤ t.thr) && decide (16 * t.thr ≤ tCrit - 80)

/-- Section 0x0004 (10 R336). -/
def sec4Of (tCrit : Int) (cs : CallSheet) (d : SecDir) (w : Nat → Nat) : Option Sec4 :=
  let a := w 0
  let n := fld a 51 7
  let base := tLimitsOf a {}
  let ovr := (List.range n).map (fun i => (BitVec.ofNat 64 (w (1 + 2 * i)), tLimitsOf (w (2 + 2 * i)) base))
  let x : Sec4 := { base, hyst := (dflt (fld a 32 4) 3 : Nat), fastBand := (dflt (fld a 36 5) 5 : Nat)
                    plaus := (dflt (fld a 41 6) 20 : Nat), tsN := dflt (fld a 47 4) 3, ovr }
  let forClu := fun (n : Nat) => ((ovr.find? (fun p => p.1.getLsbD n)).map (fun p => p.2)).getD base
  if d.size == 8 + 16 * n && decide (n ≤ 64) && base.ok && decide (x.fastBand ≤ 20) && decide (5 ≤ x.plaus) &&
      decide (x.plaus ≤ 60) && ovr.all (fun p => p.2.ok && cs.maskOk p.1.toNat) &&
      masksApart (ovr.map (fun p => p.1.toNat)) &&
      cs.clus.all (fun r => (forClu r.clu).ordered tCrit) then some x else none

/-- Rank values do not decrease along the ranks. -/
def rising : List Nat → Bool
  | a :: b :: t => decide (a ≤ b) && rising (b :: t)
  | _ => true

/-- Section 0x0005 (10 R337). -/
def sec5Of (d : SecDir) (w : Nat → Nat) : Option Sec5 :=
  let rk := (List.range 4).map (fun k =>
    let b := 23 * (k % 2)
    ({ act := fld (w (k / 2)) b 3, s := fld (w (k / 2)) (b + 3) 10, e := fld (w (k / 2)) (b + 13) 10 } : Rank))
  let used := rk.filter (fun r => r.act != 0)
  let c := w 2
  let g := w 3
  let x : Sec5 := { ranks := used, bubMax := dflt (fld c 0 6) 32, skipMax := dflt (fld c 6 4) 12
                    divMax := dflt (fld c 10 2) 3, vfNmax := dflt (fld c 12 3) 4, vfDv := dflt (fld c 15 8) 40
                    vfWait := dflt (fld c 23 10) 1, ageInt := dflt (fld c 33 10) 10, capG := dflt (fld g 0 8) 64
                    thG := dflt (fld g 8 8) 8, curStep := dflt (fld g 16 8) 32, slopeStep := dflt (fld g 24 8) 16
                    sensorD := dflt (fld g 32 10) 256, extD := dflt (fld g 42 10) 512 }
  if d.size == 32 && rk.all (fun r => decide (r.act ≤ 4)) && distinct (used.map (fun r => r.act)) &&
      used.all (fun r => decide (r.s < r.e)) && rising (used.map (fun r => r.s)) && rising (used.map (fun r => r.e)) &&
      inR 4 200 x.vfDv && inR 1 1000 x.vfWait && inR 1 1000 x.ageInt then some x else none

/-- Four words laid out as section 0x0006 (10 R338); none when a fraction or their sum exceeds 256. -/
def sec6Of (w : Nat → Nat) : Option Sec6 :=
  let fr := (List.range 7).map (fun i => fld (w 1) (9 * i) 9) ++ (List.range 7).map (fun i => fld (w 2) (9 * i) 9) ++
    [fld (w 3) 0 9, fld (w 3) 9 9]
  let x : Sec6 := { capChip := fld (w 0) 0 16, fracNone := fld (w 0) 16 9, frac := fr }
  if x.fracNone + sumN fr ≤ 256 then some x else none

/-- A pair with the smaller domain first. -/
def pairKey (p : Nat × Nat) : Nat × Nat := (min p.1 p.2, max p.1 p.2)

/-- Section 0x0007 (11 R363, R364). -/
def sec7Of (cs : CallSheet) (d : SecDir) (w : Nat → Nat) : Option Sec7 :=
  let a := w 0
  let nd := fld a 44 8
  let np := fld a 52 9
  let st := dflt (fld a 0 9) 100
  let recs := (List.range nd).map (fun i =>
    let r := w (1 + i)
    let dm := fld r 0 7
    ({ dom := dm, stageT := dflt (fld r 7 9) st, istg := dflt (fld r 16 16) (cs.domCells dm).length } : StageRec))
  let pairs := (List.range np).map (fun i => (fld (w (1 + nd + i)) 0 7, fld (w (1 + nd + i)) 7 7))
  let x : Sec7 := { stageT := st, stretch := dflt (fld a 9 3) 4, nbPeak := dflt (fld a 12 8) 224
                    waveSettle := dflt (fld a 20 8) 20, nbWait := dflt (fld a 28 8) 50
                    vcutDip := dflt (fld a 36 8) 192, recs, pairs }
  if d.size == 8 + 8 * (nd + np) && decide (nd ≤ 128) && decide (np ≤ 511) && inR 20 500 st && inR 2 4 x.stretch &&
      inR 128 255 x.nbPeak && inR 5 200 x.waveSettle && inR 128 255 x.vcutDip &&
      recs.all (fun r => inR 20 500 r.stageT && cs.cellFed r.dom) && distinct (recs.map (fun r => r.dom)) &&
      pairs.all (fun p => p.1 != p.2 && cs.cellFed p.1 && cs.cellFed p.2) && distinct (pairs.map pairKey) then
    some x else none

/-- Section 0x0008 (07 R243, R244). -/
def sec8Of (cs : CallSheet) (d : SecDir) (w : Nat → Nat) : Option Sec8 :=
  let a := w 0
  let n := fld a 0 8
  let half := (List.range n).map (fun i =>
    (fld (w (1 + 5 * i)) 0 6, BitVec.ofNat 256 (pack ((List.range 4).map (fun j => (64, w (2 + 5 * i + j)))))))
  let x : Sec8 := { burst := dflt (fld a 8 4) 2, rcShift := dflt (fld a 12 3) 3, lendQ := dflt (fld a 15 8) 16
                    fillQ := dflt (fld a 23 4) 2, slice := dflt (fld a 27 8) 8, sliceHold := dflt (fld a 35 4) 8
                    force := bit a 39, half }
  if d.size == 8 + 40 * n && decide (n ≤ 64) && inR 1 8 x.burst && inR 1 128 x.slice &&
      half.all (fun p => cs.isSplit p.1) && distinct (half.map (fun p => p.1)) then some x else none

/-- Section 0x0009 (08 R277). -/
def sec9Of (con : BitVec 4) (d : SecDir) (w : Nat → Nat) : Option Sec9 :=
  let a := w 0
  let x : Sec9 := { role := fld a 0 2, dnen := BitVec.ofNat 3 (fld a 2 3), sltTo := dflt (fld a 5 16) 200
                    localMult := dflt (fld a 21 4) 4, exclMax := dflt (fld a 25 4) 3, joinTo := dflt (fld a 29 10) 100
                    pingInt := dflt (fld a 39 10) 64, rmargin := dflt (fld a 49 8) 80 }
  if d.size == 8 && decide (x.role ≤ 2) && inR 10 65535 x.sltTo && inR 2 15 x.localMult && inR 1 1000 x.joinTo &&
      inR 16 1023 x.pingInt && inR 80 255 x.rmargin &&
      (List.range 3).all (fun p => !x.dnen.getLsbD p || con.getLsbD (p + 1)) &&
      (x.role == 0 || con.getLsbD 0) then some x else none

/-- A section parsed, or its default when absent; none when it fails. -/
def secGet {α : Type} (img : List Word64) (ds : List SecDir) (ty : Nat) (d0 : α)
    (f : SecDir → (Nat → Nat) → Option α) : Option α :=
  match secOf ds ty with
  | none => some d0
  | some d => f d (secWord img d)

/-- Check 8 but for bank images: the sections put into the call sheet. -/
def csh8 (con : BitVec 4) (tCrit : Int) (img : List Word64) (cs : CallSheet) : Option CallSheet :=
  let ds := dirOf img
  let tys := ds.map (fun d => d.ty)
  if !distinct tys || tys.any (fun t => t == 0 || decide (9 < t)) then none
  else do
    let s1 ← secGet img ds 1 {} (sec1Of cs)
    let s2 ← secGet img ds 2 {} (sec2Of cs)
    let s3 ← secGet img ds 3 {} sec3Of
    let s4 ← secGet img ds 4 {} (sec4Of tCrit cs)
    let s5 ← secGet img ds 5 {} sec5Of
    let s6 ← secGet img ds 6 {} (fun d w => if d.size == 32 then sec6Of w else none)
    let s7 ← secGet img ds 7 {} (sec7Of cs)
    let s8 ← secGet img ds 8 {} (sec8Of cs)
    let s9 ← secGet img ds 9 {} (sec9Of con)
    pure { cs with s1, s2, s3, s4, s5, s6, s7, s8, s9 }

/-- Check 9 (R344). -/
def csh9 (cs : CallSheet) : Bool :=
  let h := cs.hdr
  cs.doms.all (fun r =>
    decide (600 ≤ r.vmin) && decide (r.vmax ≤ 3800) && decide (r.vmin ≤ r.vmax) && inR r.vmin r.vmax r.vboot &&
    (r.dtype != 0 || inR r.vmin r.vmax r.vreset) && (r.dtype == 4 || r.slope != 0)) &&
  decide (h.cluSleep ≤ 1000) && decide (h.gafSleep ≤ 1000) && decide (h.sleepI ≤ 200) && inR 16 256 h.parkN &&
  inR 1450 2150 h.vinWarn && decide (1400 ≤ h.vinReset) && decide (h.vinReset + 50 ≤ h.vinWarn) && inR 10 100 h.vinHyst &&
  inR 10 1000 h.vinWin

/-- Checks 1 to 8 of an image, bank images apart: the call sheet, or the number of the first failing check. -/
def parseCsh (hw : Vector (BitVec 16) 64) (con : BitVec 4) (tCrit : Int) (img : List Word64) : Except Nat CallSheet :=
  let cs : CallSheet := { hdr := hdrOf img, clus := cluRecs img, doms := domRecs img, grps := grpRecs img }
  if !csh1 img then .error 1
  else if img.length * 8 != fld (wordAt img 1) 0 32 || crc32 (zeroField img 2 0) != fld (wordAt img 2) 0 32 then .error 2
  else if !csh3 img then .error 3
  else if !csh4 img then .error 4
  else if !csh5 hw cs then .error 5
  else if !csh6 cs then .error 6
  else if !csh7 cs then .error 7
  else match csh8 con tCrit img cs with
    | some cs => .ok cs
    | none => .error 8

/-- Bank images of section 0x0002, in the order of its entries, against Table 4-8 for every cluster they name, and
against FSW for DEST 0 (04 R146). -/
def CallSheet.banksOk (cs : CallSheet) (imgs : List (List Word64)) : Bool :=
  imgs.length == cs.s2.entries.length && (List.zip cs.s2.entries imgs).all (fun p =>
    let ns := bitsIn 64 p.1.mask.toNat
    let b := bankOf p.2
    p.2.length == 1024 && (bankCheck (fun _ => none) p.2).isNone && ns.all (fun n => (bankCheck (cs.laneOvl n) p.2).isNone) &&
    (p.1.dest != 0 || inR b.fswLo b.fswHi cs.s1.fsw))

/-- A domain's present set-point, as its telemetry record gives it: the AON domain's is its VBOOT (02 Table 2-12). -/
def State.presentCode (s : State) (d : Nat) : Nat :=
  match s.sheet.domRec d with
  | some r => if r.dtype == 4 then r.vboot else s.tgtInForce d
  | none => 0

/-- Checks 9 to 12 of a call sheet whose image and bank images are whole; 10 to 12 in service only. The number of the
first that fails, 0 for none. -/
def State.cshLater (s : State) (service : Bool) (cs : CallSheet) : Nat :=
  let old := s.sheet
  if !csh9 cs then 9
  else if !service then 0
  else if sortBy (fun a b : CluRec => decide (a.clu < b.clu)) cs.clus !=
        sortBy (fun a b : CluRec => decide (a.clu < b.clu)) old.clus ||
      (List.range 128).any (fun d => (cs.domRec d).map (fun r => r.dtype) != (old.domRec d).map (fun r => r.dtype)) then 10
  else if cs.doms.any (fun r => !inR r.vmin r.vmax (s.presentCode r.dom)) then 11
  else if s.ctx.toList.any (fun x => x.plan) then 12
  else 0

/-- The status of a failing check. -/
def cshStatus (k : Nat) : Status :=
  if k == 9 || k == 11 then .rejectedLimit else if k == 10 || k == 12 then .rejectedState else .rejectedFormat

end Sys2Proof.Machine
end

