-- ==== Sys2Proof/Machine/ShareBus.lean ====
section
/-! DEFINITION. The share-bus broadcast of the Gaffer (05 R150): what clusters report, call sheets and settings that wait
for a broadcast (02 R58, 07 R245, 10 R331), energy (10 R333 to R335), demands and shares (10 R318, R330), the record of
each domain (02 R47), withheld credits and allotments (07 R215, R216). -/

namespace Sys2Proof.Machine
open Sys2Proof

/-! ## Pools (02 R59, 07 R245) -/

/-- RECALL of shares of an amount from the halves of a domain, by weights (R215, R511). -/
def State.recallBy (d amt : Nat) (ws : List (Nat × Nat)) (s : State) : State :=
  each (divide amt ws) (fun p s => s.send { up := false, op := 6, dom := d, amt := p.2, clu := p.1, to_ := p.1 }) s

/-- A domain's pool takes a new size: a rise enters BF; a fall is taken from BF, then by RECALL in proportion to ORD,
what is still missing being owed. -/
def State.changePool (d new : Nat) (s : State) : State :=
  let x := s.dm d
  if x.pool ≤ new then
    let up := new - x.pool
    let pay := min up x.owed
    s.modDm d (fun x => { x with pool := new, owed := x.owed - pay, bf := x.bf + (up - pay) })
  else
    let star := new - x.rep.cap
    let bf := x.bf + (x.wh - star)
    let f := x.pool - new
    let k := min f bf
    let rest := f - k
    let s := s.modDm d (fun x => { x with pool := new, wh := min x.wh star, bf := bf - k, owed := x.owed + rest })
    let hs := s.sheet.domHalves d
    let ords := hs.map (fun p => (p.1, (s.half p.1 p.2).acc.ord))
    let caps := hs.map (fun p => (p.1, s.halfCap p.1 p.2))
    s.recallBy d rest (if sumN (ords.map (fun p => p.2)) == 0 then caps else ords)

/-- ILIM of a record as it applies over the assembled capacity (02 R61). -/
def effIlim (ilim asm : Nat) : Nat := if ilim == 0 then asm else min ilim asm

/-! ## A call sheet that takes effect (02 R58) -/

/-- A new carrier word for a cluster with a master, from its broadcast (03 R103): a locked master goes on with ZN_SYNC_IN
while that lies in the new window, and declares loss otherwise; a master that is not locked glides to the new FSW. -/
def State.newFsw (n : Nat) (old new : Sec1) (s : State) : State :=
  let c := s.carr n
  let sees := !new.syncDis && inWindow new.fsw s.sync.hz
  if c.locked && sees then s
  else
    s.setCarr n { c.glide s.elapsed (new.fsw * fswUnit) (glideRate (min old.fsw new.fsw)) with
      qualified := c.qualified && sees && !c.locked, locked := false }

/-- The slate ports under a new section 0x0009: a port that is off goes DOWN, one that comes on trains (08 R248). -/
def State.slatePorts (s : State) : State :=
  each (List.range 4) (fun p s =>
    let st := (vget s.slt.ports p).st
    if !s.portOn p && st != 0 then
      let s' := s.modPort p (fun x => { x with st := 0 })
      if st == 2 then s'.linkLost p else s'
    else if s.portOn p && st == 0 && s.pins.rdy then s.train p
    else s) s

/-- VIN thresholds of a call sheet, mV: warning, hysteresis, reset, window in us (11 R343). -/
def CshHdr.vinThr (h : CshHdr) : Nat × Nat × Nat × Nat := (h.vinWarn, h.vinHyst, h.vinReset, h.vinWin)

/-- A new FSW reaches a cluster: a master glides to it, and a cluster without one has no carrier to glide (R103). -/
def State.takeFsw (n : Nat) (old new : Sec1) (s : State) : State :=
  if (s.cl n).master.isSome then s.newFsw n old new
  else s.setCarr n { (s.carr n).setFreq s.elapsed (ditherFreq new (s.carr n).m) with qualified := false, locked := false }

/-- The sensing section that the conversions already begun act by (09 R305). -/
def State.keepS3 (old : Sec3) (s : State) : State :=
  { s with clu := vmap (fun _ (c : Cluster) => { c with
    sense := { c.sense with s3Was := some (old, s.elapsed) } }) s.clu }

/-- The accepted call sheet replaces the running one at a broadcast (02 R58, R59, 03 R103, 10 R338). -/
def State.applySheet (new : CallSheet) (s : State) : State :=
  let old := s.sheet
  let s := { s with csh := some new, pow := { s.pow with caps := new.s6 }, vin := { s.vin with thr := some new.hdr.vinThr } }
  let s := each new.doms (fun r s =>
    if r.dtype == 4 then s
    else
      let i := effIlim r.ilim (s.dm r.dom).asmCap
      let asm := (s.dm r.dom).asmCap
      let s := (s.changePool r.dom i).modDm r.dom (fun x => { x with ilim := i, slope := r.slope })
      if asm < r.ilim then s.raise 0x011 (.unit (uDom r.dom)) asm else s) s
  let s := s.keepS3 old.s3
  let s := if new.s1.fsw == old.s1.fsw && new.s1.syncDis == old.s1.syncDis then s
    else each new.cluIxs (fun n s => s.takeFsw n old.s1 new.s1) s
  (each new.domIxs State.retarget s.vinJudge).slatePorts

/-! ## The interval's energy (10 R333 to R335) -/

/-- The host queues' parts of one half's energy. -/
def State.queueShares (n h : Nat) (s : State) : State :=
  let l := (s.cl n).led
  let x := s.half n h
  let mine := l.samples.filter (fun p => s.reqHalf n p.1 == h)
  let tot := sumN (mine.map (fun p => p.2)) + x.bhSamples
  if tot == 0 then s
  else { s with pow := { s.pow with energyQ := mine.foldl (fun t p =>
      Tab.putN t p.1 (Tab.getN t p.1 + x.energy * p.2 / tot)) s.pow.energyQ } }

/-- The cells of a reporting cluster. -/
def State.snapClu (n : Nat) (s : State) : State :=
  let c := s.cl n
  let one := fun (k : Nat) (x : CSnap) =>
    ({ cap := (vget c.cells k).capacity, cur := s.code n (16 + k), energy := x.energy + (vget c.ctl.lanes k).energy } : CSnap)
  let s := { s with pow := { s.pow with snapRep := vmod s.pow.snapRep n (fun v => vmap one v) } }
  s.modCl n (fun c => { c with ctl := { c.ctl with lanes := vmap (fun _ (l : Lane) => { l with energy := 0 }) c.ctl.lanes } })

/-- A cluster that makes no samples reports no currents; its cells' CAPACITY follows their states (02 R45). -/
def State.capsClu (n : Nat) (s : State) : State :=
  let c := s.cl n
  { s with pow := { s.pow with snapRep := vmod s.pow.snapRep n (fun v => vmap (fun k (x : CSnap) =>
      { x with cap := (vget c.cells k).capacity }) v) } }

/-- Energy of every domain, context, queue and of the chip at a broadcast. -/
def State.accumulate (s : State) : State :=
  let old := s.dom
  let cells := s.sheet.cluIxs
  let s := each cells (fun n s => each (s.hs n) (fun h s => s.queueShares n h) s) s
  let s := each (s.sheet.domIxs.filter (fun d => !s.sheet.isAon d)) (fun d s =>
    let e := sumN ((s.sheet.domHalves d).map (fun p => (s.half p.1 p.2).energy))
    s.modDm d (fun x => { x with energy := x.energy + e, thr := { x.thr with power := e } })) s
  let s := each cells (fun n s =>
    let s := each (s.hs n) (fun h s => s.modHalf n h (fun x => { x with energy := 0, bhSamples := 0 })) s
    (if s.samples n then s.snapClu n else s.capsClu n).modCl n (fun c => { c with led := { c.led with samples := [] } })) s
  let inc := fun d => (s.dm d).energy / 65536 - (vget old d).energy / 65536
  { s with pow := { s.pow with
      energyChip := s.pow.energyChip + sumN (s.sheet.domIxs.map (fun d => (s.dm d).thr.power))
      energyCtx := vmap (fun c x => if (s.cx c).st == .closed then x
        else x + sumN ((s.sheet.domIxs.filter (fun d => bit (s.cx c).recd.doms.toNat d)).map inc)) s.pow.energyCtx } }

/-! ## The record of each domain (02 Table 2-2, 05 Table 5-1) -/

/-- What a broadcast carries and the Gaffer keeps of domain `d`. -/
def State.snapDom (d : Nat) (s : State) : State :=
  let hs := s.sheet.domHalves d
  let rep := hs.filter (fun p => s.samples p.1)
  let cnt := sumN (rep.map (fun p => (s.half p.1 p.2).cnt))
  let sum := sumI (rep.map (fun p => (s.half p.1 p.2).sumI))
  let x := s.dm d
  let b : BRec := {
    setpoint := s.tgtInForce d, cap := s.domCap d
    current := 4 * sumI ((s.sheet.domCells d).map (fun p => (vget (vget s.pow.snapRep p.1) p.2).cur))
    held := s.domHeld d
    free := x.bf + x.wh + sumN (hs.map (fun p => (s.half p.1 p.2).acc.ord + (s.half p.1 p.2).acc.res))
    energy := x.energy / 65536
    valid := decide (0 < cnt), meanI := if cnt == 0 then 0 else clampI (-32768) 32767 (rhalf sum cnt), ncell := cnt
    time := s.elapsed, thrStage := 0, thrReason := 0 }
  let s := each hs (fun p s => s.modHalf p.1 p.2 (fun z => { z with
    repOrd := z.acc.ord, repHeld := (s.cl p.1).led.heldSum p.2, repCap := s.halfCap p.1 p.2 })) s
  s.modDm d (fun x => { x with rep := b })

/-! ## Withheld credits and allotments (07 R215, R216) -/

/-- W against W* for a domain: the excess to BF, or the shortfall from BF and by RECALL; debts never exceed what is
still wanted. -/
def State.withholdDom (d : Nat) (s : State) : State :=
  let hs := s.sheet.domHalves d
  let x := s.dm d
  let star := x.pool - x.rep.cap
  let flight := sumN ((s.msgs.filter (fun m => m.dom == d && (m.op == 6 || m.op == 7))).map (fun m => m.amt))
  let debts := hs.map (fun p => (p, (s.half p.1 p.2).acc.debt))
  let debt := sumN (debts.map (fun p => p.2))
  let s :=
    if x.wh < star then
      let k := min (star - x.wh) x.bf
      let s := s.modDm d (fun x => { x with bf := x.bf - k, wh := x.wh + k })
      let short := (star - x.wh - k) + x.owed - (debt + flight)
      let loss := hs.map (fun p => (p.1, (s.half p.1 p.2).lastCap - (s.half p.1 p.2).repCap))
      let caps := hs.map (fun p => (p.1, (s.half p.1 p.2).repCap))
      s.recallBy d short (if sumN (loss.map (fun p => p.2)) == 0 then caps else loss)
    else s.modDm d (fun x => { x with bf := x.bf + (x.wh - star), wh := star })
  let y := s.dm d
  let room := (star - y.wh) + y.owed
  if debt ≤ room then s
  else each (divide (debt - room) (debts.map (fun p => (p.1.1, p.2)))) (fun q s =>
    match s.halfOf q.1 d with
    | some h => s.modHalf q.1 h (fun z => { z with acc := { z.acc with debt := z.acc.debt - q.2 } })
    | none => s) s

/-- Allotments of a domain, and GIVE from BF as it stands at the sending to the clusters whose report lies below theirs. -/
def State.allotDom (d : Nat) (s : State) : State :=
  let x := s.dm d
  let cap := x.rep.cap
  let star := x.pool - cap
  let q := s.sheet.s8.lendQ
  each (s.sheet.domHalves d) (fun p s =>
    let y := s.half p.1 p.2
    let a := if cap == 0 then 0 else (x.pool - star) * y.repCap / cap
    let have_ := y.repOrd + y.repHeld
    let s := s.modHalf p.1 p.2 (fun z => { z with allot := a, lastCap := z.repCap })
    if s.samples p.1 && decide (have_ + q < a) then
      let g := min (s.dm d).bf (a - have_)
      (s.modDm d (fun z => { z with bf := z.bf - g })).send
        { up := false, op := 2, dom := d, amt := g, clu := p.1, to_ := p.1 }
    else s) s

/-! ## Settings that wait (07 R245, 10 R331) -/

/-- CREDIT_CONFIG takes effect in the domains that await it; its command completes. -/
def State.applyConfigs (s : State) : State :=
  let ds := s.sheet.domIxs.filter (fun d => (s.dm d).cfgWait.isSome)
  let slots := (ds.filterMap (fun d => (s.dm d).cfgWait.map (fun w => w.1))).eraseDups
  let s := each ds (fun d s =>
    match (s.dm d).cfgWait with
    | none => s
    | some (_, i, sl) =>
      let s := if i == 0 then s else (s.changePool d i).modDm d (fun x => { x with ilim := i })
      s.modDm d (fun x => { x with cfgWait := none, slope := if sl == 0 then x.slope else sl })) s
  each slots (fun q s => s.complete q .done 0) s

/-- CAP_SET commands count their broadcasts. -/
def State.capWaits (s : State) : State :=
  let ks := (s.host.cmds.filter (fun p => p.2.opc == 0x0F && p.2.stage == .dispatched)).map (fun p => p.1)
  each ks (fun q s =>
    match s.cmd? q with
    | none => s
    | some c => if c.wait ≤ 1 then s.complete q .done 0 else s.modCmd q (fun c => { c with wait := c.wait - 1 })) s

/-- Demands at a broadcast with the share that was in force (10 R318), and the shares of R330. -/
def State.demandsAt (s : State) : State :=
  let off := s.pow.caps.capChip == 0
  each (s.sheet.domIxs.filter (fun d => !s.sheet.isAon d)) (fun d s =>
    let new := s.shareNow d
    -- no share and no power: R318 gives x no value
    let (v, s) := if !off && (s.dm d).thr.idle then s.drawNat else (0, s)
    s.modDm d (fun x =>
      let t := x.thr.atBroadcast s.sheet.s5 off ((v % 513 : Nat) - 256 : Int)
      { x with thr := { t with share := fracMin t.shareNew new, shareNew := new } })) s

/-- Retake windows of open phases at a broadcast that is sent now, of the report instant `rep`: a lane zeroed by then has its
T_CLOSE here (05 R166). -/
def State.closePhases (rep : Nat) (s : State) : State :=
  ({ s with trigs := s.trigs.map (fun g => { g with spilt := g.spilt || (g.cause == 4 && (match g.close with
    | some z => decide (z ≤ rep)
    | none => false)) }) } : State).endPhases

/-- The report instant of a broadcast (R150), a multiple of 1,000 ns: the clusters' reports and the energy of the interval;
the records go out 256 ns later. -/
def State.busReport (s : State) : State :=
  if s.gafClock != .running || s.csh.isNone then s
  else
    let s := (s.advanceTo s.busAt).missLast
    let s := { s with busAt := nextBoundary 1000 s.elapsed, busSeq := (s.busSeq + 1) % 256, busDue := some (s.elapsed + 256) }
    each s.sheet.domIxs State.snapDom s.accumulate

/-- What waits for a broadcast and what the Gaffer does when it sends one (R150, 02 R58, 07 R215, R216, R245, 10 R318,
R330): call sheet, settings, demands and shares, the records, withheld credits and allotments, windows, caps. -/
def State.busApply (rep : Nat) (s : State) : State :=
  let s := match s.cshNew with
    | some (q, cs) => (({ s with cshNew := none } : State).applySheet cs).complete q .done 0
    | none => s
  let s := { s with pow := { s.pow with snap := s.pow.snapRep }, board := { s.board with sent := s.vPkg } }
  let s := s.applyConfigs.demandsAt.throttleAll
  let ds := s.sheet.domIxs
  let s := each ds (fun d s => s.modDm d (fun x => { x with
    bc := { x.rep with thrStage := x.thr.stage, thrReason := x.thr.reason } })) s
  let s := each (ds.filter (fun d => !s.sheet.isAon d)) (fun d s => (s.withholdDom d).allotDom d) s
  let s := s.capWaits.closePhases rep
  s.closeFlt (fun f => f.cls == 4 && (match f.sc with
    | .unit u => decide (0x080 ≤ u) && decide (u < 0x100)
    | .ctx _ => false))

/-- The broadcast formed from the last report, sent at its instant; nothing is sent by a Gaffer whose clock has stopped
since. -/
def State.busSent (s : State) : State :=
  match s.busDue with
  | none => s
  | some t =>
    let s := { s.advanceTo t with busDue := none }
    if s.gafClock != .running || s.csh.isNone then s else s.busApply (t - 256)

end Sys2Proof.Machine
end

