-- ==== Sys2Proof/Machine/Domains.lean ====
section
/-! DEFINITION. Header stages and domain switching (11 R356 to R364), the waves of bring-up (11 R352, R353), settling of
set-point commands (04 R131), and the broadcast with the stage checks that wait for it. -/

namespace Sys2Proof.Machine
open Sys2Proof

/-! ## Settling (04 R131) -/

/-- SETPOINT_SETTLED: every cluster of the domain has reported its fourth settled sample; a probe's step goes on. -/
def execSetpointSettled (d : DomIx) (s : State) : Host.Outcome State Fault Refusal :=
  .next (
    if !s.domSettled d then s
    else match (s.dm d).cmd with
      | some q => (s.endPart q d .done).clearCmd d
      | none => s.probeSettled d)

/-! ## The sequencer's settings (R363) -/

/-- STAGE_T of a domain, ns. -/
def CallSheet.stageT (cs : CallSheet) (d : Nat) : Nat :=
  match cs.s7.recs.find? (fun r => r.dom == d) with
  | some r => r.stageT
  | none => cs.s7.stageT

/-- I_STG of a domain, credits. -/
def CallSheet.iStg (cs : CallSheet) (d : Nat) : Nat :=
  match cs.s7.recs.find? (fun r => r.dom == d) with
  | some r => r.istg
  | none => (cs.domCells d).length

/-- The neighbours of a domain (R358). -/
def CallSheet.neighbours (cs : CallSheet) (d : Nat) : List Nat :=
  cs.s7.pairs.filterMap (fun p => if p.1 == d then some p.2 else if p.2 == d then some p.1 else none)

/-- The domain is on: every header stage is closed (GAF_DOM_PWR); the AON domain never is (R372). -/
def State.isOn (s : State) (d : Nat) : Bool := s.sheet.cellFed d && (s.dm d).stages == 8

/-- A neighbour that is on is at peak (R358). -/
def State.atPeak (s : State) (n : Nat) : Bool :=
  let x := s.dm n
  s.isOn n &&
  (decide ((s.sheet.s7.nbPeak * x.bc.cap * 125 : Nat) < 256 * x.bc.current) ||
    x.thr.reason.getLsbD 2 || x.thr.reason.getLsbD 4 ||
    (s.sheet.domHalves n).any (fun p => (s.half p.1 p.2).prep.on))

/-- A domain held under 10 R314. -/
def State.coldHeld (s : State) (d : Nat) : Bool := (s.sheet.domHalves d).any (fun p => (s.cl p.1).therm.lStop)

/-! ## One stage (R359, R360) -/

/-- The sequence of a domain changed. -/
def State.modStg (d : Nat) (f : Staging → Staging) (s : State) : State :=
  s.modDm d (fun x => { x with stg := x.stg.map f })

/-- ORD of the domain's halves, together. -/
def State.ordSum (s : State) (d : Nat) : Nat := sumN ((s.sheet.domHalves d).map (fun p => (s.half p.1 p.2).acc.ord))

/-- I_STG taken into RES: from ORD in ascending order, the rest from the bank by a GIVE to the first half, and what is
missing wanted there (R359). -/
def State.takeStage (d need : Nat) (s : State) : State :=
  let hs := s.sheet.domHalves d
  let r := hs.foldl (fun (acc : Nat × State) p =>
    let k := min acc.1 (acc.2.half p.1 p.2).acc.ord
    (acc.1 - k, acc.2.modHalf p.1 p.2 (fun x => { x with acc := { x.acc with
      ord := x.acc.ord - k, res := x.acc.res + k, stageRes := x.acc.stageRes + k } }))) (need, s)
  let s := r.2
  match hs with
  | [] => s
  | p :: _ =>
    let k := min r.1 (s.dm d).bf
    let s := s.modHalf p.1 p.2 (fun x => { x with acc := { x.acc with
      short := x.acc.short + r.1, stageRes := x.acc.stageRes + r.1 } })
    (s.modDm d (fun x => { x with bf := x.bf - k })).send { up := false, op := 2, dom := d, amt := k, clu := p.1, to_ := p.1 }

/-- RES taken for the stage returned to ORD, and what was still wanted for it dropped. -/
def State.dropStage (d : Nat) (s : State) : State :=
  each (s.sheet.domHalves d) (fun p s => s.modHalf p.1 p.2 (fun x =>
    let k := min x.acc.res x.acc.stageRes
    { x with acc := { x.acc with
      ord := x.acc.ord + k, res := x.acc.res - k, short := x.acc.short - (x.acc.stageRes - k), stageRes := 0 } })) s

/-- Kick support (R360): h of every half of the domain toward h_max; the ns that this takes. -/
def State.liftH (d : Nat) (s : State) : Nat × State :=
  (s.sheet.domHalves d).foldl (fun (acc : Nat × State) p =>
    let q := (acc.2.prepQ p.1 p.2 0).hMax * 4096
    let h := (acc.2.half p.1 p.2).prep.h
    let per := if acc.2.redMode p.1 then 64 else 32
    let t := if q ≤ h then 0 else per * (cdiv (q - h) (max 1 (acc.2.shotStep p.1)) + 1)
    (max acc.1 t, acc.2.modHalf p.1 p.2 (fun x => { x with prep := { x.prep with
      hMax := max q x.prep.hMax, support := true, lowerAt := none, falling := false } }))) (0, s)

/-- Accrual of the fade-in budget in a domain's halves stopped or let on (R360). -/
def State.fade (n : Nat) (off : Bool) (s : State) : State :=
  each (s.sheet.domHalves n) (fun p s =>
    (s.accrue p.1).modHalf p.1 p.2 (fun x => { x with acc := { x.acc with frozen := off } })) s

/-- The neighbours frozen by the domain's stage accrue again, unless another domain's stage holds them. -/
def State.unfade (d : Nat) (s : State) : State :=
  match (s.dm d).stg with
  | none => s
  | some g =>
    let held := fun (n : Nat) => (vfind (fun x : Domain => match x.stg with
      | some q => q.froze.contains n
      | none => false) s.dom).any (fun e => e != d)
    (each (g.froze.filter (fun n => !held n)) (fun n s => s.fade n false) s).modStg d (fun g => { g with froze := [] })

/-- A stage interval begins as case B: credits, kick support, a stretched interval from `prev`. -/
def State.stageB (d prev need : Nat) (c : Nat) (s : State) : State :=
  let s := s.takeStage d need
  let l := s.liftH d
  let s := l.2
  let at_ := max (prev + s.sheet.s7.stretch * s.sheet.stageT d) (s.elapsed + l.1)
  (s.modDm d (fun x => { x with nbWait := false })).modStg d (fun g =>
    { g with case_ := c, nextAt := some at_, waitBy := none })

/-- Credits of a domain on their way between the Gaffer and its clusters. -/
def State.inFlight (s : State) (d : Nat) : Nat :=
  sumN ((s.msgs.filter (fun m => m.dom == d && [2, 4, 5, 7].contains m.op)).map (fun m => m.amt))

/-- The end of NB_WAIT in case D: the stage proceeds as B with the credits there are, and an INFO event is raised. -/
def State.stageForce (d prev : Nat) (peak : List Nat) (s : State) : State :=
  let s := (each peak (fun n s => s.fade n true) s).modStg d (fun g => { g with froze := peak })
  let have_ := min (s.sheet.iStg d) (s.ordSum d + (s.dm d).bf)
  (s.stageB d prev have_ 3).raise 0x015 (.unit (uDom d)) ((s.dm d).stages + 1)

/-- The neighbour check before a stage (Table 11-5), the previous stage having closed at `prev`. `forced` is the end of
NB_WAIT. -/
def State.stageCheck (d prev : Nat) (forced : Bool) (s : State) : State :=
  let s := s.unfade d
  let peak := (s.sheet.neighbours d).filter s.atPeak
  if peak.isEmpty && !forced then
    (s.modDm d (fun x => { x with nbWait := false })).modStg d (fun g =>
      { g with case_ := 0, nextAt := some (max s.elapsed (prev + s.sheet.stageT d)), waitBy := none })
  else if forced then s.stageForce d prev peak
  else
    let s := (each peak (fun n s => s.fade n true) s).modStg d (fun g => { g with froze := peak })
    let need := s.sheet.iStg d
    let have_ := s.ordSum d + (s.dm d).bf
    if need ≤ have_ then s.stageB d prev need 1
    else if need ≤ have_ + s.inFlight d then
      let s := s.stageB d prev need 2
      match s.sheet.domHalves d with
      | p :: _ => s.borrow p.1 p.2
      | [] => s
    else
      (s.modDm d (fun x => { x with nbWait := true })).modStg d (fun g =>
        { g with case_ := 3, nextAt := none
                 waitBy := some (g.waitBy.getD (s.elapsed + 1000 * s.sheet.s7.nbWait)) })

/-- Every enabled cell of a domain runs. -/
def State.allRun (s : State) (d : Nat) : Bool :=
  (s.sheet.domCells d).all (fun p =>
    let st := (s.cell p.1 p.2).st
    st.running || st == .disabled || st == .latched)

/-- The next stage of a domain that closes: its check, a pause while the VIN reason is set, or the settling after
stage 8 (R353, R357, R362). -/
def State.stageNext (d : Nat) (s : State) : State :=
  if (s.dm d).stages == 8 then
    (s.unfade d).modStg d (fun g => { g with nextAt := none, settleBy := some (s.elapsed + 1000 * s.sheet.s7.waveSettle) })
  else if s.vin.dip then (s.unfade d).modStg d (fun g => { g with nextAt := none, paused := true })
  else (s.modStg d (fun g => { g with prevAt := s.elapsed })).stageCheck d s.elapsed false

/-- The stage in progress closes. -/
def State.stageClose (d : Nat) (s : State) : State :=
  match (s.dm d).stg with
  | none => s
  | some g =>
    let str := g.case_ != 0
    let s := (s.dropStage d).modDm d (fun x => { x with stages := min 8 (x.stages + 1), stretched := str })
    let s := if str then each (s.sheet.domHalves d) (fun p s =>
        let per := if s.redMode p.1 then 64 else 32
        let w := max 1 (fld (s.cl p.1).cfg.prep.toNat 7 8)
        s.modHalf p.1 p.2 (fun x => { x with prep := { x.prep with lowerAt := some (s.elapsed + w * per) } })) s
      else s
    s.stageNext d

/-- The next stage of a domain that opens; after stage 1 the wait of R361. -/
def State.stageOpen (d : Nat) (s : State) : State :=
  if (s.dm d).stages == 0 then s.modStg d (fun g => { g with nextAt := none, settleBy := some (s.elapsed + 1000) })
  else if s.vin.dip then s.modStg d (fun g => { g with nextAt := none, paused := true })
  else
    let n := (s.dm d).stages - 1
    let s := s.modDm d (fun x => { x with stages := n })
    if n == 0 then s.modStg d (fun g => { g with nextAt := none, settleBy := some (s.elapsed + 1000) })
    else s.modStg d (fun g => { g with nextAt := some (s.elapsed + s.sheet.stageT d) })

/-- HEADER_STAGE: the stage interval has run; the next stage closes or opens. For a DOMAIN_ON whose cells have come to
run it is the first check (R357). The critical trip stops staging (R362). -/
def execHeaderStage (d : DomIx) (s : State) : Host.Outcome State Fault Refusal :=
  .next (match (s.dm d).stg with
    | none => s
    | some g =>
      if s.trip then s
      else if g.waitRun then
        if g.closing && g.cmd.isSome && s.allRun d then
          (s.modStg d (fun g => { g with waitRun := false })).stageNext d
        else s
      else match g.nextAt with
        | none => s
        | some t =>
          let s := s.advanceTo t
          if g.closing then s.stageClose d else s.stageOpen d)

/-- NB_WAIT_EXPIRY: NB_WAIT has passed in case D; the stage proceeds with the credits there are, and an INFO event is
raised. -/
def execNbWaitExpiry (d : DomIx) (s : State) : Host.Outcome State Fault Refusal :=
  .next (match (s.dm d).stg with
    | none => s
    | some g => match g.waitBy with
      | none => s
      | some t =>
        if s.trip || g.paused then s
        else
          (s.advanceTo t).stageCheck d g.prevAt true)

/-- The VIN reason sets: a stage that waits in case D is paused, and is checked anew at recovery (R362). -/
def State.pauseStages (s : State) : State :=
  each (vfind (fun x : Domain => match x.stg with
      | some g => g.waitBy.isSome
      | none => false) s.dom) (fun d s =>
    ((s.unfade d).modDm d (fun x => { x with nbWait := false })).modStg d (fun g => { g with waitBy := none, paused := true })) s

/-- Staging that the VIN reason paused goes on with a new check (R362). -/
def State.resumeStages (s : State) : State :=
  each (vfind (fun x : Domain => match x.stg with
      | some g => g.paused
      | none => false) s.dom) (fun d s =>
    let s := s.modStg d (fun g => { g with paused := false })
    match (s.dm d).stg with
    | some g => if s.trip then s else if g.closing then s.stageNext d else s.stageOpen d
    | none => s) s

/-! ## Switching on -/

/-- The ns that START may take (R357): |VREF - VOUT| / SS_RATE of the cell furthest from its target, and START_TO. -/
def State.startNs (s : State) (d : Nat) : Nat :=
  -- the thresholds that its cells hold (03 R103)
  let th := match (s.sheet.domCells d).head? with
    | some p => s.cellTh p.1 p.2
    | none => s.sheet.thresh d
  let v := uvOf (s.tgtInForce d)
  let far := maxN ((s.sheet.domCells d).map (fun p => (((v : Nat) : Int) - 250000 - 250 * s.code p.1 p.2).natAbs))
  cdiv (4 * far) (max 1 th.ssRate) + 1000 * th.startTo

/-- The cells of a domain are sent on their way to RUN, and its sequence waits for them. -/
def State.startDomain (d : Nat) (cmd : Option Nat) (s : State) : State :=
  let by_ := s.elapsed + s.startNs d
  s.modDm d (fun x => { x with
    on := true, modeOff := false, heldOff := false, nbWait := false, stretched := false
    stg := some { closing := true, cmd, waitRun := true, runBy := by_, nextAt := none, waitBy := none, settleBy := none
                  case_ := 0, paused := false, froze := [] } })

/-- Target and r of a domain at a code, no change pending (R361, R509). -/
def State.forceTarget (d code : Nat) (s : State) : State :=
  let s := s.modDm d (fun x => { x with tgt := code, cmd := none })
  let t := s.tgtInForce d
  each (s.sheet.domHalves d) (fun p s => s.modHalf p.1 p.2 (fun x => { x with ramp := { x.ramp with
    r := t * 4096, tgt := t, step := rampStep (s.dm d).rate (s.redMode p.1), cmd := none, chg := [], settled := 4, done := true, reachedAt := some s.elapsed } })) s

/-! ## Waves (R352 to R354) -/

/-- Step 7 ends when no wave is left (R354). -/
def State.wavesDone (s : State) : State :=
  if s.boot.step == 7 && !s.boot.waitVin && s.boot.waves.isEmpty && s.boot.inWave.isEmpty then
    { s with boot := { s.boot with step := 8 } }
  else s

/-- A domain no longer belongs to a wave that runs or waits. -/
def State.leaveWave (d : Nat) (s : State) : State :=
  { s with boot := { s.boot with
      inWave := s.boot.inWave.filter (fun x => x != d)
      waves := (s.boot.waves.map (fun (w : List Nat) => w.filter (fun x => x != d))).filter (fun (w : List Nat) => !w.isEmpty) } }.wavesDone

/-- Domains eight to a wave. -/
def eights : Nat → List Nat → List (List Nat)
  | 0, _ => []
  | fuel + 1, l => if l.isEmpty then [] else l.take 8 :: eights fuel (l.drop 8)

/-- The waves of the domains to be switched on: ARRAY, MEMIF, LINK, then LOGIC eight to a wave (R353). -/
def CallSheet.wavesOf (cs : CallSheet) (ds : List Nat) : List (List Nat) :=
  let ty := fun (k : Nat) => ds.filter (fun d => (cs.domRec d).map DomRec.dtype == some k)
  ([ty 1, ty 3, ty 2] ++ eights 16 (ty 0)).filter (fun w => !w.isEmpty)

/-- A domain found on (R352): its target is the highest SAFE_CODE of its parked cells, clamped, and reached by a ramp
at SLEW_DEF from where its clusters take over; it takes no part in the waves. -/
def State.foundOn (d : Nat) (s : State) : State :=
  match s.sheet.domRec d with
  | none => s
  | some r =>
    let safe := maxN (((s.sheet.domCells d).filter (fun p => (s.cell p.1 p.2).st == .park)).map
      (fun p => (s.cell p.1 p.2).safeCode))
    let t := max r.vmin (min r.vmax safe)
    (s.modDm d (fun x => { x with on := true, modeOff := false, heldOff := false, tgt := t })).placeDom d
      { tgt := t, rate := s.sheet.s2.slewDef, cmd := none, shot := false }

/-- The start of step 7: domains found on take over, every off domain enters START together with VREF at VBOOT, and
the waves are formed. A domain held for temperature stays off (10 R314). -/
def State.stepSeven (s : State) : State :=
  let fed := s.sheet.domIxs.filter (fun d => s.sheet.cellFed d)
  let s := { s with boot := { s.boot with step := 7, waitVin := false, wave := 0, waves := [], inWave := [] } }
  let isFound := fun (d : Nat) => (s.dm d).stages == 8 &&
    (s.sheet.domCells d).any (fun p => (s.cell p.1 p.2).st == .park)
  let found := fed.filter isFound
  let off := fed.filter (fun d => !isFound d)
  let s := each off (fun d s => s.modDm d (fun x => { x with stages := if x.stages == 8 then 0 else x.stages })) s
  let s := each found State.foundOn s
  let off := off.filter (fun d => !(s.dm d).disabled)
  let cold := off.filter s.coldHeld
  let go := off.filter (fun d => !s.coldHeld d)
  let s := each cold (fun d s => (s.modDm d (fun x => { x with heldOff := true })).raise 0x013 (.unit (uDom d)) 0) s
  let s := each go (fun d s => match s.sheet.domRec d with
    | some r => (s.forceTarget d r.vboot).startDomain d none
    | none => s) s
  ({ s with boot := { s.boot with waves := s.sheet.wavesOf go } } : State).wavesDone

/-- WAVE_START: the previous wave has ended and every cell of the next one's domains runs; its domains are staged
together (R353). -/
def execWaveStart (s : State) : Host.Outcome State Fault Refusal :=
  .next (match s.boot.waves with
    | [] => s
    | w :: rest =>
      if s.boot.step != 7 || s.boot.waitVin || !s.boot.inWave.isEmpty || s.trip || !w.all s.allRun then s
      else
        let s := { s with boot := { s.boot with waves := rest, inWave := w, wave := s.boot.wave + 1 } }
        each w (fun d s => (s.modStg d (fun g => { g with waitRun := false })).stageNext d) s)

/-- WAVE_SETTLE_EXPIRY: WAVE_SETTLE after stage 8; DOMAIN_ON completes, or the domain's part of the wave ends. -/
def execWaveSettleExpiry (d : DomIx) (s : State) : Host.Outcome State Fault Refusal :=
  .next (match (s.dm d).stg with
    | none => s
    | some g => match g.settleBy with
      | none => s
      | some t =>
        if !g.closing then s
        else
          let s := (s.advanceTo t).modDm d (fun x => { x with stg := none })
          match g.cmd with
          | some q => s.endPart q d .done
          | none => s.leaveWave d)

/-- DOMAIN_ON_TIMEOUT: not every cell runs within its ramp time and START_TO: the command completes TIMEOUT, or the
domain is left out of its wave with an INFO event; cells stay in START and stages open (R353, R357). -/
def execDomainOnTimeout (d : DomIx) (s : State) : Host.Outcome State Fault Refusal :=
  .next (match (s.dm d).stg with
    | none => s
    | some g =>
      if !g.waitRun || !g.closing || s.allRun d then s
      else
        let s := (s.advanceTo g.runBy).modDm d (fun x => { x with stg := none })
        match g.cmd with
        | some q => s.endPart q d .timeout
        | none => ((s.modDm d (fun x => { x with heldOff := true })).raise 0x014 (.unit (uDom d)) 0).leaveWave d)

/-! ## Switching off (R361) -/

/-- REVOKE for every grant of a half, and RES and Bh to ORD. -/
def State.revokeHalf (n h : Nat) (s : State) : State :=
  let s := each ((s.cl n).led.grants.filter (fun p => p.2.half == h)) (fun p s =>
    s.put (.stationDown n p.2.req (wRevoke p.2.req p.1 ((s.cl n).led.gen p.1)))) s
  s.modHalf n h (fun x => { x with acc := { x.acc with
    ord := x.acc.ord + x.acc.res + x.acc.bh, res := 0, bh := 0, short := 0, stageRes := 0 } })

/-- DOMAIN_OFF of one domain: the pending set-point command ends, its record before this one's (R369); grants are
revoked, filler ends, and the first stage opens. -/
def State.startOff (d slot : Nat) (s : State) : State :=
  let s := match (s.dm d).cmd with
    | some q => ((s.supersedes q (some slot)).endPart q d .abortedDisabled).clearCmd d
    | none => s
  -- one that is dispatched and still waits for its boundary ends too
  let qs := ((s.sheet.domHalves d).flatMap (fun p => (s.half p.1 p.2).ramp.chg.filterMap (fun (c : Change) => c.cmd))).eraseDups
  let s := each qs (fun q s => (s.supersedes q (some slot)).endPart q d .abortedDisabled) s
  let s := each (s.sheet.domHalves d) (fun p s => s.modHalf p.1 p.2 (fun x => { x with ramp := { x.ramp with
    chg := x.ramp.chg.filter (fun (c : Change) => c.cmd.isNone) } })) s
  let s := each (s.sheet.domHalves d) (fun p s => ((s.withdraw p.1 p.2).revokeHalf p.1 p.2).fillZero p.1 p.2) s
  (s.modDm d (fun x => { x with
    nbWait := false
    stg := some { closing := false, cmd := some slot, waitRun := false, runBy := 0, nextAt := none, waitBy := none
                  settleBy := none, case_ := 0, paused := false, froze := [] } })).stageOpen d

/-- CELLS_MODE_OFF: 1 us after stage 1 has opened the cells receive MODE OFF, SAFE_VALID clears, and the target with r
returns to VBOOT; DOMAIN_OFF completes. -/
def execCellsModeOff (d : DomIx) (s : State) : Host.Outcome State Fault Refusal :=
  .next (match (s.dm d).stg with
    | none => s
    | some g => match g.settleBy with
      | none => s
      | some t =>
        if g.closing then s
        else
          let s := s.advanceTo t
          let old := s
          let s := each (s.sheet.domCells d) (fun p s => s.modCell p.1 p.2 (fun c =>
            let c := { c with safeValid := false, mode := .off }
            if c.st.switching then c.toIdle s.elapsed else c)) s
          let s := s.noteParks old
          let s := s.modDm d (fun x => { x with on := false, modeOff := true, stg := none, heldOff := false })
          let s := match s.sheet.domRec d with
            | some r => s.forceTarget d r.vboot
            | none => s
          match g.cmd with
          | some q => s.endPart q d .done
          | none => s)

end Sys2Proof.Machine
end

