-- ==== Sys2Proof/Machine/Vin.lean ====
section
/-! DEFINITION. VIN supervision (11 R343 to R349): the warning, its recovery, the long dip, and the reset crossing. -/

namespace Sys2Proof.Machine
open Sys2Proof

/-- VIN_WIN in ns. -/
def State.vinWinNs (s : State) : Nat := (s.vin.thr.map (fun t => 1000 * t.2.2.2)).getD 0

/-- MIN_MV (GAF_VIN_STAT): the lowest VIN of the last dip less 1,000. -/
def Vin.minField (v : Vin) : Nat := min 4095 (v.minMv - 1000)

/-- Every half of every cluster placed. -/
def State.allHalves (s : State) : List (Nat × Nat) :=
  s.sheet.cluIxs.flatMap (fun n => (s.hs n).map (fun h => (n, h)))

/-- VIN below VIN_RESET (R348): the park level, ZN_RSTREQ_N and ZN_RDY low, a FATAL fault. -/
def State.vinReset (s : State) : State :=
  let old := s
  let s := s.parkAll
  let s := { s with
    pins := { s.pins with rstreqN := false, rdy := false }, vin := { s.vin with rstreq := true } }
  (s.raise 0x042 (.unit 0) 0).noteParks old

/-- A warning crossing (R345, Table 11-1). -/
def State.vinDip (mv : Nat) (s : State) : State :=
  let s := { s with vin := { s.vin with
    dip := true, frozen := true, minMv := mv, dips := satInc 12 s.vin.dips
    dipBy := some (s.elapsed + s.vinWinNs), okBy := none } }
  let s := { s with clu := vmap (fun _ c => { c with cells := vmap (fun _ (x : Cell) => { x with drawn := 0 }) c.cells }) s.clu }
  let s := each s.allHalves (fun p s =>
    (((s.accrue p.1).fillZero p.1 p.2).withdraw p.1 p.2).modHalf p.1 p.2 (fun x => { x with
      prep := { x.prep with bal := vrep 16 0 }, broll := { x.broll with bal := 0, balExtra := 0, resume := false } })) s
  (((s.trigOpen none 5 0 s.elapsed).raise 0x040 (.unit 0) 0).wakeAll.fire 40).probeCheck.pauseStages.throttleAll

/-- Admission resumes with b_d and rc_d at 0, and BAL rises by one count per sample (R346). -/
def State.vinResume (s : State) : State :=
  let s := each s.sheet.cluIxs (fun n s => s.accrue n) { s with vin := { s.vin with frozen := false } }
  each s.allHalves (fun p s => s.modHalf p.1 p.2 (fun x => { x with
    acc := { x.acc with b := 0, rc := 0 }, broll := { x.broll with resume := true, bal := 0 } })) s

/-- VIN_WARNING: VIN falls below VIN_WARN; below VIN_RESET the reset crossing outranks it (R345, R349). While the VIN
reason stands, a reading only keeps WARN and the lowest VIN. -/
def execVinWarning (mv : Nat) (s : State) : Host.Outcome State Fault Refusal :=
  .next (
    let s := s.vinRead mv
    if s.vinWarnMv ≤ mv then s
    -- in block reset the request stands at its reset value (17 Table 17-1)
    else if mv < s.vinResetMv then (if s.vin.rstreq || !s.pins.rstN then s else s.vinReset)
    else if s.vin.dip then s
    else s.vinDip mv)

/-- VIN_RECOVERY: VIN above VIN_WARN + VIN_HYST (R346, R347): the VIN reason clears, and after a short dip admission
resumes; the 1 ms of R347 begins when VCUT is lowered; staging goes on, and bring-up's step 7 begins when it waits. -/
def execVinRecovery (mv : Nat) (s : State) : Host.Outcome State Fault Refusal :=
  .next (
    let s := s.vinRead mv
    if mv ≤ s.vinOkMv then s
    else
      let was := s.vin.dip
      let froze := s.vin.frozen
      let s := { s with vin := { s.vin with
        dip := false, dipBy := none
        okBy := if s.vin.long then some (s.vin.okBy.getD (s.elapsed + 1000000)) else none } }
      let s := if froze then s.vinResume else s
      let s := if was then ((s.trigClose 5 0 s.elapsed).fire 40).resumeStages.throttleAll else s
      if s.boot.waitVin then s.stepSeven else s)

/-- LONG_DIP: VIN_WIN after the crossing without recovery (R347): DEGRADED, VCUT lowered, admission resumes; the VIN
reason and the SKIP floor stay. -/
def execLongDip (s : State) : Host.Outcome State Fault Refusal :=
  .next (match s.vin.dipBy with
    | none => s
    | some t =>
      let s := s.advanceTo t
      -- a recovery of the same Gaffer cycle outranks the expiry (R349)
      let back := match s.pending.head? with
        | some (.vinRecovery mv) => decide (s.vinOkMv < mv)
        | _ => false
      if back then s
      else
      let s := { s with vin := { s.vin with dipBy := none, long := true, vcut := s.sheet.s7.vcutDip } }
      (s.vinResume.raise 0x041 (.unit 0) s.vin.minField).throttleAll)

/-- VCUT_RESTORE: 1 ms above VIN_WARN + VIN_HYST after a long dip (R347): VCUT returns to 256 and the fault ends. -/
def execVcutRestore (s : State) : Host.Outcome State Fault Refusal :=
  .next (match s.vin.okBy with
    | none => s
    | some t =>
      let s := s.advanceTo t
      ({ s with vin := { s.vin with okBy := none, long := false, vcut := 256 } } : State).closeUnit 0 [0x041])

/-- VIN_RESET: VIN falls below VIN_RESET (R348). -/
def execVinReset (mv : Nat) (s : State) : Host.Outcome State Fault Refusal :=
  .next (
    let s := s.vinRead mv
    -- in block reset the request stands at its reset value (17 Table 17-1)
    if s.vinResetMv ≤ mv || s.vin.rstreq || !s.pins.rstN then s else s.vinReset)

end Sys2Proof.Machine
end

