-- ==== Sys2Proof/Machine/Nv.lean ====
section
/-! DEFINITION. The NV record store (14 R444 to R449): staging in the retention SRAM, the three programs of a record,
sector erases, replay, and reading committed records. The images of the three registers that a record carries stand
here too (11 R373, 10 R339). -/

namespace Sys2Proof.Machine
open Sys2Proof

/-! ## Register images of a record -/

/-- THM_CHIP: the chip maximum, the cluster holding it, the trip latch. -/
def State.regThmChip (s : State) : Nat :=
  pack [(16, tc 16 (s.cl s.hottest).therm.tMax), (6, s.hottest), (1, b2n s.trip)]

/-- GAF_VIN_STAT. -/
def State.regVinStat (s : State) : Nat :=
  pack [(1, b2n s.vin.warn), (1, b2n s.vin.dip), (1, b2n s.vin.long), (1, b2n (!s.pins.rstreqN)), (12, s.vin.dips),
    (12, s.vin.minField)]

/-- GAF_RST_CAUSE. -/
def State.regRstCause (s : State) : Nat :=
  pack [(1, b2n s.boot.por), (1, b2n s.boot.pin), (1, b2n s.boot.vinRst), (1, b2n s.boot.trip), (1, b2n s.boot.host),
    (11, 0), (8, s.boot.cluRst)]

/-- SEQ of the call sheet in force; 0 before the first acceptance (16 R490). -/
def State.cseq (s : State) : Nat :=
  match s.csh with
  | some c => c.hdr.seq.toNat
  | none => 0

/-! ## Records (Table 14-5) -/

/-- All-ones: an erased word. -/
def erased : Word64 := BitVec.ofNat 64 (2 ^ 64 - 1)

/-- Word 15 of a record whose first fifteen words are given: its CRC, and COMMIT erased. -/
def nvClose (ws : List Word64) : List Word64 :=
  ws ++ [BitVec.ofNat 64 (crc32 ws + (2 ^ 32 - 1) * 2 ^ 32)]

/-- COMMIT written: word 15 [63:32] is 0. -/
def nvCommit (ws : List Word64) : List Word64 := ws.take 15 ++ [BitVec.ofNat 64 (wordAt ws 15 % 2 ^ 32)]

/-- The words of a record at staging. -/
def State.nvWords (kind nseq : Nat) (fault : List Word64) (s : State) : List Word64 :=
  let sens := (s.cl s.hottest).therm.sens
  let ts := fun i => tc 16 (vget sens i).t
  nvClose ([BitVec.ofNat 64 (pack [(32, nseq), (8, kind)]),
    BitVec.ofNat 64 (pack [(32, s.cseq), (32, s.nv.boots)])] ++
    [fault.getD 0 0, fault.getD 1 0, fault.getD 2 0, fault.getD 3 0] ++
    [BitVec.ofNat 64 (pack [(32, s.regThmChip), (32, s.regVinStat)]),
     BitVec.ofNat 64 (pack [(32, s.regRstCause), (16, s.vPkg)]),
     BitVec.ofNat 64 (pack [(16, ts 0), (16, ts 1), (16, ts 2), (16, ts 3)]),
     BitVec.ofNat 64 (pack [(16, ts 4), (16, ts 5), (16, ts 6), (16, ts 7)]),
     0, 0, 0, 0, s.epoch])

/-- The NSEQ after one: 0xFFFF_FFFF is never used. -/
def nextNseq (n : Nat) : Nat := if 2 ^ 32 - 2 ≤ n then 0 else n + 1

/-- A record is staged (R447): it takes the next NSEQ and slot, or is counted in NV_LOST when every retention slot in
use is taken. -/
def State.stageNv (kind : Nat) (fault : List Word64) (s : State) : State :=
  if 32 - s.nv.withdrawn ≤ s.nv.staged.length then { s with nv := { s.nv with lost := satInc 7 s.nv.lost } }
  else
    let s := if kind == 2 then { s with nv := { s.nv with boots := (s.nv.boots + 1) % 2 ^ 32 } } else s
    let r : NvRec := { nseq := s.nv.nextSeq, kind, words := s.nvWords kind s.nv.nextSeq fault, slot := s.nv.next,
                       replayed := false, step := 0 }
    { s with nv := { s.nv with
        staged := s.nv.staged ++ [r], nextSeq := nextNseq s.nv.nextSeq, next := (s.nv.next + 1) % 512 } }

/-- NVR_POS: the next slot to be written. -/
def Nv.pos (v : Nv) : Nat :=
  match v.staged with
  | r :: _ => r.slot
  | [] => v.next

/-- A program or an erase is in progress. -/
def Nv.busy (v : Nv) : Bool := v.erasing || (v.ready && !v.staged.isEmpty)

/-! ## Reading (R449) -/

/-- NSEQ of a flash slot's words. -/
def FlashSlot.nseq (f : FlashSlot) : Nat := wordAt f.words 0 % 2 ^ 32

/-- Committed records with NSEQ up to `top`, newest first. -/
def Nv.committed (v : Nv) (top : Nat) : List FlashSlot :=
  sortBy (fun a b => decide (b.nseq < a.nseq))
    ((v.flash.filter (fun p => p.2.committed && decide (p.2.nseq ≤ top))).map (fun p => p.2))

/-- A dispatched NV_READ reads the store and writes its records; `wait` of the command holds one more than the newest
committed NSEQ at its dispatch, and afterwards RESULT. A store that is unavailable ends it REJECTED_STATE. -/
def State.nvReadNow (slot : Nat) (s : State) : State :=
  match s.cmd? slot with
  | none => s
  | some c =>
    let first := c.opnd 3 0 9
    let count := c.opnd 3 9 10
    let l := if c.wait == 0 then [] else ((s.nv.committed (c.wait - 1)).drop first).take count
    let ws := l.flatMap (fun f => f.words)
    if !s.nv.ready then s.complete slot .rejectedState 0
    else if l.isEmpty then s.complete slot .done 0
    else (s.modCmd slot (fun c => { c with wait := l.length, parts := [1] })).writeLong 600 (c.opnd 2 0 48) ws
      (fun last => .data slot last)

/-- NV_READs that wait for a program or an erase go on once none is in progress (R449); `parts` is empty until their
data has been sent. -/
def State.nvReads (s : State) : State :=
  if s.nv.busy then s
  else
    let ks := (s.host.cmds.filter (fun p => p.2.opc == 0x16 && p.2.stage == .dispatched && p.2.parts.isEmpty)).map
      (fun p => p.1)
    each ks State.nvReadNow s

/-! ## Programs and erases (R445, R447) -/

/-- The operations of one program of a record: write enable, page program (R444, R447). -/
def State.spiWrite (r : NvRec) (s : State) : State :=
  let at_ := s.nv.base.toNat + 128 * r.slot
  (s.put (.spi 0x06 0 [])).put (
    if r.step == 0 then .spi 0x02 at_ (r.words.take 1)
    else if r.step == 1 then .spi 0x02 (at_ + 8) (r.words.drop 1)
    else .spi 0x02 (at_ + 120) ((nvCommit r.words).drop 15))

/-- A program of the oldest staged record completes, WIP clear: word 0, then words 1 to 14 with the CRC, then COMMIT,
which frees the retention slot. A program that failed raises 0x04A, DETAIL 3, and the store is unusable. A slot whose
sector has not been erased waits for its erase. -/
def State.nvProgram (fail : Bool) (s : State) : State :=
  match s.nv.staged with
  | [] => s
  | r :: rest =>
    if !s.nv.ready || s.nv.erasing then s
    else if r.step == 0 && (Tab.get? s.nv.flash r.slot).isSome then s
    else
    let s := (s.spiWrite r).put (.spi 0x05 0 [])
    if fail then
      (({ s with nv := { s.nv with ready := false } } : State).raise 0x04A (.unit 0) 3).nvReads
    else if r.step == 0 then
        ({ s with nv := { s.nv with
            flash := Tab.put s.nv.flash r.slot { words := r.words.take 1 ++ List.replicate 15 erased, committed := false }
            staged := { r with step := 1 } :: rest } } : State).nvReads
    else if r.step == 1 then
      ({ s with nv := { s.nv with
          flash := Tab.put s.nv.flash r.slot { words := r.words, committed := false }
          staged := { r with step := 2 } :: rest } } : State).nvReads
    else
      ({ s with nv := { s.nv with
          flash := Tab.put s.nv.flash r.slot { words := nvCommit r.words, committed := true }
          staged := rest, seq := r.nseq } } : State).nvReads

/-- The sector that is to be erased now (R445): the next one, once the sector in use has 8 slots left; the one in use, where its
first slot is to be used again and no erase has come before. -/
def Nv.eraseDue (v : Nv) : Option Nat :=
  let p := v.pos
  let used := fun (k : Nat) => v.flash.any (fun q => q.1 / 32 == k)
  if p % 32 == 0 && used (p / 32) then some (p / 32)
  else if 24 ≤ p % 32 && used ((p / 32 + 1) % 16) then some ((p / 32 + 1) % 16)
  else none

/-- SECTOR_ERASE: a sector is erased before its first slot is used again (R445). -/
def execSectorErase (s : State) : Host.Outcome State Fault Refusal :=
  .next (
    if !s.nv.ready || s.nv.erasing then s
    else match s.nv.eraseDue with
      | some k => (({ s with nv := { s.nv with erasing := true, sector := k } } : State).put (.spi 0x06 0 [])).put
          (.spi s.nv.eraseOp (s.nv.base.toNat + 4096 * k) [])
      | none => s)

/-- SECTOR_ERASE_DONE: WIP clear; waiting programs and reads go on. -/
def execSectorEraseDone (s : State) : Host.Outcome State Fault Refusal :=
  .next (
    if s.nv.erasing then
      ({ s with nv := { s.nv with
          erasing := false, flash := s.nv.flash.filter (fun q => q.1 / 32 != s.nv.sector) } } : State).nvReads
    else s)

/-! ## Replay (R444, R448) -/

/-- The newest committed record of the flash. -/
def Nv.newest (v : Nv) : Option (Nat × FlashSlot) :=
  v.flash.foldl (fun b p =>
    if !p.2.committed then b
    else match b with
      | none => some p
      | some q => if q.2.nseq < p.2.nseq then some p else b) none

/-- The first slot from `i` that nothing has been programmed into; `i` when there is none. -/
def Nv.freeSlot (v : Nv) (i : Nat) : Nat :=
  ((List.range 512).map (fun j => (i + j) % 512)).find? (fun j => (Tab.get? v.flash j).isNone) |>.getD (i % 512)

/-- A staged record programmed again, at a new slot. -/
def NvRec.again (slot : Nat) (r : NvRec) : NvRec :=
  let w0 : Word64 := BitVec.ofNat 64 (pack [(32, r.nseq), (8, r.kind), (1, 1)])
  { r with slot, replayed := true, step := 0, words := nvClose (w0 :: (r.words.take 15).drop 1) }

/-- Discovery done, the store in the highest 64 KiB of the device (R445), and the position found: staged records whose slot holds them committed are freed, the others are
programmed at the next free slots, and a boot record is staged. -/
def State.nvPosition (bytes : Nat) (erase : BitVec 8) (s : State) : State :=
  let v := s.nv
  let new := v.newest
  let seq := match new with
    | some p => p.2.nseq
    | none => 0
  let pos := match new with
    | some p => v.freeSlot (p.1 + 1)
    | none => v.freeSlot 0
  let boots := match new with
    | some p => wordAt p.2.words 1 / 2 ^ 32
    | none => 0
  let kept := v.staged.filter (fun r =>
    match Tab.get? v.flash r.slot with
    | some f => !(f.committed && f.words == nvCommit r.words)
    | none => true)
  let again := kept.zipIdx.map (fun q => q.1.again ((pos + q.2) % 512))
  let top := match again.getLast?, new with
    | some r, _ => nextNseq r.nseq
    | none, some p => nextNseq p.2.nseq
    | none, none => 0
  { s with nv := { v with
      ready := true, addr4 := decide (2 ^ 24 < bytes), base := BitVec.ofNat 32 (bytes - 65536), eraseOp := erase.toNat
      staged := again, seq, next := (pos + again.length) % 512, nextSeq := top
      boots, replay := !again.isEmpty, erasing := false } }

end Sys2Proof.Machine
end

