-- ==== Sys2Proof/Machine/Images.lean ====
section
/-! DEFINITION. Images read from host memory for a context: its record (06 Table 6-2), predictor images (06 Table 6-11)
and reels (06 Tables 6-3 to 6-6), and their checks. -/

namespace Sys2Proof.Machine
open Sys2Proof

/-- Byte `i` of an image. -/
def byteAt (l : List Word64) (i : Nat) : Nat := fld (wordAt l (i / 8)) (8 * (i % 8)) 8
/-- 16 bits at byte `i`, which is even. -/
def halfAt (l : List Word64) (i : Nat) : Nat := fld (wordAt l (i / 8)) (8 * (i % 8)) 16
/-- 32 bits at byte `i`, a multiple of 4. -/
def quadAt (l : List Word64) (i : Nat) : Nat := fld (wordAt l (i / 8)) (8 * (i % 8)) 32
/-- A byte, 16 bits and 32 bits in two's complement. -/
def sByteAt (l : List Word64) (i : Nat) : Int := sfld (byteAt l i) 0 8
def sHalfAt (l : List Word64) (i : Nat) : Int := sfld (halfAt l i) 0 16
def sQuadAt (l : List Word64) (i : Nat) : Int := sfld (quadAt l i) 0 32

/-! ## The predictor image (R200) -/

/-- The fields of an image of 1,024 bytes. -/
def predImgOf (l : List Word64) : PredImg :=
  { w1 := (List.range 16).map (fun j => (List.range 32).map (fun i => sByteAt l (32 * j + i)))
    b1 := (List.range 16).map (fun j => sQuadAt l (0x200 + 4 * j))
    w2 := (List.range 16).map (fun j => sByteAt l (0x240 + j))
    b2 := sQuadAt l 0x250, hsh := byteAt l 0x254, osh := byteAt l 0x255, mu := BitVec.ofNat 16 (halfAt l 0x256)
    fsh := (List.range 32).map (fun i => byteAt l (0x258 + i))
    fmtE := (List.range 16).map (fun i => halfAt l (0x278 + 2 * i))
    csc := (List.range 32).map (fun i => sHalfAt l (0x298 + 2 * i))
    csr := (List.range 16).map (fun i => sHalfAt l (0x2D8 + 2 * i))
    csw := sHalfAt l 0x2F8, adapt := bit (byteAt l 0x2FA) 0, qint := byteAt l 0x2FB }

/-- The CRC of an image holds. -/
def predCrcOk (l : List Word64) : Bool := quadAt l 0x2FC == crc32 (zeroField l 0x5F 32)

/-- Reserved bits of an image are zero. -/
def predReservedOk (l : List Word64) : Bool := byteAt l 0x2FA < 2 && zeroWords l 0x60 32

/-- Shifts and QINT of an image lie in their ranges. -/
def predRangeOk (l : List Word64) : Bool :=
  let p := predImgOf l
  p.hsh < 32 && p.osh < 32 && p.fsh.all (fun x => x < 32) && decide (1 ≤ p.qint)

/-- A predictor that has just received an image: nothing evaluated, the FP16 copies of W2 formed. -/
def predOf (ctx : Nat) (l : List Word64) : Pred :=
  let i := predImgOf l
  { img := some i, ctx, w := i.w2.map (fun x => fp16Bits (x * 2 ^ 24)) }

/-! ## The context record (R173) -/

/-- The record with defaults substituted. -/
def ctxRecOf (l : List Word64) : CtxRec :=
  let w := wordAt l
  { sbaseU := fld (w 0) 4 7, ssizeU := fld (w 0) 11 8, pbaseU := fld (w 0) 19 6, psizeU := fld (w 0) 25 7
    doms := BitVec.ofNat 128 (w 1 + 2 ^ 64 * w 2), wmAddr := fld (w 3) 0 48, fftLim := dflt (fld (w 3) 48 7) 64
    predAddr := fld (w 4) 0 48
    guard := (List.range 8).map (fun g => dflt (fld (w 5) (8 * g) 6) 15)
    cueWait := dflt (fld (w 6) 0 16) 2000, ph := dflt (fld (w 6) 16 8) 2, dwin := dflt (fld (w 6) 24 4) 4
    pdev := dflt (fld (w 6) 28 16) 256 }

/-- Reserved fields of the record are zero. -/
def ctxReservedOk (l : List Word64) : Bool :=
  let w := wordAt l
  fld (w 0) 32 32 == 0 && fld (w 3) 55 9 == 0 && fld (w 4) 48 16 == 0 && fld (w 6) 44 20 == 0 && w 7 == 0 &&
  (List.range 8).all (fun g => fld (w 5) (8 * g + 6) 2 == 0)

/-- Regions inside their stores, fields inside their ranges, addresses aligned. -/
def CtxRec.ok (r : CtxRec) : Bool :=
  inR 1 128 r.ssizeU && inR 1 64 r.psizeU && decide (r.sbaseU + r.ssizeU ≤ 128) && decide (r.pbaseU + r.psizeU ≤ 64) &&
  r.wmAddr % 8 == 0 && r.predAddr % 1024 == 0 && inR 100 65535 r.cueWait && inR 2 16 r.ph

/-- Two contexts' regions overlap. -/
def CtxRec.overlaps (a b : CtxRec) : Bool :=
  rangesMeet (a.sbaseU, a.ssizeU) (b.sbaseU, b.ssizeU) || rangesMeet (a.pbaseU, a.psizeU) (b.pbaseU, b.psizeU)

/-! ## Reels (R181, R182) -/

/-- MAGIC, FORMAT, CTX, LENGTH and reserved fields of a header, for context `c` (check 3 but for the CRC). -/
def hdrOk (c : Nat) (h : List Word64) : Bool :=
  let w := wordAt h
  let ns := fld (w 1) 0 20
  let np := fld (w 1) 20 15
  fld (w 0) 0 32 == 0x5A43524C && fld (w 0) 32 16 == 0x0301 && fld (w 0) 48 4 == c && fld (w 0) 60 4 == 0 &&
  inR 1 524288 ns && decide (np ≤ 16384) && fld (w 1) 54 10 == 0 && fld (w 2) 14 18 == 0 && fld (w 3) 32 32 == 0 &&
  fld (w 3) 0 32 == 64 + 16 * ns + 256 * np && fld (w 4) 37 27 == 0 && zeroWords h 5 3

/-- The CRC of a whole reel holds. -/
def reelCrcOk (l : List Word64) : Bool := fld (wordAt l 2) 32 32 == crc32 (zeroField l 2 32)

/-- The shots of a reel, as pairs of words. -/
def reelShots (l : List Word64) : List ShotEnt :=
  (List.range (fld (wordAt l 1) 0 20)).map (fun i =>
    { w0 := l.getD (8 + 2 * i) 0, w1 := l.getD (9 + 2 * i) 0, poison := false })

/-- Entry of cluster `n` of profile `p` of a reel. -/
def reelProf (l : List Word64) (p n : Nat) : Word32 :=
  BitVec.ofNat 32 (quadAt l (64 + 16 * fld (wordAt l 1) 0 20 + 256 * p + 4 * n))

/-- Reserved fields of shots and profile entries are zero. -/
def reelReservedOk (l : List Word64) : Bool :=
  (reelShots l).all (fun e => e.w1.toNat / 2 ^ 45 == 0) &&
  (List.range (fld (wordAt l 1) 20 15)).all (fun p => (List.range 64).all (fun n => (reelProf l p n).toNat / 2 ^ 29 == 0))

/-- Check 4 of Table 6-6. -/
def reel4 (l : List Word64) : Bool :=
  let es := (reelShots l).map shotOf
  let n := es.length
  let num := fld (wordAt l 0) 52 8
  es.zipIdx.all (fun p =>
    p.1.reel == num && (p.1.last == (p.2 + 1 == n)) && (p.1.dur == 0 || decide (32 ≤ p.1.dur)) &&
    !(p.1.dur == 0 && (match es[p.2 + 1]? with
      | some y => !y.cued
      | none => false))) &&
  (List.range (fld (wordAt l 1) 20 15)).all (fun p => (List.range 64).all (fun n =>
    let w := (reelProf l p n).toNat
    decide (fld w 19 6 ≤ 32) && decide (fld w 25 4 ≤ 8)))

/-- VUNIT of a shot is a domain that the context owns, or a group that holds such a domain. -/
def State.vunitOk (s : State) (c u : Nat) : Bool :=
  let own := fun d => bit (s.cx c).recd.doms.toNat d
  match uKind u with
  | .domain d => (s.sheet.domRec d).isSome && own d
  | .group g => (s.sheet.grpRec g).isSome && (s.sheet.grpDoms g).any own
  | _ => false

/-- Check 5 of Table 6-6 for context `c`. -/
def State.reel5 (s : State) (c : Nat) (l : List Word64) : Bool :=
  let r := (s.cx c).recd
  let (sr, pr) := hdrRanges l
  let w4 := wordAt l 4
  decide (4096 * r.sbaseU ≤ sr.1) && decide (sr.1 + sr.2 ≤ 4096 * (r.sbaseU + r.ssizeU)) &&
  (pr.2 == 0 || decide (256 * r.pbaseU ≤ pr.1) && decide (pr.1 + pr.2 ≤ 256 * (r.pbaseU + r.psizeU))) &&
  ((reelShots l).map shotOf).all (fun x =>
    decide (256 * r.pbaseU ≤ x.prof) && decide (x.prof < 256 * (r.pbaseU + r.psizeU)) &&
    inR 600 3800 x.vcode && s.vunitOk c x.vunit) &&
  (List.range pr.2).all (fun p => (List.range 64).all (fun n => decide (fld (reelProf l p n).toNat 0 11 ≤ 1024))) &&
  (!bit w4 36 || fld w4 0 9 + fld w4 9 9 + fld w4 18 9 + fld w4 27 9 == 256)

/-- Checks 3 to 5 of a whole reel: the failing check with its status. -/
def State.reelCheck (s : State) (c : Nat) (l : List Word64) : Option (Nat × Status) :=
  if !(hdrOk c l && reelCrcOk l && reelReservedOk l) then some (3, .rejectedFormat)
  else if !reel4 l then some (4, .rejectedFormat)
  else if !s.reel5 c l then some (5, .rejectedLimit)
  else none

/-- The reel that a checked image makes resident. -/
def reelOf (l : List Word64) : Reel :=
  let (sr, pr) := hdrRanges l
  let w4 := wordAt l 4
  { num := fld (wordAt l 0) 52 8, sbase := sr.1, nshot := sr.2, pbase := pr.1, nprof := pr.2
    fr := if bit w4 36 then some (fld w4 0 9, fld w4 9 9, fld w4 18 9, fld w4 27 9) else none }

/-- The words of a reel written to the shot slice and the profile columns; the poison of their lines ends. -/
def State.storeReel (l : List Word64) (s : State) : State :=
  let (sr, pr) := hdrRanges l
  let shots := (reelShots l).zipIdx.foldl (fun t p => Tab.put t (sr.1 + p.2) p.1) s.up.shots
  let prof := vmap (fun n t => (List.range pr.2).foldl (fun t p =>
    Tab.put t (pr.1 + p) { w := reelProf l p n, poison := false }) t) s.up.prof
  { s with up := { s.up with shots, prof } }

end Sys2Proof.Machine
end

