-- ==== Sys2Proof/Machine/CluReset.lean ====
section
/-! DEFINITION. Cluster reset (11 R368, Table 11-8): its assertion, what its release clears and keeps, the images read
again, the takeover, and the end of QUIET. -/

namespace Sys2Proof.Machine
open Sys2Proof

/-! ## Presence -/

/-- Cluster `n` is present in hardware. -/
def State.present (s : State) (n : Nat) : Bool := vget s.pins.cells n != 0

/-- A cluster is disabled (02 R46): every present cell of it is DISABLED, by UNIT_DISABLE or by a failed march (15 R467). -/
def State.cluDisabled (s : State) (n : Nat) : Bool :=
  !(s.sheet.allCells n).isEmpty && (s.sheet.allCells n).all (fun k => (s.cell n k).st == .disabled)

/-! ## Assertion -/

/-- A dispatched command has an operation at cluster `n`. -/
def State.touches (s : State) (n : Nat) (c : Cmd) : Bool :=
  let dom := fun d => (s.sheet.domHalves d).any (fun p => p.1 == n)
  match c.opc with
  | 2 | 3 | 4 | 5 => c.parts.any dom
  | 6 | 7 => c.parts.contains n
  | 0x12 => match uKind c.unit with
    | .domain d => dom d
    | _ => false
  | 0x13 => c.opnd 2 0 6 == n || c.opnd 2 6 6 == n
  | 0x14 => decide (c.opnd 2 0 4 < 4) && c.opnd 2 4 6 == n
  | _ => false

/-- What a command that a reset ends leaves behind: pending set-points, a sequence's command, a probe, a self-test, a
march. A sequence still waiting for cells to run ends; one in its stages runs on without its command. -/
def State.forget (slot : Nat) (s : State) : State :=
  let s := each (vfind (fun x : Domain => x.cmd == some slot) s.dom) State.clearCmd s
  let s := each (vfind (fun x : Domain => match x.stg with
      | some g => g.cmd == some slot
      | none => false) s.dom) (fun d s => s.modDm d (fun x => { x with
        stg := (x.stg.filter (fun g => !g.waitRun)).map (fun g => { g with cmd := none }) })) s
  let s := { s with clu := vmap (fun _ (c : Cluster) => { c with
    ctl := { c.ctl with swap := c.ctl.swap.filter (fun q => q.1 != slot) }
    halves := vmap (fun _ (h : Half) => { h with ramp := { h.ramp with
      cmd := if h.ramp.cmd == some slot then none else h.ramp.cmd
      chg := h.ramp.chg.map (fun (x : Change) => if x.cmd == some slot then { x with cmd := none } else x) } }) c.halves }) s.clu }
  let s := s.endProbe slot
  let s := match s.cmd? slot with
    | some c => if c.opc == 6 then
        each c.parts (fun n s => s.modCl n (fun k => { k with ctl := { k.ctl with loadBusy := false } })) s
      else s
    | none => s
  { s with
    selft := s.selft.filter (fun t => t.slot != slot)
    march := if s.march == some slot then none else s.march
    ch := vmap (fun _ (x : Channel) => x.dropArch (fun q => q == slot)) s.ch }

/-- RESULT of a command that the reset of cluster `n` ends: its first failing domain or cluster (13 Table 13-5). -/
def State.resetResult (s : State) (n : Nat) (c : Cmd) : Nat :=
  match c.opc with
  | 2 | 3 =>
    if c.unit < 0x040 then
      match (c.parts.filter (fun d => (s.sheet.domHalves d).any (fun p => p.1 == n))).head? with
      | some d => uDom d * 2 ^ 32
      | none => 0
    else 0
  | 6 | 7 => n * 2 ^ 8
  | _ => 0

/-- A reset of cluster `n` is asserted (R368, 07 R234): its commands end ABORTED_RESET, REVOKE reaches every station,
and no word is sent, so that its cells park by their own timeout. A cluster in reset already stays in it. -/
def State.resetClu (n : Nat) (cmd : Option Nat) (s : State) : State :=
  if !s.present n then s
  else if (s.cl n).inReset.isSome then s.modCl n (fun c => { c with resetCmd := c.resetCmd.orElse (fun _ => cmd) })
  else
    let ks := (s.host.cmds.filter (fun p => p.2.stage == .dispatched && s.touches n p.2)).map (fun p => p.1)
    let s := each ks (fun q s =>
      match s.cmd? q with
      | some c => (s.complete q .abortedReset (s.resetResult n c)).forget q
      | none => s) s
    let s := s.revokeAll n
    let s := s.modCl n (fun c => { c with
      inReset := some s.elapsed, resetRel := false, resetCmd := cmd, clock := .waking, wakeBy := s.elapsed + 5000 })
    { s with boot := { s.boot with cluRst := satInc 8 s.boot.cluRst } }

/-! ## Release -/

/-- A lane after the release: only its suspect marks and shadow-share are kept. -/
def Lane.kept (l : Lane) : Lane :=
  { shadow := l.shadow, vSub := l.vSub, iSusp := l.iSusp, udis := l.udis, susSince := l.susSince }

/-- The cluster after its release (Table 11-8): memories, queue and check flags cleared; cells, sense marks and
corrections, sensors, capacitance references, slot generations and the configuration of the shadow kept (16 R486). -/
def Cluster.released (now : Nat) (c : Cluster) : Cluster :=
  { cells := vmap (fun _ (x : Cell) => x.park now) c.cells
    carrier := c.carrier, s1 := c.s1
    ctl := { lanes := vmap (fun _ l => l.kept) c.ctl.lanes, sampleAt := nextBoundary 32 now }
    led := { gens := c.led.freeAll.gens, roundAt := now, accAt := now }
    pred := { lo := { stop := c.pred.lo.stop }, hi := { stop := c.pred.hi.stop } }
    sense := { res := c.sense.res
               susp := if c.sense.open_.getLsbD 32 then c.sense.susp &&& ~~~(1 <<< 32 : BitVec 33) else c.sense.susp
               vinPkg := c.sense.vinPkg
               corr := c.sense.corr, frame := c.sense.frame, frameAt := nextBoundary 32 (now + 39), ow := { c.sense.ow with phase := 0 } }
    therm := c.therm
    cfg := c.shadow, shadow := c.shadow
    clock := .waking, wakeBy := c.wakeBy, inReset := c.inReset, resetRel := true, resetCmd := c.resetCmd
    woke := c.woke, caps := c.caps, capAt := c.capAt, busSeq := c.busSeq }

/-- CLUSTER_RESET_RELEASE: 3 us after the assertion; the channel trains again (12 R381). -/
def execClusterResetRelease (n : CluIx) (s : State) : Host.Outcome State Fault Refusal :=
  .next (match (s.cl n).inReset with
    | none => s
    | some t =>
      if (s.cl n).resetRel then s
      else
        let s := s.advanceTo (t + 3000)
        let old := s
        let s := s.modCl n (fun c => c.released s.elapsed)
        let s := { s with ctx := vmap (fun _ (x : Context) => { x with ram := x.ram.filter (fun e => e.1 != n.val) }) s.ctx }
        let s := (s.noteParks old).closeUnit (uClu n) [0x021]
        if (s.chan n).st == 3 then s else s.modChan n (fun x => { x with st := 0, jobs := [], archAt := 0, archBad := false }))

/-! ## Images and takeover -/

/-- The section 0x0002 entry of DEST 0 that names cluster `n` (04 Table 4-9). -/
def CallSheet.bankEntry (cs : CallSheet) (n dest : Nat) : Option BankEntry :=
  cs.s2.entries.find? (fun e => e.dest == dest && e.mask.getLsbD n)

/-- Banks A and B of a cluster take one bank; bank A is active (04 R146, Table 11-8). -/
def State.setBanks (n : Nat) (b : Bank) (s : State) : State :=
  s.modCl n (fun c => { c with ctl := { c.ctl with
    bankA := { b with valid := true }, bankB := { b with valid := true }, activeB := false, loadBusy := false, swap := none } })

/-- The halves of a cluster whose open context has a predictor image. -/
def State.predHalves (s : State) (n : Nat) : List (Nat × Nat) :=
  (s.hs n).filterMap (fun h =>
    match s.halfCtx n h with
    | some c => if (s.cx c).recd.predAddr == 0 then none else some (h, c)
    | none => none)

/-- Reads of a reset cluster that are outstanding. -/
def State.reReads (s : State) (n : Nat) : Bool :=
  s.host.reads.any (fun p => match p.2.use with
    | .rebank m => m == n
    | .repred m _ => m == n
    | _ => false)

/-- The takeover of Table 11-8: balance and QUIET of 07 R234, ramps from measured VOUT toward the kept targets
(04 R128). Cells are taken back from PARK, or started from IDLE, by the next words. With an UNIT_ENABLE behind the reset
its cells run TEST. -/
def State.takeover (n : Nat) (s : State) : State :=
  let s := each (List.range 16) State.prefetch (s.restoreLedger n)
  let s := s.modCl n (fun c => { c with
    inReset := none, ctl := { c.ctl with sampleAt := nextBoundary 32 s.elapsed } })
  let s := each (s.sheet.cluHalves n) (fun p s =>
    let t := s.tgtInForce p.2
    (s.modHalf n p.1 (fun x => { x with ramp := { x.ramp with tgt := t, r := 4096 * t, settled := 4, done := true } })).placeChange
      n p.1 { tgt := (s.dm p.2).tgt, rate := s.sheet.s2.slewDef, cmd := none, shot := false }) s
  match (s.cl n).resetCmd with
  | none => s
  | some q =>
    let old := s
    let s := s.modCl n (fun c => { c with
      resetCmd := none
      cells := vmap (fun _ (x : Cell) => if x.st == .disabled || x.st == .latched then x.toTest s.elapsed else x) c.cells })
    (s.noteParks old).endPart q n .done

/-- The takeover once every image has been read. -/
def State.tryTakeover (n : Nat) (s : State) : State :=
  if (s.cl n).inReset.isSome && (s.cl n).clock == .running && !s.reReads n then s.takeover n else s

/-- The clock of a reset cluster runs: its images are read again, or built-in banks taken. -/
def State.reload (n : Nat) (s : State) : State :=
  let s := match s.sheet.bankEntry n 0 with
    | some e => s.startRead e.addr 8192 (.rebank n) ownSrc
    | none => s.setBanks n builtinBank
  let s := each (s.predHalves n) (fun p s =>
    s.startRead ((s.cx p.2).recd.predAddr + 1024 * n) 1024 (.repred n p.1) ownSrc) s
  s.tryTakeover n

/-- The DEST 0 image of a reset cluster has been read; one that fails leaves the built-in bank. -/
def State.rebankDone (n : Nat) (img : List Word64) (poison : Bool) (s : State) : State :=
  let b := if poison || (bankCheck (s.sheet.laneOvl n) img).isSome then builtinBank else bankOf img
  (if (s.cl n).inReset.isSome then s.setBanks n b else s).tryTakeover n

/-- A predictor image has been read again; one that fails leaves its predictor stopped with a DEGRADED fault. -/
def State.repredDone (n h : Nat) (img : List Word64) (poison : Bool) (s : State) : State :=
  if (s.cl n).inReset.isNone then s
  else
    let c := (s.halfCtx n h).getD 0
    let s :=
      if poison || !predCrcOk img then
        (s.modCl n (fun x => { x with pred := x.pred.set h { ctx := c, stop := true } })).raise 0x025 (.unit (uClu n)) c
      else s.modCl n (fun x => { x with pred := x.pred.set h { predOf c img with stop := (x.pred.get h).stop } })
    s.tryTakeover n

/-- QUIET_END: 256 ns; admission resumes. After a cluster reset its faults end and an INFO event is sent (Table 11-8,
14 R433). -/
def execQuietEnd (n : CluIx) (s : State) : Host.Outcome State Fault Refusal :=
  .next (match (s.cl n).led.quietBy with
    | none => s
    | some t =>
      let s := (s.advanceTo t).modCl n (fun c => { c with led := { c.led with quietBy := none } })
      if (s.cl n).resetRel then
        let s := s.modCl n (fun c => { c with resetRel := false })
        (s.closeFlt (fun f => f.sc == .unit (uClu n) && (f.cls == 4 || f.code == 0x02D))).raise 0x02F (.unit (uClu n)) 0
      else s)

end Sys2Proof.Machine
end

