-- ==== Sys2Proof/Machine/Faults.lean ====
section
/-! DEFINITION. The fault collector (14 R429 to R436): records and their merging, the actions of each class, the end of
CORRECTED faults, and errors of the block's memories (15 R461). -/

namespace Sys2Proof.Machine
open Sys2Proof

/-! ## Records (Table 14-1) -/

/-- UNIT, CTXS and CTX of a scope. -/
def scopeFields : Scope → Nat × Nat × Nat
  | .unit u => (u, 0, 0)
  | .ctx c => (0, 1, c)

/-- The four words of a fault record. -/
def State.faultWords (s : State) (r : Raise) (rep : Nat) : List Word64 :=
  let f := scopeFields r.sc
  [BitVec.ofNat 64 (pack [(8, 1), (3, r.cls), (1, b2n r.inj), (12, r.code), (11, f.1), (1, f.2.1), (4, f.2.2),
      (8, min 255 rep), (16, r.detail)]),
   BitVec.ofNat 64 (pack [(48, r.addr), (8, r.master), (3, r.acc), (1, b2n r.first)]),
   BitVec.ofNat 64 r.time, BitVec.ofNat 64 (pack [(32, s.flt.fseq), (32, s.cseq)])]

/-- LOG and INT of a class in FLT_MAP; FATAL always has both. -/
def State.fltLog (s : State) (cls : Nat) : Bool := cls == 4 || bit s.flt.map.toNat (2 * (cls - 1))
def State.fltInt (s : State) (cls : Nat) : Bool := cls == 4 || bit s.flt.map.toNat (2 * (cls - 1) + 1)

/-- A record formed from a raise with a REPEAT: its event and its NV record (R429, R431). -/
def State.formRecord (r : Raise) (rep : Nat) (s : State) : State :=
  let w := s.faultWords r rep
  let s := { s with flt := { s.flt with
    fseq := (s.flt.fseq + 1) % 2 ^ 32
    merges := s.flt.merges.filter (fun (m : Merge) => !(m.code == r.code && m.sc == r.sc)) ++
      [({ code := r.code, sc := r.sc, at_ := s.elapsed, count := 0, last := r } : Merge)] } }
  let s := s.postEvent none w (scopeClu r.sc) none
  if s.fltLog r.cls then s.stageNv 1 w else s

/-- Interrupts of a raise (Table 14-4). -/
def State.fireRaise (r : Raise) (s : State) : State :=
  let s := if s.fltInt r.cls then s.fire (24 - r.cls) else s
  match scopeClu r.sc with
  | some n => s.fire (64 + n)
  | none => s

/-- FAULT_RECORD: the raise at the head of the collector's queue (R429 to R432). An INFO or CORRECTED raise within MERGE
of a record of its code and scope is only counted; every other forms a record. A FATAL raise at a cluster resets it
(11 R368). -/
def execFaultRecord (s : State) : Host.Outcome State Fault Refusal :=
  .next (match s.flt.queue with
    | [] => s
    | r :: rest =>
      let s := { s with flt := { s.flt with queue := rest } }
      let m? := s.flt.merges.find? (fun m => m.code == r.code && m.sc == r.sc)
      let s := match m? with
        | some m =>
          if r.cls ≤ 2 && decide (s.elapsed < m.at_ + s.mergeNs) then
            { s with flt := { s.flt with merges := s.flt.merges.map (fun (x : Merge) =>
              if x.code == r.code && x.sc == r.sc then { x with count := x.count + 1, last := r } else x) } }
          else s.formRecord r m.count
        | none => s.formRecord r 0
      let s := s.fireRaise r
      if r.cls == 4 then
        match r.sc with
        | .unit u => match uKind u with
          | .cluster n => s.resetClu n none
          | _ => s
        | .ctx _ => s
      else s)

/-- MERGE_EXPIRY: MERGE after the last record of a code and scope with raises merged since (R432). -/
def execMergeExpiry (code : Nat) (sc : Scope) (s : State) : Host.Outcome State Fault Refusal :=
  .next (match s.flt.merges.find? (fun m => m.code == code && m.sc == sc) with
    | none => s
    | some m => if m.count == 0 then s else (s.advanceTo (m.at_ + s.mergeNs)).formRecord m.last m.count)

/-- CORRECTED_FAULT_CLOSE: MERGE after the last raise of a CORRECTED fault (R433). -/
def execCorrectedFaultClose (code : Nat) (sc : Scope) (s : State) : Host.Outcome State Fault Refusal :=
  .next (match s.flt.opens.find? (fun f => f.code == code && f.sc == sc && f.cls == 2) with
    | none => s
    | some f => (s.advanceTo (f.last + s.mergeNs)).closeFlt (fun g => g.code == code && g.sc == sc && g.cls == 2))

/-! ## Errors of memories (15 R461, Table 15-2) -/

/-- A correction counted (CLU[n].MEM_CNT, GAF_MEM_CNT). -/
def State.memCorrected (mem n : Nat) (s : State) : State :=
  match mem with
  | 0 => s.modCl n (fun c => { c with stateCorr := satInc 8 c.stateCorr })
  | 1 | 2 => s.modCl n (fun c => { c with coefCorr := satInc 8 c.coefCorr })
  | 3 => s.modCl n (fun c => { c with ledgCorr := satInc 8 c.ledgCorr })
  | 8 => { s with sramCorr := satInc 16 s.sramCorr }
  | 9 => { s with secCorr := satInc 8 s.secCorr }
  | 10 => { s with retCorr := satInc 7 s.retCorr }
  | _ => s

/-- The oldest staged record lost to an uncorrectable read of the retention SRAM. -/
def State.retLost (s : State) : State :=
  match s.nv.staged with
  | [] => s
  | _ :: rest => { s with nv := { s.nv with staged := rest, lost := satInc 7 s.nv.lost } }

/-- An uncorrectable error of a ledger (07 R236): every domain that the cluster serves is re-derived. -/
def State.ledgerError (n addr master : Nat) (inj : Bool) (s : State) : State :=
  let ds := (s.sheet.cluHalves n).map (fun p => p.2)
  each ds (fun d s => s.raiseAcc 0x012 (.unit (uDom d)) n addr master 1 inj) (s.ledgerLost n ds)

/-- An uncorrectable read of memory `mem`, of cluster `n` where it is a cluster's, at word `addr`, by a
master of Table 14-1 (Table 15-2). -/
def State.memBad (mem n addr master acc_ : Nat) (inj : Bool) (s : State) : State :=
  let fatal := fun (s : State) => s.raiseAcc 0x02D (.unit (uClu n)) mem addr master acc_ inj
  match mem with
  | 0 => fatal s
  | 1 | 2 =>
    if decide (mem = 2) == (s.cl n).ctl.activeB then fatal s
    else s.modCl n (fun (c : Cluster) => { c with ctl := c.ctl.setInactive { c.ctl.inactive with valid := false } })
  | 3 => s.ledgerError n addr master inj
  | 8 => s.raiseAcc 0x049 (.unit 0) 8 addr master acc_ inj
  | 9 =>
    if s.sec.refillWait.any (fun p => p.1 == addr) then s
    else { s with sec := { s.sec with refillWait := s.sec.refillWait ++ [(addr, inj)] } }
  | 10 => s.retLost
  | _ => s

/-- Words of a memory (Table 15-1). -/
def memWords (mem : Nat) : Nat :=
  match mem with
  | 0 => 8192 | 1 | 2 => 1024 | 3 => 1024 | 8 => 131072 | 9 => 2048 | _ => 512

/-- A read of a memory meets an injection of kind 3 armed for it (14 Table 14-8). The word that is read is free where
the spec gives the memory no layout. -/
def State.memRead (mem n : Nat) (addr : Option Nat) (s : State) : State :=
  let hit := fun (i : Inject) => i.kind == 3 && fld i.arg.toNat 0 4 == mem &&
    (decide (8 ≤ mem) || fld i.arg.toNat 4 6 == n)
  match s.flt.injects.find? hit with
  | none => s
  | some i =>
    let s := { s with flt := { s.flt with injects := s.flt.injects.eraseP hit } }
    -- the readers of the Gaffer's memories (14 Table 14-1): the Storyboard, the command pipeline, the dailies
    let master := if mem < 4 then 64 + n else if mem == 8 then 18 else if mem == 9 then 17 else 19
    if bit i.arg.toNat 10 then
      match addr with
      | some a => s.memBad mem n a master 1 true
      | none => let (a, s) := s.drawNat; s.memBad mem n (a % memWords mem) master 1 true
    else s.memCorrected mem n

end Sys2Proof.Machine
end

