-- ==== Sys2Proof/Machine/Bringup.lean ====
section
/-! DEFINITION. Bring-up (11 R350 to R355): its steps in order, the secure page's fill (15 R469), the call sheet's
acceptance (02 R55, R56), the clusters' wake, the assembly of the tree (02 R60, R61), the clearing of the upper die, and
ZN_RDY. Domains and waves, step 7, stand in Domains.lean. -/

namespace Sys2Proof.Machine
open Sys2Proof

/-- Step `k` of bring-up is in progress, and goes on. -/
def State.atStep (s : State) (k : Nat) : Bool := s.supply && s.pins.rstN && s.boot.step == k && !s.boot.halt

/-- Bring-up halts (Table 11-3). -/
def State.haltBoot (s : State) : State := { s with boot := { s.boot with halt := true } }

/-- Bring-up comes to step `k`. -/
def State.toStep (k : Nat) (s : State) : State := { s with boot := { s.boot with step := k } }

/-- BRINGUP_VIN_READY: VIN above 1.45 V for 50 us ends step 1; a trip latch still set halts bring-up. The march of the
retention SRAM, run only when ZN_VAON has come up, withdraws the slots that hold failing words (15 R467). -/
def execBringupVinReady (marchFail : List Nat) (s : State) : Host.Outcome State Fault Refusal :=
  .next (
    if !s.atStep 1 then s
    else
      let s := if !s.boot.vaonUp then s
        else { s with
          nv := { s.nv with withdrawn := ((marchFail.filter (fun k => decide (k < 32))).eraseDups).length }
          boot := { s.boot with vaonUp := false } }
      if s.trip then s.haltBoot else s.toStep 2)

/-- NV_REPLAY: discovery of the flash and the ring position (14 R444, R448); without them bring-up goes on without the
record store, with a DEGRADED fault. -/
def execNvReplay (r : NvDiscovery) (s : State) : Host.Outcome State Fault Refusal :=
  .next (
    if !s.atStep 2 then s
    else match r with
      | .found bytes erase => (((s.put (.spi 0x5A 0 [])).nvPosition bytes erase).stageNv 2 []).toStep 3
      | .failed detail => (s.raise 0x04A (.unit 0) detail).toStep 3)

/-! ## The secure page (15 R469) -/

/-- Chip limits lie in their ranges: T_CRIT 95 to 125 degC, SOA_VMAX 2,000 to 3,800. -/
def secLimitsOk (p : SecStore) : Bool :=
  decide (16 * 95 ≤ p.tCrit) && decide (p.tCrit ≤ 16 * 125) && inR 2000 3800 p.soaVmax

/-- What the page distributes: chip limits, and each cluster's factory figures. -/
def State.distribute (p : SecStore) (s : State) : State :=
  { s with
    sec := { s.sec with filled := true, wiped := false, tCrit := p.tCrit, soaVmax := p.soaVmax }
    clu := vmap (fun n c =>
      let e := p.clus.getD n default
      { c with
        therm := { c.therm with fBin := e.fBin, sBin := e.sBin, ageRef := e.ageRef }
        -- the factory trims; corrections that a block reset has kept stay (09 R287)
        sense := if s.boot.power then { c.sense with corr := vmap (fun i (x : Corr) => { x with
            o := e.oTrim.getD i 0, g := e.gTrim.getD i 0, tau := e.tTrim.getD i 0 }) c.sense.corr } else c.sense }) s.clu }

/-- SECURE_PAGE_FILL: the end of step 3. After a block reset the kept page is used unless it has been wiped. `sramFail`
says that the march of the Gaffer SRAM, or after power-up that of the page, found failing words. -/
def execSecurePageFill (st : SecStore) (sramFail : Bool) (s : State) : Host.Outcome State Fault Refusal :=
  .next (
    if !s.atStep 3 then s
    else if sramFail || decide (s.elapsed < s.pins.tamperBy) then s.haltBoot
    else
      let kept := if s.sec.wiped then none else s.sec.page
      match kept with
      | some p => if secLimitsOk p then { s.distribute p with boot := { s.boot with step := 4, waitGo := true } } else s.haltBoot
      | none =>
        if !st.readable || !st.crcOk || !secLimitsOk st then s.haltBoot
        else
          let s := { s with sec := { s.sec with page := some st, store := some st, lc := st.lc, patches := [], bad := false } }
          { s.distribute st with boot := { s.boot with step := 4, waitGo := true } })

/-! ## The call sheet (02 R55, R56) -/

/-- The reads of GO's fetch are outstanding. -/
def State.cshReading (s : State) : Bool :=
  s.host.reads.any (fun p => match p.2.use with
    | .csh none => true
    | .cshBank none _ => true
    | _ => false)

/-- The call sheet of the fetched image, or its first failing check of Table 2-12; a poisoned image fails check 1, and
the bank images are judged in check 8. -/
def State.cshJudge (s : State) : Except Nat CallSheet :=
  match s.boot.cshImg with
  | none => .error 1
  | some (img, poison) =>
    if poison then .error 1
    else match parseCsh s.pins.cells s.pins.sltCon s.sec.tCrit img with
      | .error k => .error k
      | .ok cs =>
        if !cs.banksOk s.boot.cshBanks then .error 8
        else match s.cshLater false cs with
          | 0 => .ok cs
          | k => .error k

/-- AVSBus writes at an acceptance (17 R501): the transition rate in mV/us, then the nominal VIN in mV. -/
def State.avsStart (s : State) : State :=
  if s.pins.nReg == 0 then s
  else ({ (s.put (.avs 1 15 1)).put (.avs 0 15 (1500 + 10 * s.pins.vinNom)) with
    buses := { s.buses with avsDone := false, avsAt := s.elapsed + 10000 } } : State)

/-- The accepted call sheet of bring-up: thresholds of VIN act (11 R343), step 5 begins. Every IDLE cell runs TEST,
channels train (12 R381), and each cluster's carrier goes to FSW. -/
def State.acceptSheet (cs : CallSheet) (s : State) : State :=
  let s := { s with
    csh := some cs
    boot := { s.boot with step := 5, waitGo := false, cshState := 2, cshCheck := 0 }
    vin := { s.vin with thr := some cs.hdr.vinThr }, pow := { s.pow with caps := cs.s6 } }
  let wake := fun (n : Nat) (s : State) => s.modCl n (fun c => { c with
    cells := vmap (fun k (x : Cell) =>
      if (cs.allCells n).contains k && x.st == .idle then x.toTest s.elapsed else x) c.cells
    s1 := cs.s1 })
  let s := each cs.cluIxs (fun n s => wake n (s.takeFsw n (s.cl n).s1 cs.s1)) s
  let s := each (cs.cluIxs ++ [64, 65]) (fun c s => s.modChan c (fun x => { x with st := 0 })) s
  s.vinJudge.avsStart.throttleAll

/-- CALL_SHEET_ACCEPTED: the fetch and checks of GO have ended: the image is accepted, or rejected with its failing
check, which halts bring-up until another GO (R56). -/
def execCallSheetAccepted (s : State) : Host.Outcome State Fault Refusal :=
  .next (
    if !s.atStep 4 || s.boot.cshState != 1 || s.cshReading || s.boot.cshImg.isNone then s
    else match s.cshJudge with
      | .ok cs => s.acceptSheet cs
      | .error k => { s with boot := { s.boot with
          halt := true, waitGo := true, cshState := 3, cshCheck := k, cshImg := none, cshBanks := [] } })

/-! ## Wake and assembly -/

/-- The bank that a cluster starts with (04 R146): the first image of DEST 0 that names it, or the built-in bank. -/
def State.firstBank (s : State) (n dest : Nat) : Bank :=
  match (List.zip s.sheet.s2.entries s.boot.cshBanks).find? (fun p => p.1.dest == dest && p.1.mask.getLsbD n) with
  | some p => bankOf p.2
  | none => builtinBank

/-- A failing march in a cluster (15 R467): its cells are DISABLED with cause 1, and 0x02D is raised at DEGRADED. -/
def State.cluMarchFailed (n mem words : Nat) (s : State) : State :=
  let s := s.modCl n (fun c => { c with
    marchFail := satAdd 7 c.marchFail words
    cells := vmap (fun k (x : Cell) => if (s.sheet.allCells n).contains k then { x.toDisabled s.elapsed 1 with pass := false } else x) c.cells })
  let (a, s) := s.drawNat
  s.collect { code := 0x02D, cls := 3, sc := .unit (uClu n), inj := false, detail := mem, addr := a % memWords mem, master := 22,
              acc := 1, time := s.elapsed, first := false }

/-- CLUSTER_WAKE_REPORT: the end of step 5 in one cluster: open inputs marked (09 R295) before the marks that TEST
clears, first thermal sample, banks loaded; the last report ends the step. A cluster whose cells are still under TEST
has not reported. -/
def execClusterWakeReport (n : CluIx) (m : WakeMeas) (s : State) : Host.Outcome State Fault Refusal :=
  .next (
    let busy := m.marchFail.isNone && (s.sheet.allCells n).any (fun k => (s.cell n k).st == .test)
    if !s.atStep 5 || (s.sheet.cluRec n).isNone || (s.cl n).woke || busy then s
    else
      let old := s
      let s := s.modCl n (fun c => { c with
        woke := true, clock := .running, idleSince := none
        sense := { c.sense with
          frame := 0, frameAt := nextBoundary 32 (s.elapsed + 39), volt := none
          res := vmap (fun _ r => { r with held := true }) c.sense.res
          ow := { c.sense.ow with
            nextAt := s.elapsed + 1000 * s.sheet.s3.owInt, prev := (List.range 33).map (fun ch => (ch, s.elapsed)) } }
        ctl := { c.ctl with sampleAt := nextBoundary 32 s.elapsed }
        led := { c.led with roundAt := s.elapsed, accAt := s.elapsed }
        therm := { c.therm with ageAt := s.elapsed }, capAt := s.elapsed, busSeq := s.lastSent, busGot := true })
      let s := s.setBanks n (s.firstBank n 0)
      let s := match m.marchFail with
        | some (mem, words) => s.cluMarchFailed n mem words
        | none => s
      let s := each ((List.range 33).filter (fun c => opened c (m.phase1.getD c 0) (m.phase2.getD c 0))) (fun c s => s.markOpen n c s.elapsed s.elapsed) s
      let tested := (s.sheet.allCells n).filter (fun k => (s.cell n k).st == .idle && (s.cell n k).pass)
      let s := (each tested (fun k s => s.senseClear n k) s).thDeliver n m.temps
      let s := s.noteParks old
      if s.sheet.cluIxs.all (fun j => (s.cl j).woke) then s.toStep 6 else s)

/-- Capacity of a domain assembled from the cells that passed self-test, whatever their state (R60): 40 credits each. -/
def State.assembledCap (s : State) (d : Nat) : Nat :=
  40 * ((s.sheet.domCells d).filter (fun p => (s.cell p.1 p.2).pass)).length

/-- One domain assembled (R60, R61, 07 R214, 04 R126): its capacity, ILIM and pool, its target at VBOOT. -/
def State.assembleDom (d : Nat) (s : State) : State :=
  match s.sheet.domRec d with
  | none => s
  | some r =>
    let asm := s.assembledCap d
    let i := effIlim r.ilim asm
    let cap := s.domCap d
    let s := s.modDm d (fun x => { x with
      asmCap := asm, ilim := i, slope := r.slope, pool := i, wh := i - cap, bf := i - (i - cap), owed := 0
      disabled := asm == 0, rate := s.sheet.s2.slewDef })
    let s := if asm == 0 then s.raise 0x010 (.unit (uDom d)) 0 else s
    let s := if asm < r.ilim then s.raise 0x011 (.unit (uDom d)) asm else s
    s.forceTarget d r.vboot

/-- TREE_ASSEMBLY: step 6 (R60). Step 7 begins at once when VIN lies above VIN_WARN + VIN_HYST, and waits otherwise. -/
def execTreeAssembly (s : State) : Host.Outcome State Fault Refusal :=
  .next (
    if !s.atStep 6 then s
    else
      let s := each (s.sheet.domIxs.filter (fun d => !s.sheet.isAon d)) State.assembleDom s
      let s := { s with assembled := true, busAt := nextBoundary 1000 s.elapsed, busDue := none }
      if s.vinOkMv < s.vin.mv && !s.vin.dip then s.stepSeven
      else { s with boot := { s.boot with step := 7, waitVin := true } })

/-! ## The upper die and ZN_RDY (R354, R355) -/

/-- The second read of an archive image has ended (R355): the slot takes it, or the built-in bank where it cannot be used. -/
def State.archFill (n i : Nat) (w : List Word64) (poison : Bool) (s : State) : State :=
  let b := if poison || (bankCheck (s.sheet.laneOvl n) w).isSome then builtinBank else bankOf w
  if s.chanOff n then s else { s with up := { s.up with arch := vmod s.up.arch n (fun a => vset a i b) } }

/-- UPPER_DIE_CLEAR: a slice has been cleared after its channel trained: 0 to 63 those of the clusters, whose archive
slots then take the images of section 0x0002 or the built-in bank; 64 the shot slice, behind G0 and G1. -/
def execUpperDieClear (slice : Fin 65) (s : State) : Host.Outcome State Fault Refusal :=
  .next (
    let open_ := if slice.val < 64 then !s.chanOff slice else !s.chanOff 64 || !s.chanOff 65
    if !s.supply || !s.pins.rstN || s.csh.isNone || s.up.cleared.getLsbD slice.val || !open_ then s
    else
      let up := { s.up with cleared := s.up.cleared ||| BitVec.ofNat 65 (2 ^ slice.val) }
      if slice.val < 64 then
        let named := s.sheet.s2.entries.filter (fun e => decide (1 ≤ e.dest) && e.mask.getLsbD slice)
        let arch : Vector Bank 4 := Vector.ofFn (fun i => if named.any (fun e => e.dest == 1 + i.val) then {} else builtinBank)
        let s := { s with up := { up with
          prof := vset up.prof slice.val []
          arch := vset up.arch slice.val arch, archPoison := vset up.archPoison slice.val 0 } }
        each named (fun e s => s.startRead e.addr 8192 (.archBank slice.val (e.dest - 1)) ownSrc) s
      else { s with up := { up with shots := [] } })

/-- Every slice that a channel reaches has been cleared. -/
def State.allCleared (s : State) : Bool :=
  s.sheet.cluIxs.all (fun n => s.up.cleared.getLsbD n || (s.chan n).st == 3) &&
  (s.up.cleared.getLsbD 64 || ((s.chan 64).st == 3 && (s.chan 65).st == 3))

/-- ZN_RDY may rise. -/
def State.mayBeReady (s : State) : Bool :=
  !s.flt.fatal && !s.trip && s.pins.rstreqN && s.pins.rstN && s.supply

/-- READY: step 7 has ended and clearing is complete: ZN_RDY rises, and the slate lanes start to train (R354). -/
def execReady (s : State) : Host.Outcome State Fault Refusal :=
  .next (
    if !s.atStep 8 || !s.allCleared || !s.mayBeReady || s.host.reset then s
    else
      let s := { s with
        boot := { s.boot with step := 9, us := min (2 ^ 20 - 1) ((s.elapsed - s.boot.relAt) / 1000) }
        pins := { s.pins with rdy := true } }
      each (List.range 4) (fun p s =>
        if s.portOn p && (vget s.slt.ports p).st == 0 then s.train p else s) s)

end Sys2Proof.Machine
end

