-- ==== Sys2Proof/Machine/Resets.lean ====
section
/-! DEFINITION. Power-up, power loss and block reset (11 R341, R365, Table 11-7; 15 R467, R471). The host functional
reset stands in HostReset.lean. -/

namespace Sys2Proof.Machine
open Sys2Proof

/-- What no reset changes: the model's own fields, levels at input and tied pins, ZN_PRI among them, VIN, and the
contents of the flash and the one-time contents of the secure store. Everything else is as State.reset has it. -/
def State.fresh (s : State) : State :=
  { State.reset with
    pending := s.pending, out := s.out, freeCtr := s.freeCtr, vaon := s.vaon, supply := s.supply
    pins := { park := !s.pins.rstN, rstN := s.pins.rstN, hrstN := s.pins.hrstN, exthrN := s.pins.exthrN, tamperBy := s.pins.tamperBy - s.elapsed
              cells := s.pins.cells, vinNom := s.pins.vinNom, nReg := s.pins.nReg, sltCon := s.pins.sltCon }
    edgeKey := s.edgeKey + 1
    sec := { lc := s.sec.lc, store := s.sec.store }
    irq := { State.reset.irq with proc := vmap (fun _ (p : IrqProc) => { pri := p.pri }) s.irq.proc }
    vin := { mv := s.vin.mv }, nv := { flash := s.nv.flash } }

/-- What the always-on watch keeps while ZN_VAON stays up: elapsed time, the retention SRAM, and the trip latch
(R341, R355, 10 R316, 14 R448). -/
def State.keepWatch (s t : State) : State :=
  { t with
    elapsed := s.elapsed, oscPhase := s.oscPhase, trip := s.trip, tripClu := s.tripClu
    pins := { t.pins with thermtripN := !s.trip, tamperBy := s.pins.tamperBy }
    nv := { t.nv with staged := s.nv.staged, withdrawn := s.nv.withdrawn, next := s.nv.next, nextSeq := s.nv.nextSeq, boots := s.nv.boots } }

/-- POWER_UP: ZN_VAON with the block supply, or the block supply alone while ZN_VAON is up, has risen. -/
def execPowerUp (vaon : Bool) (s : State) : Host.Outcome State Fault Refusal :=
  .next (
    if vaon then { s.fresh with vaon := true, supply := true }
    else if !s.vaon then s
    else
      let t := s.keepWatch s.fresh
      { t with supply := true, boot := { t.boot with vaonUp := s.boot.vaonUp, relAt := s.elapsed } })

/-- POWER_LOSS: the block supply falls, and with `vaon` ZN_VAON too: commands are gone (01 R34), cells are cleared
(03 R79), and staged records are lost with ZN_VAON. -/
def execPowerLoss (vaon : Bool) (s : State) : Host.Outcome State Fault Refusal :=
  .next (
    if vaon then { s.fresh with vaon := false, supply := false }
    else
      let t := s.keepWatch s.fresh
      { t with supply := false, boot := { t.boot with vaonUp := s.boot.vaonUp } })

/-- One cluster across a block reset: cells under the park level with their state, their thresholds and their carrier kept
(03 R79; log entry 109), the corrections of the sense unit kept with their limits (09 R287). -/
def Cluster.blockReset (now : Nat) (c : Cluster) : Cluster :=
  { cells := vmap (fun _ (x : Cell) => x.park now) c.cells
    carrier := c.carrier, s1 := c.s1
    sense := { corr := vmap (fun _ (x : Corr) => { o := x.o, g := x.g, tau := x.tau, lim := x.lim }) c.sense.corr } }

/-- The secure page across a block reset: kept with its entries and violation counter; not yet checked, the lock open,
values in force gone (15 R471, R475). A page with a word that awaits its refill, or that could not be filled again,
fails the check. -/
def Secure.blockReset (x : Secure) : Secure :=
  { wiped := x.wiped, tamper := x.tamper, lcFail := x.lcFail, lc := x.lc
    page := if x.refillWait.isEmpty && !x.bad then x.page else none, store := x.store, patches := x.patches, prot := x.prot
    violCnt := x.violCnt, violId := x.violId, violKind := x.violKind }

/-- BLOCK_RESET: ZN_RST_N falls. -/
def execBlockReset (s : State) : Host.Outcome State Fault Refusal :=
  .next (
    if !s.supply || !s.pins.rstN then s
    else
      let t := s.keepWatch s.fresh
      let first := s.boot.power && !s.clu.toList.any (fun c => c.woke)
      { t with
        epoch := s.epoch
        clu := vmap (fun _ (c : Cluster) => c.blockReset s.elapsed) s.clu
        sync := s.sync, edgeKey := s.edgeKey
        dom := vmap (fun _ (d : Domain) => { stages := d.stages }) s.dom
        sec := s.sec.blockReset
        vin := { mv := s.vin.mv, thr := s.vin.thr, warn := s.vin.warn }
        flt := { t.flt with first := s.flt.first, fseq := s.flt.fseq }
        pins := { t.pins with rstN := false, park := true }
        boot := { t.boot with
          power := first, vaonUp := s.boot.vaonUp, por := s.boot.por, pin := true
          vinRst := s.boot.vinRst || s.vin.rstreq, trip := s.boot.trip || s.trip, host := s.boot.host
          cluRst := s.boot.cluRst } })

/-- BLOCK_RESET_RELEASE: ZN_RST_N rises: the park level ends and bring-up begins. `tripCool` says that every comparator
in the trip path reads below T_CRIT - 10 degC, which clears the trip latch (10 R316). -/
def execBlockResetRelease (tripCool : Bool) (s : State) : Host.Outcome State Fault Refusal :=
  .next (
    if !s.supply || s.pins.rstN then s
    else
      let trip := s.trip && !tripCool
      { s with
        trip
        pins := { s.pins with rstN := true, park := false, thermtripN := !trip }
        boot := { s.boot with step := 1, relAt := s.elapsed } })

/-! ## The wipe (15 R471) -/

/-- The secure page is wiped: every word zero, protection entries and violation counter with it; values in force
stay. -/
def State.wipePage (s : State) : State :=
  { s with sec := { s.sec with
      wiped := true, filled := false, page := none, patches := [], refillWait := [], bad := false, prot := vrep 16 (vrep 8 0)
      violCnt := 0, violId := 0, violKind := 0 } }

/-- TAMPER: ZN_TAMPER_N falls and stays low for `ns`; a fall of 100 ns or more wipes the page. -/
def execTamper (ns : Nat) (s : State) : Host.Outcome State Fault Refusal :=
  .next (
    let s := { s with pins := { s.pins with tamperBy := s.elapsed + ns } }
    if !s.supply || decide (ns < 100) then s
    else
      let s := s.wipePage
      { s with sec := { s.sec with tamper := true } })

end Sys2Proof.Machine
end

