-- ==== Sys2Proof/Machine/Access.lean ====
section
/-! DEFINITION. Register accesses (16 R479 to R487, 15 R474 to R476): where each register lies, what an access must
pass, and the violations. -/

namespace Sys2Proof.Machine
open Sys2Proof

/-! ## The registers of Tables 16-2 to 16-13 -/

/-- The set-up registers. `hi` names the upper half of a pair. -/
inductive Reg where
  | id | hwcfg | cluPres (hi : Bool) | bootStat | rstCause | cshBase (hi : Bool) | cshCtrl | cshStatus | cshSeq
  | time (hi : Bool) | epoch (hi : Bool) | vinStat | bsnStat | memCnt | ringTbl (hi : Bool) | ringEn | ringDis | evrCtrl
  | ringErr | hifCnt | evrStat | ringIdx (k : Nat) | tagGen (m : Nat)
  | ctxStat (c : Nat) | ctxShot (c : Nat) | ctxWm (c : Nat) | ctxCnt (c : Nat) | cueStat | crdDom (d : Nat) | crdCnt
  | domPwr (d : Nat)
  | pcStat (n k : Nat) | ceStat (n : Nat) | ceWin (n : Nat) | ceRamp (n : Nat) | ceCnt (n : Nat) | shrCfg (n : Nat)
  | cmCfg (n : Nat) | prepCfg (n : Nat) | cmStat (n : Nat) | predStat (n : Nat) | sbdStat (n : Nat) | crdStat (n : Nat)
  | crdAcc (n h : Nat) | crdAux (n h : Nat) | cluCrdCnt (n : Nat) | cluMemCnt (n : Nat) | info (n : Nat)
  | snsStat (n : Nat) | snsSusp (n : Nat) | snsOpen (n : Nat) | qCtrl (n : Nat) | qMask (n : Nat) | qStat (n : Nat)
  | qLo (n : Nat) | qHi (n : Nat) | urg (n : Nat) | snsCnt (n : Nat)
  | thmClu (n : Nat) | thmCluSt (n : Nat) | thmRaw (m : Nat) | thmDom (d : Nat) | thmChip
  | capDom (d : Nat) | capPwr (d : Nat) | capFmax (d : Nat) | capThr (h : Nat) | capRsn (i : Nat) (hi : Bool)
  | eneCtx (c : Nat) (hi : Bool) | eneQ (q : Nat) (hi : Bool) | eneChip (hi : Bool)
  | srcCfg (i : Nat) | maskSet (w : Nat) | maskClr (w : Nat) | pendSet (w : Nat) | pendClr (w : Nat) | insvc (w : Nat)
  | procEn | srcCnt (i : Nat) | vec (p : Nat) | ack (p : Nat) | stat (p : Nat) | mod_ (p : Nat) | fvec (p : Nat)
  | fack (p : Nat) | fstat (p : Nat)
  | fltMap | fltStat | firstA | firstB | firstC | firstT (hi : Bool) | fltInj | fltInjArg | nvStat | nvSeq | nvPos | nvBase
  | sltStat | sltLink (p : Nat) | sltTiming | sltCnt
  | vrtCfg | vrtCap | chStat (c : Nat) | chFail (c w : Nat) | chCnt (c : Nat) | chCap (n : Nat)
  | lc | lcReq | secCtrl | secStat | secViol | prot (i w : Nat)
  | lgcId | lgcStat | lgcRail (r : Nat) | lgcSel | lgcData
  deriving DecidableEq, Repr

/-- A run of registers: first offset, step, count, and the register of each index. -/
structure RegRow where
  at_ : Nat
  step : Nat
  cnt : Nat
  reg : Nat → Reg

/-- One register. -/
def rOne (o : Nat) (r : Reg) : RegRow := ⟨o, 4, 1, fun _ => r⟩
/-- `n` registers, one word apart. -/
def rRun (o n : Nat) (f : Nat → Reg) : RegRow := ⟨o, 4, n, f⟩
/-- `n` pairs of a low and a high word. -/
def rPair (o n : Nat) (f : Nat → Bool → Reg) : RegRow := ⟨o, 4, 2 * n, fun i => f (i / 2) (i % 2 == 1)⟩
/-- Two words, low and high. -/
def rTwo (o : Nat) (f : Bool → Reg) : RegRow := rPair o 1 (fun _ => f)

/-- Pages 0 and 1 (Tables 16-2, 16-3). -/
def regPages0 : List RegRow :=
  [rOne 0x00000 .id, rOne 0x00004 .hwcfg, rTwo 0x00008 .cluPres, rOne 0x00010 .bootStat, rOne 0x00014 .rstCause,
   rTwo 0x00020 .cshBase, rOne 0x00028 .cshCtrl, rOne 0x0002C .cshStatus, rOne 0x00030 .cshSeq, rTwo 0x00040 .time,
   rTwo 0x00048 .epoch, rOne 0x00050 .vinStat, rOne 0x00058 .bsnStat, rOne 0x0005C .memCnt, rTwo 0x00100 .ringTbl,
   rOne 0x00108 .ringEn, rOne 0x0010C .ringDis, rOne 0x00110 .evrCtrl, rOne 0x00114 .ringErr, rOne 0x00118 .hifCnt,
   rOne 0x0011C .evrStat, rRun 0x00200 36 .ringIdx, rRun 0x00300 64 .tagGen,
   rRun 0x08000 16 .ctxStat, rRun 0x08040 16 .ctxShot, rRun 0x08080 16 .ctxWm, rRun 0x080C0 16 .ctxCnt,
   rOne 0x08100 .cueStat, rRun 0x08200 128 .crdDom, rOne 0x08400 .crdCnt, rRun 0x08600 128 .domPwr]

/-- The registers of one cluster in page 2 (Table 16-4), by offset in the cluster. -/
def regPage2 (n : Nat) : List RegRow :=
  [rRun 0x00 16 (.pcStat n), rOne 0x40 (.ceStat n), rOne 0x44 (.ceWin n), rOne 0x48 (.ceRamp n), rOne 0x4C (.ceCnt n),
   rOne 0x50 (.shrCfg n), rOne 0x54 (.cmCfg n), rOne 0x58 (.prepCfg n), rOne 0x5C (.cmStat n), rOne 0x60 (.predStat n),
   rOne 0x64 (.sbdStat n), rOne 0x70 (.crdStat n), rRun 0x74 2 (.crdAcc n), rRun 0x7C 2 (.crdAux n),
   rOne 0x84 (.cluCrdCnt n), rOne 0x90 (.cluMemCnt n), rOne 0xF0 (.info n)]

/-- The registers of one cluster in page 3 (Table 16-5). -/
def regPage3 (n : Nat) : List RegRow :=
  [rOne 0x00 (.snsStat n), rOne 0x04 (.snsSusp n), rOne 0x08 (.snsOpen n), rOne 0x10 (.qCtrl n), rOne 0x14 (.qMask n),
   rOne 0x18 (.qStat n), rOne 0x20 (.qLo n), rOne 0x24 (.qHi n), rOne 0x28 (.urg n), rOne 0x2C (.snsCnt n)]

/-- Pages 4 to 9 (Tables 16-6 to 16-10). -/
def regPages4 : List RegRow :=
  [rRun 0x20000 64 .thmClu, rRun 0x20100 64 .thmCluSt, rRun 0x20200 256 .thmRaw, rRun 0x20600 128 .thmDom,
   rOne 0x20800 .thmChip, rRun 0x28000 128 .capDom, rRun 0x28200 128 .capPwr, rRun 0x28400 128 .capFmax,
   rRun 0x28600 64 .capThr, rPair 0x28800 119 .capRsn, rPair 0x28C00 16 .eneCtx, rPair 0x29000 256 .eneQ,
   rTwo 0x29800 .eneChip,
   rRun 0x30000 256 .srcCfg, rRun 0x30400 8 .maskSet, rRun 0x30420 8 .maskClr, rRun 0x30440 8 .pendSet,
   rRun 0x30460 8 .pendClr, rRun 0x30480 8 .insvc, rOne 0x304A0 .procEn, rRun 0x30800 256 .srcCnt,
   ⟨0x31000, 16, 16, .vec⟩, ⟨0x31004, 16, 16, .ack⟩, ⟨0x31008, 16, 16, .stat⟩, ⟨0x3100C, 16, 16, .mod_⟩,
   ⟨0x31200, 16, 16, .fvec⟩, ⟨0x31204, 16, 16, .fack⟩, ⟨0x31208, 16, 16, .fstat⟩,
   rOne 0x38000 .fltMap, rOne 0x38004 .fltStat, rOne 0x38010 .firstA, rOne 0x38014 .firstB, rOne 0x38018 .firstC,
   rTwo 0x3801C .firstT, rOne 0x38030 .fltInj, rOne 0x38034 .fltInjArg, rOne 0x40000 .nvStat, rOne 0x40004 .nvSeq,
   rOne 0x40008 .nvPos, rOne 0x4000C .nvBase, rOne 0x48000 .sltStat, rRun 0x48010 4 .sltLink, rOne 0x48020 .sltTiming,
   rOne 0x48024 .sltCnt]

/-- Pages 10, 11 and 31 (Tables 16-11 to 16-13). -/
def regPages10 : List RegRow :=
  [rOne 0x50000 .vrtCfg, rOne 0x50004 .vrtCap, rRun 0x50100 66 .chStat, ⟨0x50400, 16, 66, fun c => .chFail c 0⟩,
   ⟨0x50404, 16, 66, fun c => .chFail c 1⟩, ⟨0x50408, 16, 66, fun c => .chFail c 2⟩, rRun 0x50A00 66 .chCnt,
   rRun 0x50C00 64 .chCap, rOne 0x58000 .lc, rOne 0x58004 .lcReq, rOne 0x58008 .secCtrl, rOne 0x5800C .secStat,
   rOne 0x58010 .secViol, rRun 0x58100 128 (fun i => .prot (i / 8) (i % 8)),
   rOne 0xF8000 .lgcId, rOne 0xF8004 .lgcStat, rRun 0xF8040 32 .lgcRail, rOne 0xF8100 .lgcSel, rOne 0xF8104 .lgcData]

/-- The register of a list of runs that lies at an offset. -/
def regIn : List RegRow → Nat → Option Reg
  | [], _ => none
  | r :: t, o =>
    if r.at_ ≤ o && (o - r.at_) % r.step == 0 && decide ((o - r.at_) / r.step < r.cnt) then some (r.reg ((o - r.at_) / r.step))
    else regIn t o

/-- Page of an offset (R479). -/
def pageOf (off : Nat) : Nat := off / 0x8000

/-- The register at an offset of the window (R488). -/
def regAt (off : Nat) : Option Reg :=
  match pageOf off with
  | 0 | 1 => regIn regPages0 off
  | 2 => if off < 0x14000 then regIn (regPage2 ((off - 0x10000) / 0x100)) (off % 0x100) else none
  | 3 => if off < 0x1A000 then regIn (regPage3 ((off - 0x18000) / 0x80)) (off % 0x80) else none
  | 4 | 5 | 6 | 7 | 8 | 9 => regIn regPages4 off
  | _ => regIn regPages10 off

/-- The cluster whose clock domain a register lies in; INFO is held in the Gaffer (R491). -/
def Reg.cluster : Reg → Option Nat
  | .pcStat n _ | .ceStat n | .ceWin n | .ceRamp n | .ceCnt n | .shrCfg n | .cmCfg n | .prepCfg n | .cmStat n
  | .predStat n | .sbdStat n | .crdStat n | .crdAcc n _ | .crdAux n _ | .cluCrdCnt n | .cluMemCnt n
  | .snsStat n | .snsSusp n | .snsOpen n | .qCtrl n | .qMask n | .qStat n | .qLo n | .qHi n | .urg n | .snsCnt n => some n
  | _ => none

/-- The configuration registers that have a shadow in the Gaffer (R486). -/
def Reg.shadowed : Reg → Bool
  | .shrCfg _ | .cmCfg _ | .prepCfg _ | .qCtrl _ | .qMask _ => true
  | _ => false

/-- Registers with Yes in the Boot column. -/
def Reg.boot : Reg → Bool
  | .cshBase _ | .cshCtrl | .ringTbl _ | .shrCfg _ | .cmCfg _ | .prepCfg _ | .vrtCfg | .vrtCap | .lcReq | .secCtrl
  | .prot _ _ => true
  | _ => false

/-- The cluster or the domain a register is indexed by is absent (R481, 02 R43). -/
def State.regAbsent (s : State) (r : Reg) : Bool :=
  let clu := fun n => !s.present n
  let dom := fun d => (s.sheet.domRec d).isNone
  match r with
  | .info n | .thmClu n | .thmCluSt n | .chCap n => clu n
  | .thmRaw m => clu (m / 4)
  | .chStat c | .chFail c _ | .chCnt c => decide (c < 64) && clu c
  | .crdDom d | .domPwr d | .thmDom d | .capDom d | .capPwr d | .capFmax d => dom d
  | .lgcRail d => dom d
  | _ =>
    match r.cluster with
    | some n => clu n
    | none => false

/-! ## Permission and violations (15 R472 to R476) -/

/-- The life-cycle state is FACTORY. -/
def State.factory (s : State) : Bool := s.sec.lc == 0

/-- The masks admit an access (R474, R475). Test access, ID 16, has no entry: it is admitted in FACTORY and RMA only
(Table 15-5). -/
def State.permits (s : State) (id off : Nat) (write : Bool) : Bool :=
  if id == 16 then s.sec.lc == 0 || s.sec.lc == 3
  else !s.sec.lock || (vget (vget s.sec.prot id) (if write then 6 else 5)).getLsbD (pageOf off)

/-- A violation: 0 register read, 1 register write, 2 command scope, 3 context record. -/
def State.violation (id kind : Nat) (s : State) : State :=
  { s with sec := { s.sec with violCnt := satInc 24 s.sec.violCnt, violId := id, violKind := kind } }

/-- The boot lock makes a register's writes ignored (R475, R485); in FACTORY the SEC_ page stays writable (Table 15-5),
but SEC_LC_REQ is taken only before the lock (R473). -/
def State.lockedReg (s : State) (r : Reg) : Bool :=
  s.sec.lock && r.boot && !(s.factory && (match r with
    | .secCtrl | .prot _ _ => true
    | _ => false))

/-- An access reaches a register: a sleeping domain wakes for it (01 R26, R28). -/
def State.wakeReg (r : Reg) (s : State) : State :=
  match r with
  | .info _ => s.wakeGaf
  | _ =>
    match r.cluster with
    | some n => (s.wakeClu n).wakeGaf
    | none => s.wakeGaf

/-- Cluster `n` is in cluster reset and its clock does not run again yet (R486). -/
def State.shadowOnly (s : State) (n : Nat) : Bool := (s.cl n).inReset.isSome && (s.cl n).clock != .running

/-- The clock that a register access needs runs: the Gaffer's, and for a cluster's register the cluster's, but for a cluster
in reset, whose accesses the Gaffer answers (R28, R486). -/
def State.regAwake (s : State) (r : Reg) : Bool :=
  s.gafClock == .running && (match r with
    | .info _ => true
    | _ => match r.cluster with
      | some n => s.shadowOnly n || (s.cl n).clock == .running
      | none => true)

/-- An access to a sleeping domain wakes it and stalls on the host port (01 R28). -/
def State.stall (row : Instr) (r : Reg) (s : State) : State :=
  let s := s.wakeReg r
  { s with stalled := s.stalled ++ [row] }

/-- A write by requester `id` at an offset, commanded by `row`: refused and counted, ignored, stalled, or let through to
`f`, told the register. One that comes while another waits is taken after it (R482); one that is not aligned is ignored
(17 R498). -/
def State.regWrite (row : Instr) (id off : Nat) (f : Reg → State → State) (s : State) : State :=
  if !s.accessible || off % 4 != 0 then s
  else if !s.stalled.isEmpty then { s with stalled := s.stalled ++ [row] }
  else if !s.permits id off true then s.violation id 1
  else match regAt off with
    | none => s
    | some r =>
      if s.regAbsent r then s
      else if s.lockedReg r then s.violation id 1
      else if !s.regAwake r then s.stall row r
      else
        match r.cluster with
        | some n =>
          if s.shadowOnly n then (if r.shadowed then f r s else s) else f r (s.wakeReg r)
        | none => f r (s.wakeReg r)

/-- A read by requester `id`, commanded by `row`: refused reads, and reads where nothing lies, return zero; `f` answers the
value and the read's effect. The word read goes out on the host port. One that comes while another waits is taken after it
(R482). -/
def State.regReadDo (row : Instr) (id off : Nat) (f : Reg → State → Nat × State) (s : State) : State :=
  let zero := fun (s : State) => s.put (.regData id 0)
  if !s.accessible then s
  else if !s.stalled.isEmpty then { s with stalled := s.stalled ++ [row] }
  else if off % 4 != 0 then zero s
  else if !s.permits id off false then zero (s.violation id 0)
  else match regAt off with
    | none => zero s
    | some r =>
      if s.regAbsent r then zero s
      else if !s.regAwake r then s.stall row r
      else
        let go := fun (s : State) => let p := f r s; p.2.put (.regData id (BitVec.ofNat 32 p.1))
        match r.cluster with
        | some n => if s.shadowOnly n then (if r.shadowed then go s else zero s) else go (s.wakeReg r)
        | none => go (s.wakeReg r)

/-! ## Scope of commands (13 R418, 02 R38) -/

/-- The units that a protection entry's scope names. -/
def State.scopeUnits (s : State) (pid : Nat) : List Nat :=
  (List.range 4).flatMap (fun w =>
    let x := (vget (vget s.sec.prot pid) w).toNat
    (if bit x 11 then [fld x 0 11] else []) ++ (if bit x 27 then [fld x 16 11] else []))

/-- A unit lies in an entry's scope. -/
def State.unitInScope (s : State) (pid u : Nat) : Bool := (s.scopeUnits pid).any (fun top => s.sheet.inSub top u)

/-- A context's bit is set in an entry's mask. -/
def State.ctxInScope (s : State) (pid c : Nat) : Bool := (vget (vget s.sec.prot pid) 4).getLsbD c

/-- GLOBAL of an entry. -/
def State.globalScope (s : State) (pid : Nat) : Bool := (vget (vget s.sec.prot pid) 4).getLsbD 16

end Sys2Proof.Machine
end

