-- ==== Sys2Proof/Machine/HostPort.lean ====
section
/-! DEFINITION. The host interface (chapter 13): doorbells, fetch, decode, resolve and arbitrate, completion records,
event records, the ends of writes, the drain of rings, and the frame that every opcode's own row goes through. -/

namespace Sys2Proof.Machine
open Sys2Proof

/-! ## Descriptors (R408, R409, R413) -/

/-- Scope classes (Table 13-4). -/
inductive OpClass where
  | u | c | g | gc | n
  deriving DecidableEq, Repr

/-- The class of an opcode; that of CAP_SET goes by its MODE. -/
def opClass (opc : Nat) (mode : Bool) : OpClass :=
  match opc with
  | 0x00 | 0x01 => .n
  | 0x09 | 0x0A | 0x0B | 0x0C | 0x0D => .c
  | 0x10 => .gc
  | 0x08 | 0x11 | 0x13 | 0x14 | 0x16 | 0x17 => .g
  | 0x0F => if mode then .g else .u
  | _ => .u

/-- The class names a context. -/
def OpClass.ctxed (x : OpClass) : Bool := x == .c || x == .gc
/-- The class needs GLOBAL. -/
def OpClass.global (x : OpClass) : Bool := x == .g || x == .gc

/-- The class of a command. -/
def Cmd.cls (c : Cmd) : OpClass := opClass c.opc (c.opnd 2 0 1 == 1)

/-- A run of `w` ones from bit `lo`. -/
def onesAt (lo w : Nat) : Nat := (2 ^ w - 1) * 2 ^ lo

/-- Bits that Table 13-5 names in words 2 to 6 of an opcode, given word 2. -/
def opMasks (opc w2 : Nat) : List Nat :=
  match opc with
  | 0x01 => [onesAt 0 1]
  | 0x02 => [onesAt 0 12]
  | 0x03 => [onesAt 0 20]
  | 0x06 => [onesAt 0 51]
  | 0x08 | 0x09 | 0x0B => [onesAt 0 48]
  | 0x0C => [onesAt 0 8]
  | 0x0E => [onesAt 0 32]
  | 0x0F => if bit w2 0 then [onesAt 0 1, onesAt 0 25, onesAt 0 63, onesAt 0 63, onesAt 0 18] else [onesAt 0 1 + onesAt 16 16]
  | 0x12 => [onesAt 0 32, onesAt 0 48]
  | 0x13 => [onesAt 0 32, onesAt 0 32]
  | 0x14 => [onesAt 0 11]
  | 0x15 => [onesAt 0 50, onesAt 0 16]
  | 0x16 => [onesAt 0 48, onesAt 0 19]
  | 0x17 => [onesAt 0 14]
  | _ => []

/-- A reserved bit is set, the opcode is unused, or UNIT or CTX is given where the class names none (R413). -/
def fmtBad (w : List Word64) : Bool :=
  let opc := fld (wordAt w 0) 0 8
  let w2 := wordAt w 2
  let cls := opClass opc (bit w2 0)
  decide (0x19 < opc) || fld (wordAt w 0) 35 29 != 0 || fld (wordAt w 1) 13 3 != 0 || fld (wordAt w 1) 29 35 != 0 ||
  (List.range 5).any (fun i =>
    (w.getD (2 + i) 0) &&& ~~~(BitVec.ofNat 64 ((opMasks opc w2).getD i 0)) != 0) ||
  (cls != .u && fld (wordAt w 0) 20 11 != 0) || (!cls.ctxed && fld (wordAt w 0) 31 4 != 0)

/-- The command a descriptor brings. -/
def cmdOf (f : Fetched) : Cmd :=
  let w0 := wordAt f.words 0
  let w1 := wordAt f.words 1
  { opc := fld w0 0 8, gen := fld w0 17 3, unit := fld w0 20 11, ctx := fld w0 31 4
    pred0 := if bit w1 12 then some (fld w1 0 12) else none
    pred1 := if bit w1 28 then some (fld w1 16 12) else none
    ops := (f.words.drop 2).take 5, cookie := f.words.getD 7 0, ring := f.ring, index := f.index, age := f.age
    stage := .decoded, parts := [], ends := [], fails := [], wait := 0, holdFor := [] }

/-! ## Drains (R403, R404, R427, Table 11-9) -/

/-- Something of command ring `k` has not ended: a fetch, a descriptor, a live command, a record without a slot. -/
def State.ringLive (s : State) (k : Nat) : Bool :=
  s.host.cmds.any (fun p => p.2.ring == k) || s.host.fetched.any (fun f => f.ring == k) ||
  s.host.reads.any (fun p => match p.2.use with
    | .desc r _ _ _ => r == k
    | _ => false) ||
  s.host.cpls.any (fun (r : CplRec) => r.ring == k) ||
  s.host.writes.any (fun p => match p.2.use with
    | .cpl q none _ => q == 16 + (vget s.host.rings k).cpl
    | _ => false)

/-- A ring falls off. -/
def State.ringOff (k : Nat) (s : State) : State :=
  { s with host := { s.host with rings := vmod s.host.rings k (fun r => { r with on := false, dis := false }) } }

/-- A ring with a disable written has drained. -/
def State.ringDrained (s : State) (k : Nat) : Bool :=
  let r := vget s.host.rings k
  r.on && r.dis &&
    (if k < 16 then !s.ringLive k
     else if k < 32 then
       (List.range 16).all (fun j => let x := vget s.host.rings j; !(x.on && 16 + x.cpl == k)) && r.acked == r.prod
     else
       s.host.buf.all (fun e => 32 + e.ring != k) && s.host.ovf.toList.all (fun l => l.all (fun e => 32 + e.ring != k)) && s.host.held.all (fun e => 32 + e.ring != k) &&
       (vget s.host.lost (k - 32)).count == 0 && r.acked == r.prod)

/-- Rings that have drained fall off: command rings first, then the completion rings they name, then event rings. -/
def State.settleRings (s : State) : State :=
  each (List.range 36) (fun k s => if s.ringDrained k then s.ringOff k else s) s

/-- A record of a host functional reset is still to be written (R367 step 7): a completion, or a retake notice. -/
def State.resetBusy (s : State) : Bool :=
  (List.range 32).any (fun k => (vget s.host.rings k).on) || !s.host.cmds.isEmpty || !s.host.fetched.isEmpty ||
  !s.host.cpls.isEmpty ||
  s.host.reads.any (fun p => match p.2.use with
    | .desc _ _ _ _ => true
    | _ => false) ||
  s.ctx.toList.any (fun c => c.played.any (fun p => p.notice == .waiting))

/-- A host functional reset ends once ZN_HRST_N is high and its records have been written (R367 step 7); in service
ZN_RDY rises with its end. -/
def State.settleReset (s : State) : State :=
  if s.host.reset && s.pins.hrstN && !s.resetBusy then
    { s with
      host := { s.host with reset := false }, pins := { s.pins with rdy := s.pins.rdy || (s.mayBeReady && s.boot.step == 9) } }
  else s

/-- Drains looked at after a change. -/
def State.settleHost (s : State) : State := s.settleRings.settleReset

/-! ## Doorbells (R405 to R407, R425) -/

/-- A doorbell is refused. -/
def State.dbRefuse (s : State) : State := { s with host := { s.host with dbBad := satInc 8 s.host.dbBad } }

/-- A new host-side index is admissible (R406): it does not move backward, and the ring is neither over-full nor
over-consumed. -/
def Ring.admits (r : Ring) (cmdRing : Bool) (v : BitVec 32) : Bool :=
  if cmdRing then decide ((r.prod - r.cons).toNat ≤ (v - r.cons).toNat) && decide ((v - r.cons).toNat ≤ 2 ^ r.log2n)
  else decide ((v - r.cons).toNat ≤ (r.acked - r.cons).toNat)

/-- DOORBELL: a write to the doorbell page. -/
def execDoorbell (off : BitVec 12) (data : Word64) (be : BitVec 8) (s : State) : Host.Outcome State Fault Refusal :=
  .next (
    let k := off.toNat / 8
    let low := fld be.toNat 0 4
    if !s.accessible || off.toNat % 8 != 0 || decide (36 ≤ k) || low == 0 then s
    else if !s.pins.rdy then { s with host := { s.host with dbDrop := satInc 8 s.host.dbDrop } }
    else
      let s := s.wakeGaf
      let r := vget s.host.rings k
      let v : BitVec 32 := data.setWidth 32
      let open_ := r.on && (decide (16 ≤ k) || !r.dis) && r.disAt != some s.elapsed
      if low != 15 || !open_ || !r.admits (decide (k < 16)) v then s.dbRefuse
      else if k < 16 then
        { s with host := { s.host with rings := vset s.host.rings k { r with prod := v, db := some (s.elapsed, r.prod) } } }
      else { s with host := { s.host with rings := vset s.host.rings k { r with cons := v, db := some (s.elapsed, r.cons) } } })

/-! ## Fetch and decode (R412, R413) -/

/-- Descriptors that a fetch from ring `k` would read now: at most 4, those available, up to the ring's end; none when
the ring fetches nothing. -/
def State.fetchN (s : State) (k : Nat) : Nat :=
  let r := vget s.host.rings k
  let live := (s.host.cmds.filter (fun p => p.2.ring == k)).length
  if !r.on || r.dis || decide (r.slotCnt ≤ live) then 0
  else min (min 4 (r.prod - r.issued).toNat) (2 ^ r.log2n - r.issued.toNat % 2 ^ r.log2n)

/-- DESCRIPTOR_FETCH: the next ring in turn with descriptors to read is read. -/
def execDescriptorFetch (s : State) : Host.Outcome State Fault Refusal :=
  .next (
    if !s.accessible || !s.pins.rdy || s.flt.fatal || s.gafClock != .running || s.host.reset then s
    else
      match ((List.range 16).map (fun j => (s.host.rr + j) % 16)).find? (fun k => decide (0 < s.fetchN k)) with
      | none => s
      | some k =>
        let r := vget s.host.rings k
        let n := s.fetchN k
        let s := { s with host := { s.host with
          rr := (k + 1) % 16, ages := s.host.ages + n
          rings := vset s.host.rings k { r with issued := r.issued + BitVec.ofNat 32 n } } }
        s.startRead (r.base + 64 * (r.issued.toNat % 2 ^ r.log2n)) (64 * n) (.desc k r.issued n (s.host.ages - n)) r.pid)

/-- The fetched descriptor that decode takes next: the oldest of those whose ring has no older one outstanding. -/
def State.nextFetched (s : State) : Option Fetched :=
  let ok := fun (f : Fetched) =>
    s.host.reads.all (fun p => match p.2.use with
      | .desc r _ _ a => !(r == f.ring && decide (a < f.age))
      | _ => true) &&
    s.host.fetched.all (fun g => !(g.ring == f.ring && decide (g.age < f.age)))
  (sortBy (fun a b => decide (a.age < b.age)) (s.host.fetched.filter ok)).head?

/-- A descriptor ends without a slot (R413 checks 1 and 2). -/
def State.noSlot (f : Fetched) (st : Status) (s : State) : State :=
  let c := cmdOf f
  let r : CplRec := if f.poison then
      { ring := f.ring, slot := none, tag := 0, status := st, opc := 0, index := f.index, result := 0, time := s.elapsed,
        cookie := 0, after := [] }
    else
      { ring := f.ring, slot := none, tag := c.gen * 512 + fld (wordAt f.words 0) 8 9, status := st, opc := c.opc,
        index := f.index, result := 0, time := s.elapsed, cookie := c.cookie, after := [] }
  { s with host := { s.host with cpls := s.host.cpls ++ [r] } }

/-- DESCRIPTOR_DECODE: the next fetched descriptor is checked and takes its slot. One whose ring is being disabled, or
that a host functional reset finds, ends in its slot. -/
def execDescriptorDecode (s : State) : Host.Outcome State Fault Refusal :=
  .next (
    if !s.accessible || s.flt.fatal || s.gafClock != .running then s
    else match s.nextFetched with
      | none => s
      | some f =>
        let s := { s with host := { s.host with fetched := s.host.fetched.filter (fun g => !(g.age == f.age)) } }
        let r := vget s.host.rings f.ring
        let c := cmdOf f
        let slot := fld (wordAt f.words 0) 8 9
        if f.poison then s.noSlot f .poisoned
        else if slot < r.slotBase || r.slotBase + r.slotCnt ≤ slot || (s.cmd? slot).isSome ||
            c.gen != Tab.getN s.host.gens slot then s.noSlot f .rejectedFormat
        else
          let s := { s with host := { s.host with cmds := Tab.put s.host.cmds slot c } }
          if s.host.reset then s.complete slot .abortedReset 0
          else if r.dis then s.complete slot .abortedDisabled 0
          else if fmtBad f.words then s.complete slot .rejectedFormat 0
          else s)

/-! ## Validate: the frame of every opcode's row (R16, R418, R508) -/

/-- A command lies in its ring's scope (R418). -/
def State.inScope (s : State) (c : Cmd) : Bool :=
  let pid := (vget s.host.rings c.ring).pid
  match c.cls with
  | .u => s.unitInScope pid c.unit
  | .c => s.ctxInScope pid c.ctx
  | .g => s.globalScope pid
  | .gc => s.globalScope pid && s.ctxInScope pid c.ctx
  | .n => true

/-- A command falls outside its scope: DONE with RESULT 0, and a violation of its ring's ID (R418, R476). -/
def State.outOfScope (slot kind : Nat) (c : Cmd) (s : State) : State :=
  (s.violation (vget s.host.rings c.ring).pid kind).complete slot .done 0

/-- The row of opcode `opc` at the command in `slot`. In the validate stage the scope is checked, then the ranges of
Table 13-5 (`limits`), then the command's own checks (`check`, a status and RESULT when one fails), and the command goes
on to resolve. Once arbitrate has chosen it, `go` dispatches it. At any other time nothing happens. -/
def State.opRow (slot opc : Nat) (limits : Cmd → Bool) (check : Cmd → State → Option (Status × Nat))
    (go : Cmd → State → State) (s : State) : State :=
  match s.cmd? slot with
  | none => s
  | some c =>
    if c.opc != opc || s.flt.fatal || !s.accessible || s.gafClock != .running then s
    else match c.stage with
      | .decoded =>
        let s := s.memRead 9 0 (some (32 + 4 * (vget s.host.rings c.ring).pid))
        if !s.inScope c then s.outOfScope slot 2 c
        else if !limits c then s.complete slot .rejectedLimit 0
        else match check c s with
          | some (st, res) => s.complete slot st res
          | none => s.modCmd slot (fun x => { x with stage := .held })
      | .selected =>
        go c (s.modCmd slot (fun x => { x with stage := .dispatched }))
      | _ => s

/-! ## Resolve and arbitrate (R414, R415) -/

/-- A command has not been dispatched. -/
def Stage.early : Stage → Bool
  | .decoded | .held | .selected => true
  | _ => false

/-- A predecessor tag is satisfied for the command of age `age` in `slot` (R414). -/
def State.predDone (s : State) (slot age : Nat) (t : Option Nat) : Bool :=
  match t with
  | none => true
  | some t =>
    match s.cmd? (t % 512) with
    | none => true
    | some o => t % 512 == slot || o.gen != t / 512 || decide (age < o.age) || o.stage == .complete

/-- Fetches and descriptors older than `age` have not been decoded, of one ring or of all. -/
def State.olderUndecoded (s : State) (age : Nat) (ring : Option Nat) : Bool :=
  let of_ := fun (r : Nat) => match ring with
    | some k => r == k
    | none => true
  s.host.fetched.any (fun f => of_ f.ring && decide (f.age < age)) ||
  s.host.reads.any (fun p => match p.2.use with
    | .desc r _ _ a => of_ r && decide (a < age)
    | _ => false)

/-- The command waits in resolve (R414). -/
def State.waitsResolve (s : State) (slot : Nat) (c : Cmd) : Bool :=
  !s.predDone slot c.age c.pred0 || !s.predDone slot c.age c.pred1 ||
  s.host.cmds.any (fun p => decide (p.2.age < c.age) && p.2.stage != .complete &&
    ((c.opc == 0x01 && (p.2.ring == c.ring || c.opnd 2 0 1 == 1)) || (p.2.opc == 0x01 && p.2.ring == c.ring))) ||
  (c.opc == 0x01 && s.olderUndecoded c.age (if c.opnd 2 0 1 == 1 then none else some c.ring))

/-- Bank commands conflict when they reach one cluster (02 R50). -/
def bankOp (opc : Nat) : Bool := opc == 0x06 || opc == 0x07

/-- Two U-class commands conflict (02 R50). -/
def State.uConflict (s : State) (a b : Cmd) : Bool :=
  s.sheet.overlap a.unit b.unit ||
  (bankOp a.opc && bankOp b.opc && (s.sheet.subClus a.unit).any (fun n => (s.sheet.subClus b.unit).contains n))

/-- Opcodes whose completion a younger conflicting command waits for (R415). -/
def waitDone (opc : Nat) : Bool := [0x04, 0x05, 0x06, 0x07, 0x0E, 0x0F, 0x12, 0x19].contains opc

/-- Command `c` waits in arbitrate for the older command `o`, which has not completed (R415). -/
def State.waitsFor (s : State) (c o : Cmd) : Bool :=
  let u := c.cls == .u && o.cls == .u && c.opc != 0x18 && s.uConflict c o && (o.stage.early || waitDone o.opc)
  let early := c.opc == 0x0B || ((c.opc == 0x0A || c.opc == 0x0D) && o.opc == 0x0B)
  let x := c.cls.ctxed && o.cls.ctxed && c.ctx == o.ctx && (o.stage.early || !early)
  let g := c.cls.global && o.cls.global
  u || x || g

/-- Older commands that the command aborts as it comes to arbitrate (R369, R370, R415): UNIT_DISABLE those it conflicts
with; CONTEXT_CLOSE and PLAN_DISARM those of the context that wait in resolve. -/
def State.abortsOf (s : State) (c : Cmd) : List Nat :=
  (s.host.cmds.filter (fun p =>
    let o := p.2
    decide (o.age < c.age) && o.stage.early &&
      (if c.opc == 0x18 then o.cls == .u && s.uConflict c o
       else if c.opc == 0x0A || c.opc == 0x0D then
         o.cls.ctxed && o.ctx == c.ctx && o.stage == .held && s.waitsResolve p.1 o && (c.opc == 0x0A || o.opc == 0x0B)
       else false))).map (fun p => p.1)

/-- COMMAND_DISPATCH: a validated command leaves resolve and arbitrate; its own row then dispatches it. -/
def execCommandDispatch (slot : Slot) (s : State) : Host.Outcome State Fault Refusal :=
  .next (match s.cmd? slot with
    | none => s
    | some c =>
      if c.stage != .held || s.flt.fatal || !s.accessible || s.gafClock != .running || s.waitsResolve slot c then s
      else
        let ks := s.abortsOf c
        let tags := ks.filterMap (fun k => (s.cmd? k).map (fun o => o.gen * 512 + k))
        let s := each ks (fun k s => s.complete k .abortedDisabled 0) s
        let s := s.modCmd slot (fun x => { x with holdFor := x.holdFor ++ tags })
        if s.host.cmds.any (fun p => decide (p.2.age < c.age) && p.2.stage != .complete && s.waitsFor c p.2) then s
        else s.modCmd slot (fun x => { x with stage := .selected }))

/-! ## Completion records (R411, R416, R417) -/

/-- The words of a completion record (Table 13-6). -/
def CplRec.words (r : CplRec) : List Word64 :=
  [BitVec.ofNat 64 (pack [(12, r.tag), (4, r.status.code), (8, r.opc), (4, r.ring), (1, b2n r.slot.isNone), (3, 0),
    (32, r.index.toNat)]), r.result, BitVec.ofNat 64 r.time, r.cookie]

/-- A record waits for those of other tags (R416). -/
def State.cplHeld (s : State) (r : CplRec) : Bool :=
  r.after.any (fun t =>
    match s.cmd? (t % 512) with
    | some o => o.gen == t / 512 && (o.stage != .complete || s.host.cpls.any (fun x => x.slot == some (t % 512)))
    | none => false)

/-- Order of two records of one ring: entry into the complete stage, then slot. -/
def CplRec.before (a b : CplRec) : Bool :=
  decide (a.time < b.time) || (a.time == b.time && decide (a.slot.getD 512 < b.slot.getD 512))

/-- COMPLETION_RECORD: the next record of completion ring `q` is written when the ring has room. -/
def execCompletionRecord (q : Fin 16) (s : State) : Host.Outcome State Fault Refusal :=
  .next (
    let k := 16 + q.val
    let r := vget s.host.rings k
    let mine := s.host.cpls.filter (fun x => (vget s.host.rings x.ring).cpl == q.val && !s.cplHeld x)
    if !s.accessible || s.flt.fatal || !r.on || r.full || s.gafClock != .running then s
    else match (sortBy CplRec.before mine).head? with
      | none => s
      | some x =>
        let s := { s with host := { s.host with
          cpls := s.host.cpls.erase x
          rings := vset s.host.rings k { r with prod := r.prod + 1 } } }
        s.startWrite (r.base + 32 * (r.prod.toNat % 2 ^ r.log2n)) x.words (.cpl k x.slot r.prod))

/-! ## Event records (R423, R424) -/

/-- The words of a LOST record (Table 13-8). -/
def LostPlace.words (l : LostPlace) : List Word64 :=
  [BitVec.ofNat 64 (0x20 + 2 ^ 32 * l.count), BitVec.ofNat 64 l.first, BitVec.ofNat 64 l.last, 0]

/-- The words of a LOST record, by their KIND (13 R424). -/
def lostWords (w : List Word64) : Bool := fld (wordAt w 0) 0 8 == 0x20

/-- EVENT_RECORD_WRITE: the next record of event ring `j` is written when the ring has room: a LOST record first, else the
oldest that waits. -/
def execEventRecordWrite (j : Fin 4) (s : State) : Host.Outcome State Fault Refusal :=
  .next (
    let k := 32 + j.val
    let r := vget s.host.rings k
    let l := vget s.host.lost j
    if !s.accessible || s.flt.fatal || !r.on || r.full || s.gafClock != .running then s
    else
      let rings := vset s.host.rings k { r with prod := r.prod + 1 }
      let at_ := r.base + 32 * (r.prod.toNat % 2 ^ r.log2n)
      if l.count != 0 then
        ({ s with host := { s.host with rings, lost := vset s.host.lost j {} } } : State).startWrite at_ l.words
          (.event k r.prod none)
      else match s.host.buf.find? (fun e => e.ring == j.val) with
        | none => s
        | some e =>
          let s := { s with host := { s.host with rings, buf := s.host.buf.erase e } }
          (s.refillBuf 1).startWrite at_ e.words (.event k r.prod e.notice))

/-! ## Ends of writes (R32, R398, R403) -/

/-- A ring's acknowledged producer index after a record's acknowledgement: up to its oldest write outstanding. -/
def State.ackedIdx (s : State) (k : Nat) : BitVec 32 :=
  let r := vget s.host.rings k
  let out := s.host.writes.filterMap (fun p => match p.2.use with
    | .cpl q _ i => if q == k then some (i - r.acked).toNat else none
    | .event q i _ => if q == k then some (i - r.acked).toNat else none
    | _ => none)
  match out with
  | [] => r.prod
  | x :: t => r.acked + BitVec.ofNat 32 (t.foldl min x)

/-- The index word after an acknowledgement, when the index has moved (R403). -/
def State.ackRing (k : Nat) (s : State) : State :=
  let v := s.ackedIdx k
  if v == (vget s.host.rings k).acked then s
  else
    let s := ({ s with host := { s.host with rings := vmod s.host.rings k (fun r => { r with acked := v }) } } : State).writeIndex k v
    -- the producer index of a completion or event ring advances (14 Table 14-4)
    if k < 16 then s else s.fire (k - 16)

/-- A slot returns to the free set and its generation advances (R32); transfers of its command are of no more use. -/
def State.freeSlot (slot : Nat) (s : State) : State :=
  let rd := fun (u : RdUse) => match u with
    | .bank q | .csh (some q) | .cshBank (some q) _ | .ctx q | .pred q _ | .reel q | .verdict q => if q == slot then .drop else u
    | _ => u
  let wr := fun (u : WrUse) => match u with
    | .data q _ | .verdict q _ => if q == slot then .drop else u
    | _ => u
  { s with host := { s.host with
    cmds := Tab.del s.host.cmds slot
    gens := Tab.putN s.host.gens slot ((Tab.getN s.host.gens slot + 1) % 8)
    reads := s.host.reads.map (fun p => (p.1, { p.2 with use := rd p.2.use }))
    writes := s.host.writes.map (fun p => (p.1, { p.2 with use := wr p.2.use })) } }

/-- A record or word has been acknowledged without ERR. -/
def State.writeDone (use : WrUse) (s : State) : State :=
  match use with
  | .cpl k slot _ =>
    let s := match slot with
      | some i => s.freeSlot i
      | none => s
    (s.ackRing k).settleHost
  | .event k _ n => ((s.noticeAcked n).ackRing k).settleHost
  | .data slot _ =>
    let more := s.host.writes.any (fun p => match p.2.use with
      | .data q _ => q == slot
      | _ => false)
    match s.cmd? slot with
    | some c => if more || c.stage != .dispatched then s else s.complete slot .done c.wait
    | none => s
  | .verdict slot last => s.probeAcked slot last
  | .index _ | .wm _ | .drop => s

/-- WRITE_ACKNOWLEDGE: MWA for a write; ERR schedules its next issue, and the 16th failure is FATAL. -/
def execWriteAcknowledge (pid : PortId) (err : Bool) (s : State) : Host.Outcome State Fault Refusal :=
  .next (
    if !s.accessible then s
    else match Tab.get? s.host.writes pid with
    | none => s
    | some w =>
      if w.retryAt.isSome then s
      else if !err then (s.endWrite pid).writeDone w.use
      -- in the fatal state no record is issued again (R426)
      else if s.flt.fatal && w.use.record then
        let s := s.endWrite pid
        match w.use with
        | .event _ _ n => if lostWords w.words then s
          else { s with host := { s.host with lostCnt := satInc 12 s.host.lostCnt } }.noticeLost n
        | _ => s
      else if 16 ≤ w.issues then
        let s := s.endWrite pid
        let s := match w.use with
          | .event k _ n => if lostWords w.words then s else s.evLost (k - 32) n
          | _ => s
        s.raiseAcc 0x048 (.unit 0) 0 w.addr w.src 2 false
      else
        { s with host := { s.host with writes := Tab.put s.host.writes pid { w with retryAt := some (s.elapsed + 1000) } } })

/-- WRITE_REISSUE: 1 us after the ERR the write is issued again and counted. -/
def execWriteReissue (pid : PortId) (s : State) : Host.Outcome State Fault Refusal :=
  .next (match Tab.get? s.host.writes pid with
    | none => s
    | some w =>
      match w.retryAt with
      | none => s
      | some t =>
        let s := s.advanceTo t
        ({ s with host := { s.host with
            portErr := satInc 5 s.host.portErr
            writes := Tab.put s.host.writes pid { w with issues := w.issues + 1, retryAt := none } } } : State).put
          (memWriteOut pid w))

/-! ## Enabling and disabling rings (R401, R404) -/

/-- An enable is written for ring `k`: its entry is read. -/
def State.ringArm (k : Nat) (s : State) : State :=
  let r := vget s.host.rings k
  if r.on || r.arming then s
  else ({ s with host := { s.host with rings := vset s.host.rings k { r with arming := true } } } : State).startRead
    (s.host.tbl + 32 * k) 32 (.ringEntry k) ownSrc

/-- A doorbell of the same cycle is refused after all (R407), when nothing has been fetched by it, or no record has been
written in the room that it gave. -/
def Ring.undo (now : Nat) (cmdRing : Bool) (r : Ring) : Option Ring :=
  match r.db with
  | none => none
  | some (t, old) =>
    if t != now then none
    else if cmdRing then
      (if (r.issued - r.cons).toNat ≤ (old - r.cons).toNat then some { r with prod := old, db := none } else none)
    else if (r.prod - old).toNat ≤ 2 ^ r.log2n then some { r with cons := old, db := none } else none

/-- A disable is written for ring `k` (Table 11-9). -/
def State.ringDown (k : Nat) (s : State) : State :=
  let r := vget s.host.rings k
  if !r.on then { s with host := { s.host with rings := vset s.host.rings k { r with arming := false } } }
  else if r.dis then s
  else
    let s := match r.undo s.elapsed (decide (k < 16)) with
      | some r' => ({ s with host := { s.host with rings := vset s.host.rings k r' } } : State).dbRefuse
      | none => s
    let s := { s with host := { s.host with rings := vmod s.host.rings k (fun x => { x with dis := true, disAt := some s.elapsed }) } }
    let ks := (s.host.cmds.filter (fun p => p.2.ring == k && p.2.stage.early)).map (fun p => p.1)
    if k < 16 then each ks (fun q s => s.complete q .abortedDisabled 0) s else s

/-- Rings `lo + i` are enabled for every bit `i` set below `n`. -/
def State.ringsArm (lo n v : Nat) (s : State) : State := each ((bitsIn n v).map (fun j => lo + j)) State.ringArm s

/-- Rings `lo + i` are disabled for every bit `i` set below `n`. -/
def State.ringsDown (lo n v : Nat) (s : State) : State :=
  (each ((bitsIn n v).map (fun j => lo + j)) State.ringDown s).settleHost

/-- RING_ENABLE: GAF_RING_EN. -/
def execRingEnable (id : AccId) (v : Word32) (be : BitVec 4) (s : State) : Host.Outcome State Fault Refusal :=
  .next (s.regWrite (.ringEnable id v be) id 0x00108 (fun _ s => s.ringsArm 0 32 (enBits v be)))

/-- RING_DISABLE: GAF_RING_DIS. -/
def execRingDisable (id : AccId) (v : Word32) (be : BitVec 4) (s : State) : Host.Outcome State Fault Refusal :=
  .next (s.regWrite (.ringDisable id v be) id 0x0010C (fun _ s => s.ringsDown 0 32 (enBits v be)))

/-- EVENT_RING_ENABLE: GAF_EVR_CTRL.EN. -/
def execEventRingEnable (id : AccId) (v : Word32) (be : BitVec 4) (s : State) : Host.Outcome State Fault Refusal :=
  .next (s.regWrite (.eventRingEnable id v be) id 0x00110 (fun _ s => s.ringsArm 32 4 (enBits v be)))

/-- EVENT_RING_DISABLE: GAF_EVR_CTRL.DIS. -/
def execEventRingDisable (id : AccId) (v : Word32) (be : BitVec 4) (s : State) : Host.Outcome State Fault Refusal :=
  .next (s.regWrite (.eventRingDisable id v be) id 0x00110 (fun _ s => s.ringsDown 32 4 (fld (enBits v be) 4 4)))

/-- A ring table entry's first failing check (R401), 0 when it passes. -/
def State.ringCheck (k : Nat) (w : List Word64) (poison : Bool) (s : State) : Nat :=
  let w0 := wordAt w 0
  let w1 := wordAt w 1
  let w2 := wordAt w 2
  let base := fld w2 8 9
  let cnt := fld w2 17 10
  let overlaps := (List.range 16).any (fun j =>
    let o := vget s.host.rings j
    o.on && j != k && decide (base < o.slotBase + o.slotCnt) && decide (o.slotBase < base + cnt))
  let named := if k < 16 then onesAt 0 27 else if k < 32 then 0 else onesAt 0 2 + onesAt 16 16
  if !inR 6 16 (fld w0 48 5) then 1
  else if fld w0 0 12 != 0 || fld w1 0 3 != 0 then 2
  else if decide (k < 16) && (cnt == 0 || decide (512 < base + cnt) || overlaps) then 3
  else if decide (k < 16) && !(vget s.host.rings (16 + fld w2 4 4)).on then 4
  else if fld w0 53 11 != 0 || fld w1 48 16 != 0 || (w.getD 2 0) &&& ~~~(BitVec.ofNat 64 named) != 0 || wordAt w 3 != 0 then 5
  else if poison then 6
  else 0

/-- A ring table entry has been read: the ring is enabled with both indices 0, or refused with its code. -/
def State.ringEntered (k : Nat) (w : List Word64) (poison : Bool) (s : State) : State :=
  let r := vget s.host.rings k
  if !r.arming then s
  else
    match s.ringCheck k w poison with
    | 0 =>
      let w2 := wordAt w 2
      let x : Ring := { on := true, base := fld (wordAt w 0) 0 48, log2n := fld (wordAt w 0) 48 5
                        idxAddr := fld (wordAt w 1) 0 48, pid := fld w2 0 4, cpl := fld w2 4 4, slotBase := fld w2 8 9
                        slotCnt := fld w2 17 10, tf := bit w2 0, tr := bit w2 1, ctxMask := BitVec.ofNat 16 (fld w2 16 16) }
      { s with host := { s.host with rings := vset s.host.rings k x } }
    | code => { s with host := { s.host with
        rings := vset s.host.rings k { r with arming := false }, errRing := k, errCode := code } }

end Sys2Proof.Machine
end

