-- ==== Sys2Proof/Machine/CmdUnits.lean ====
section
/-! DEFINITION. Commands addressed to units: set-points (04 R126, R513), domain switching (11 R357, R361), coefficient
banks (04 R136 to R138), credits and caps (07 R245, 10 R331), UNIT_DISABLE and UNIT_ENABLE (11 R369 to R372, 03 R93),
and TELEMETRY_READ (13 R410). NOP and FENCE stand here too. -/

namespace Sys2Proof.Machine
open Sys2Proof

/-! ## NOP and FENCE -/

/-- No range to keep. -/
def anyOp (_ : Cmd) : Bool := true
/-- No check of its own. -/
def noCheck (_ : Cmd) (_ : State) : Option (Status × Nat) := none

/-- NOP: DONE with RESULT 0 at the validate stage (13 R419). -/
def execNop (slot : Slot) (s : State) : Host.Outcome State Fault Refusal :=
  .next (s.opRow slot 0x00 anyOp (fun _ _ => some (.done, 0)) (fun _ s => s.complete slot .done 0))

/-- FENCE: it has waited in resolve (13 R414); dispatched, it is DONE. -/
def execFence (slot : Slot) (s : State) : Host.Outcome State Fault Refusal :=
  .next (s.opRow slot 0x01 anyOp noCheck (fun _ s => s.complete slot .done 0))

/-! ## Levels (02 R48, R49, R514) -/

/-- A unit is a domain or a group. -/
def isDg (u : Nat) : Bool :=
  match uKind u with
  | .domain _ | .group _ => true
  | _ => false

/-- REJECTED_STATE with RESULT 0. -/
def badState : Option (Status × Nat) := some (.rejectedState, 0)

/-- A domain or group, not the AON domain, and then a check of each domain it reaches in address order. -/
def State.dgCheck (u : Nat) (f : Nat → Option (Status × Nat)) (s : State) : Option (Status × Nat) :=
  if !isDg u || s.atAon u then badState else (s.sheet.reach u).findSome? f

/-- A cluster that serves domain `d` is in reset: an operation sent to it ends ABORTED_RESET (11 R368). -/
def State.domInReset (s : State) (d : Nat) : Bool := (s.sheet.domHalves d).any (fun p => (s.cl p.1).inReset.isSome)

/-- The clusters of domain `d` woken for an operation sent to them. -/
def State.wakeDom (d : Nat) (s : State) : State := each (s.sheet.domHalves d) (fun p s => s.wakeClu p.1) s

/-- A command with one part for each of some domains: `f` sends its operation to a domain. Without a domain it is
done. -/
def State.perDomain (slot : Nat) (ds : List Nat) (f : Nat → State → State) (s : State) : State :=
  if ds.isEmpty then s.complete slot .done 0
  else
    each ds (fun d s => if s.domInReset d then s.endPart slot d .abortedReset else f d (s.wakeDom d))
      (s.modCmd slot (fun c => { c with parts := ds }))

/-! ## Set-points -/

/-- The code of a set-point command against Table 1-2 and each domain's limits; RESULT names the failing domain. -/
def codeCheck (c : Cmd) (s : State) : Option (Status × Nat) :=
  s.dgCheck c.unit (fun d =>
    let x := c.opnd 2 0 12
    match s.sheet.domRec d with
    | some r => if inR 600 3800 x && inR r.vmin r.vmax x then none else some (.rejectedLimit, uDom d * 2 ^ 32)
    | none => none)

/-- A set-point command sent to its domains at a rate. -/
def State.setPoint (slot code rate : Nat) (c : Cmd) (s : State) : State :=
  s.perDomain slot (s.sheet.reach c.unit) (fun d s => s.placeDom d { tgt := code, rate, cmd := some slot, shot := false })

/-- SET_TARGET: a ramp at SLEW_DEF. -/
def execSetTarget (slot : Slot) (s : State) : Host.Outcome State Fault Refusal :=
  .next (s.opRow slot 0x02 anyOp codeCheck (fun c s => s.setPoint slot (c.opnd 2 0 12) s.sheet.s2.slewDef c))

/-- RAMP: a ramp at the rate it carries, 1 to 200. -/
def execRamp (slot : Slot) (s : State) : Host.Outcome State Fault Refusal :=
  .next (s.opRow slot 0x03 (fun c => inR 1 200 (c.opnd 2 12 8)) codeCheck
    (fun c s => s.setPoint slot (c.opnd 2 0 12) (c.opnd 2 12 8) c))

/-! ## Domain switching -/

/-- DOMAIN_ON is refused: the domain is on, disabled or held for temperature, or the VIN reason is set (11 R357). -/
def onCheck (c : Cmd) (s : State) : Option (Status × Nat) :=
  s.dgCheck c.unit (fun d => if s.isOn d || (s.dm d).disabled || s.coldHeld d || s.vin.dip then badState else none)

/-- DOMAIN_OFF is refused: the domain is off, or an ARMED or COASTING context owns it (11 R361). -/
def offCheck (c : Cmd) (s : State) : Option (Status × Nat) :=
  s.dgCheck c.unit (fun d =>
    let planned := match s.owner d with
      | some x => (s.cx x).st == .armed || (s.cx x).st == .coasting
      | none => false
    if !s.isOn d || planned then badState else none)

/-- DOMAIN_ON: judged once more at dispatch, then each domain's cells start and its stages follow. -/
def execDomainOn (slot : Slot) (s : State) : Host.Outcome State Fault Refusal :=
  .next (s.opRow slot 0x04 anyOp onCheck (fun c s =>
    match onCheck c s with
    | some r => s.complete slot r.1 r.2
    | none => s.perDomain slot (s.sheet.reach c.unit) (fun d s => s.startDomain d (some slot))))

/-- DOMAIN_OFF: judged once more at dispatch, then each domain's stages open. -/
def execDomainOff (slot : Slot) (s : State) : Host.Outcome State Fault Refusal :=
  .next (s.opRow slot 0x05 anyOp offCheck (fun c s =>
    match offCheck c s with
    | some r => s.complete slot r.1 r.2
    | none => s.perDomain slot (s.sheet.reach c.unit) (fun d s => s.startOff d slot)))

/-! ## Coefficient banks -/

/-- The clusters that a bank command reaches: those that hold a cell of a domain it reaches (04 R136). -/
def CallSheet.bankClus (cs : CallSheet) (u : Nat) : List Nat :=
  match uKind u with
  | .cluster n => if (cs.cluRec n).isSome then [n] else []
  | _ => cs.cluIxs.filter (fun n => (cs.reach u).any (fun d => (cs.domCells d).any (fun p => p.1 == n)))

/-- A bank command is accepted at a cluster, a domain or a group. -/
def bankLevel (c : Cmd) (_ : State) : Option (Status × Nat) :=
  match uKind c.unit with
  | .cluster _ | .domain _ | .group _ => none
  | _ => badState

/-- RESULT of a bank command: the first failing cluster (13 Table 13-5). -/
def bankResult (n : Nat) : Nat := n * 2 ^ 8

/-- A load begins in cluster `n`: LOAD_BUSY, the inactive bank no longer valid (R137). -/
def State.loadBegin (n : Nat) (s : State) : State :=
  (s.wakeClu n).modCl n (fun c => { c with ctl :=
    { (c.ctl.setInactive { c.ctl.inactive with valid := false }) with loadBusy := true } })

/-- A LOAD_BANK is dispatched: refused where a swap is deferred or the archive cannot be reached, else sent to every
cluster it reaches; a host image is read once. -/
def State.loadBank (slot : Nat) (c : Cmd) (s : State) : State :=
  let src := c.opnd 2 48 3
  let ns := s.sheet.bankClus c.unit
  let bad := fun (n : Nat) => (s.cl n).ctl.swap.isSome || (src != 0 && (s.chan n).st == 3)
  match ns.find? bad with
  | some n => s.complete slot .rejectedState (bankResult n)
  | none =>
    if ns.isEmpty then s.complete slot .done 0
    else
      let s := s.modCmd slot (fun x => { x with parts := ns })
      let s := each ns (fun n s =>
        if (s.cl n).inReset.isSome then s.endPart slot n .abortedReset
        else
          let s := s.loadBegin n
          if src == 0 then s else s.modChan n (fun x => { x with jobs := x.jobs ++ [.arch slot (src - 1)] })) s
      match s.cmd? slot with
      | some x =>
        if src == 0 && x.stage == .dispatched then
          s.startRead (c.opnd 2 0 48) 8192 (.bank slot) (vget s.host.rings c.ring).pid
        else s
      | none => s

/-- LOAD_BANK. -/
def execLoadBank (slot : Slot) (s : State) : Host.Outcome State Fault Refusal :=
  .next (s.opRow slot 0x06 (fun c => c.opnd 2 0 6 == 0 && decide (c.opnd 2 48 3 ≤ 4)) bankLevel (fun c s => s.loadBank slot c))

/-- Every domain that cluster `n` serves is off. -/
def State.cluOff (s : State) (n : Nat) : Bool :=
  (s.sheet.cluHalves n).all (fun p => !s.isOn p.2 && !(s.dm p.2).on)

/-- A swap is illegal in cluster `n` (R138). -/
def State.swapBad (s : State) (n : Nat) : Bool :=
  let b := (s.cl n).ctl.inactive
  let f := s.sheet.s1.fsw
  !b.valid || decide (f < b.fswLo) || decide (b.fswHi < f) || (b.cls != (s.cl n).ctl.active.cls && !s.cluOff n)

/-- SWAP_BANK: legal in every cluster it reaches, it is deferred in each (R138, R139). -/
def execSwapBank (slot : Slot) (s : State) : Host.Outcome State Fault Refusal :=
  .next (s.opRow slot 0x07 anyOp bankLevel (fun c s =>
    let ns := s.sheet.bankClus c.unit
    match ns.find? s.swapBad with
    | some n => s.complete slot .rejectedState (bankResult n)
    | none =>
      if ns.isEmpty then s.complete slot .done 0
      else
        let by_ := s.elapsed + 1000 * s.sheet.s2.swapTo
        each ns (fun n s =>
          if (s.cl n).inReset.isSome then s.endPart slot n .abortedReset
          else (s.wakeClu n).modCl n (fun c => { c with ctl := { c.ctl with swap := some (slot, by_) } }))
          (s.modCmd slot (fun x => { x with parts := ns }))))

/-! ## Credits and caps -/

/-- CREDIT_CONFIG is refused: a wrong level, or an ILIM above the present CAPACITY (07 R245). -/
def creditCheck (c : Cmd) (s : State) : Option (Status × Nat) :=
  s.dgCheck c.unit (fun d => if s.domCap d < c.opnd 2 0 16 then some (.rejectedLimit, 0) else none)

/-- CREDIT_CONFIG: it waits for the first broadcast after dispatch. -/
def execCreditConfig (slot : Slot) (s : State) : Host.Outcome State Fault Refusal :=
  .next (s.opRow slot 0x0E anyOp creditCheck (fun c s =>
    let ds := s.sheet.reach c.unit
    if ds.isEmpty then s.complete slot .done 0
    else each ds (fun d s => s.modDm d (fun x => { x with cfgWait := some (slot, c.opnd 2 0 16, c.opnd 2 16 16) })) s))

/-- The fractions that CAP_SET MODE 1 carries in words 3 to 6. -/
def capOps (c : Cmd) : Option Sec6 := sec6Of (fun i => wordAt c.ops (1 + i))

/-- CAP_SET is refused: MODE 0 at a wrong level, MODE 1 with fractions above 256 in sum (10 R331). -/
def capCheck (c : Cmd) (s : State) : Option (Status × Nat) :=
  if c.opnd 2 0 1 == 0 then s.dgCheck c.unit (fun _ => none)
  else match capOps c with
    | some _ => none
    | none => some (.rejectedLimit, 0)

/-- CAP_SET: MODE 0 sets CEIL_d and is DONE at the next broadcast; MODE 1 sets the chip cap and the fractions and is DONE
at the second. -/
def execCapSet (slot : Slot) (s : State) : Host.Outcome State Fault Refusal :=
  .next (s.opRow slot 0x0F anyOp capCheck (fun c s =>
    if c.opnd 2 0 1 == 0 then
      each (s.sheet.reach c.unit) (fun d s => s.modDm d (fun x => { x with ceilW := c.opnd 2 16 16 }))
        (s.modCmd slot (fun x => { x with wait := 1 }))
    else match capOps c with
      | some x => ({ s with pow := { s.pow with caps := x } } : State).modCmd slot (fun y => { y with wait := 2 })
      | none => s.complete slot .rejectedLimit 0))

/-! ## UNIT_DISABLE and UNIT_ENABLE -/

/-- The cells of a list of units. -/
def cellsIn (l : List Nat) : List (Nat × Nat) :=
  l.filterMap (fun v => match uKind v with
    | .cell n k => some (n, k)
    | _ => none)

/-- The domains of a list of units. -/
def domsIn (l : List Nat) : List Nat :=
  l.filterMap (fun v => match uKind v with
    | .domain d => some d
    | _ => none)

/-- The clusters of a list of units. -/
def clusIn (l : List Nat) : List Nat :=
  l.filterMap (fun v => match uKind v with
    | .cluster n => some n
    | _ => none)

/-- UNIT_DISABLE is refused: the AON domain; a domain that is on, or a group over one; a cell or cluster without which a
domain that is on has no cell in RUN or BALLAST (11 R372). -/
def disableCheck (c : Cmd) (s : State) : Option (Status × Nat) :=
  if s.atAon c.unit then badState
  else if isDg c.unit then (if (s.sheet.reach c.unit).any s.isOn then badState else none)
  else
    let gone := cellsIn (s.sheet.subtree c.unit)
    let starved := fun (d : Nat) =>
      s.isOn d && (s.sheet.domCells d).any (fun p => gone.contains p) &&
      !(s.sheet.domCells d).any (fun p => !gone.contains p && (s.cell p.1 p.2).st.running && !(s.cell p.1 p.2).disDue)
    if s.sheet.domIxs.any starved then badState else none

/-- A bank operation dispatched to cluster `n` ends ABORTED_DISABLED: a load leaves the inactive bank invalid, a
deferred swap is abandoned (Table 11-9). -/
def State.stopBanks (n slot : Nat) (s : State) : State :=
  let ks := (s.host.cmds.filter (fun p => bankOp p.2.opc && p.2.stage == .dispatched && p.2.parts.contains n)).map
    (fun p => p.1)
  let s := (s.modCl n (fun c => { c with ctl := { c.ctl with loadBusy := false, swap := none } })).modChan n
    (fun x => x.dropArch ks.contains)
  each ks (fun q s => (s.supersedes q (some slot)).endPart q n .abortedDisabled) s

/-- One cell is to be DISABLED at its next carrier start (Table 11-9); the first sample boundary lies behind it. -/
def State.disableCell (n k : Nat) (s : State) : State :=
  let c := s.cell n k
  let s := s.modLane n k (fun l => { l with udis := true })
  if c.st == .disabled then s
  else
    let s := s.modCell n k (fun x => { x with disDue := true })
    -- a cell that does not switch, or whose cluster makes no samples, has no carrier start to wait for
    if c.st.switching && s.samples n then s else s.carrierStart n k

/-- A domain is disabled: a sequence that was switching it on ends, its stages open. -/
def State.disableDom (d slot : Nat) (s : State) : State :=
  let s := match (s.dm d).stg with
    | some g => if g.closing then
        let s := match g.cmd with
          | some q => (s.supersedes q (some slot)).endPart q d .abortedDisabled
          | none => s
        ((s.unfade d).dropStage d).modDm d (fun x => { x with stg := none, stages := 0 }) else s
    | none => s
  s.modDm d (fun x => { x with disabled := true, on := false, nbWait := false })

/-- UNIT_DISABLE: bank operations of its clusters end, its domains are off, its cells DISABLED; its record follows those
it causes. -/
def execUnitDisable (slot : Slot) (s : State) : Host.Outcome State Fault Refusal :=
  .next (s.opRow slot 0x18 anyOp disableCheck (fun c s =>
    let sub := s.switchSub c.unit
    let s := each (clusIn sub) (fun n s => s.stopBanks n slot) s
    let s := each (domsIn sub) (fun d s => s.disableDom d slot) s
    (each (cellsIn sub) (fun p s => s.disableCell p.1 p.2) s).complete slot .done 0))

/-- UNIT_ENABLE is refused at the AON domain itself. -/
def enableCheck (c : Cmd) (s : State) : Option (Status × Nat) := if s.atAon c.unit then badState else none

/-- A domain is no longer disabled; its fault of assembly ends (14 R433). -/
def State.enableDom (d : Nat) (s : State) : State :=
  (s.modDm d (fun x => { x with disabled := false })).closeUnit (uDom d) [0x010]

/-- A cell that is DISABLED or LATCHED runs TEST (03 R93); a park for redundancy mismatches ends (04 R144). -/
def State.enableCell (n k : Nat) (s : State) : State :=
  let s := s.carrierStart n k
  let s := s.modCl n (fun c => { c with ctl := { c.ctl with
    lanes := vmod c.ctl.lanes k (fun l => { l with redPark := false, mism := 0 }) } })
  if (s.cell n k).st == .disabled || (s.cell n k).st == .latched then (s.wakeClu n).cellEvent n k (Cell.toTest s.elapsed) else s

/-- UNIT_ENABLE: a disabled cluster is reset and its cells run TEST after it (11 R368); other cells run TEST at once. It
is DONE once every TEST has begun. -/
def execUnitEnable (slot : Slot) (s : State) : Host.Outcome State Fault Refusal :=
  .next (s.opRow slot 0x19 anyOp enableCheck (fun c s =>
    let sub := s.switchSub c.unit
    let resets := (clusIn sub).filter s.cluDisabled
    let s := each (domsIn sub) State.enableDom s
    let s := each ((cellsIn sub).filter (fun p => !resets.contains p.1)) (fun p s => s.enableCell p.1 p.2) s
    if resets.isEmpty then s.complete slot .done 0
    else each resets (fun n s => s.resetClu n (some slot)) (s.modCmd slot (fun x => { x with parts := resets }))))

/-! ## TELEMETRY_READ (13 R410, 02 R44 to R47) -/

/-- The children of a unit (R410). -/
def CallSheet.children (cs : CallSheet) (u : Nat) : List Nat :=
  match uKind u with
  | .group g =>
    ((cs.grps.filter (fun r => r.grp != 0 && r.parent == g)).map (fun r => r.grp)) ++
    ((cs.doms.filter (fun r => r.parent == g)).map (fun r => uDom r.dom))
  | .domain d =>
    if (cs.domHalves d).any (fun p => cs.isSplit p.1) then (cs.domCells d).map (fun p => uCell p.1 p.2)
    else (cs.domHalves d).map (fun p => uClu p.1)
  | .cluster n => (cs.allCells n).map (uCell n)
  | _ => []

/-- The units that a TELEMETRY_READ reports, in ascending address. -/
def CallSheet.telUnits (cs : CallSheet) (u depth : Nat) : List Nat :=
  let l := match depth with
    | 0 => [u]
    | 1 => u :: cs.children u
    | _ => cs.subtree u
  sortBy (fun a b => decide (a < b)) l.eraseDups

/-- The domains that a unit's record is formed from. -/
def CallSheet.telDoms (cs : CallSheet) (u : Nat) : List Nat :=
  match uKind u with
  | .group g => cs.grpDoms g
  | .domain d => [d]
  | .cluster n => ((cs.cluHalves n).map (fun p => p.2)).eraseDups
  | .cell n k => (cs.cellDom n k).toList
  | .unused => []

/-- SETPOINT of a domain at the last broadcast; the AON domain's is its nominal code. -/
def State.telSet (s : State) (d : Nat) : Nat :=
  match s.sheet.domRec d with
  | some r => if r.dtype == 4 then r.vboot else (s.dm d).bc.setpoint
  | none => 0

/-- Worst open fault of a unit and of the units under it. -/
def State.telFault (s : State) (u : Nat) : Nat := maxN ((s.sheet.subtree u).map s.unitFault)

/-- DISABLED of a unit other than a group. -/
def State.leafDisabled (s : State) (u : Nat) : Bool :=
  match uKind u with
  | .domain d => (s.dm d).disabled
  | .cluster n => s.cluDisabled n
  | .cell n k => (s.cell n k).st == .disabled
  | _ => false

/-- DISABLED of a unit: a group is disabled when every child is; chains of groups are at most 64 long. -/
def State.telDisabled (s : State) : Nat → Nat → Bool
  | 0, _ => false
  | fuel + 1, u =>
    match uKind u with
    | .group _ => !(s.sheet.children u).isEmpty && (s.sheet.children u).all (fun v => State.telDisabled s fuel v)
    | _ => s.leafDisabled u

/-- KIND and LEVEL of a unit. -/
def CallSheet.telKind (cs : CallSheet) (u : Nat) : Nat × Nat :=
  match uKind u with
  | .cell _ _ => (0, 0)
  | .cluster _ => (1, 1)
  | .domain _ => (2, 2)
  | .group g => (3, match cs.grpRec g with
    | some r => r.level
    | none => 0)
  | .unused => (0, 0)

/-- The one value of a list that agrees, or another. -/
def agreed (l : List Nat) (other : Nat) : Nat :=
  match l with
  | [] => other
  | x :: t => if t.all (fun y => y == x) then x else other

/-- CAPACITY, CURRENT in mA and ENERGY in nJ of a unit at the last broadcast: cells and clusters from their cells,
domains from their records, groups from their domains. -/
def State.telSums (s : State) (u : Nat) : Nat × Int × Nat :=
  let snap := fun (p : Nat × Nat) => vget (vget s.pow.snap p.1) p.2
  let ofCells := fun (l : List (Nat × Nat)) =>
    (sumN (l.map (fun p => (snap p).cap)), 4 * sumI (l.map (fun p => (snap p).cur)),
      sumN (l.map (fun p => (snap p).energy / 65536)))
  match uKind u with
  | .cell n k => ofCells [(n, k)]
  | .cluster n => ofCells ((s.sheet.allCells n).map (fun k => (n, k)))
  | _ =>
    let bs := (s.sheet.telDoms u).map (fun d => (s.dm d).bc)
    (sumN (bs.map (fun b => b.cap)), sumI (bs.map (fun b => b.current)), sumN (bs.map (fun b => b.energy)))

/-- The unit interface record (Table 2-2). -/
def State.telRecord (s : State) (u : Nat) : List Word64 :=
  let ds := s.sheet.telDoms u
  let bs := ds.map (fun d => (s.dm d).bc)
  let sets := ds.map s.telSet
  let types := ds.map (fun d => ((s.sheet.domRec d).map DomRec.dtype).getD 7)
  let k := s.sheet.telKind u
  let x := s.telSums u
  let reason := bs.foldl (fun (r : BitVec 7) (b : BRec) => r ||| b.thrReason) 0
  [BitVec.ofNat 64 (pack [(11, u), (2, k.1), (3, k.2), (3, agreed types 7), (12, maxN sets),
      (1, b2n (sets.any (fun v => v != maxN sets))), (3, s.telFault u), (3, maxN (bs.map (fun b => b.thrStage))),
      (7, reason.toNat), (1, b2n (s.telDisabled 65 u)), (2, 0), (16, min 65535 x.1)]),
   BitVec.ofNat 64 (pack [(32, tc 32 (clampI (-2 ^ 31) (2 ^ 31 - 1) x.2.1)),
      (16, min 65535 (sumN (bs.map (fun b => b.held)))), (16, min 65535 (sumN (bs.map (fun b => b.free))))]),
   BitVec.ofNat 64 x.2.2, BitVec.ofNat 64 (maxN (bs.map (fun b => b.time)))]

/-- BUF and MAX and DEPTH lie in their ranges. -/
def telLimits (c : Cmd) : Bool := c.opnd 2 0 5 == 0 && decide (c.opnd 2 48 2 ≤ 2) && inR 1 2048 (c.opnd 3 0 16)

/-- More records than MAX are refused (R410). -/
def telCheck (c : Cmd) (s : State) : Option (Status × Nat) :=
  if c.opnd 3 0 16 < (s.sheet.telUnits c.unit (c.opnd 2 48 2)).length then some (.rejectedLimit, 0) else none

/-- TELEMETRY_READ: the records are written in ascending address; DONE when every write is acknowledged. -/
def execTelemetryRead (slot : Slot) (s : State) : Host.Outcome State Fault Refusal :=
  .next (s.opRow slot 0x15 telLimits telCheck (fun c s =>
    let us := s.sheet.telUnits c.unit (c.opnd 2 48 2)
    (s.modCmd slot (fun x => { x with wait := us.length })).writeLong 600 (c.opnd 2 0 48) (us.flatMap s.telRecord)
      (fun last => .data slot last)))

end Sys2Proof.Machine
end

