-- ==== Sys2Proof/Machine/CmdPlan.lean ====
section
/-! DEFINITION. Commands of a context and its plan (06 R173 to R185): CONTEXT_OPEN and CONTEXT_CLOSE, REEL_LOAD, PLAN_ARM
and PLAN_DISARM, and those of the slate (08 R258, R274, R275), with the data that their reads bring. -/

namespace Sys2Proof.Machine
open Sys2Proof

/-- The protection ID of the ring that a command came from. -/
def State.cmdPid (s : State) (c : Cmd) : Nat := (vget s.host.rings c.ring).pid

/-- The duration counters and the energy of a context restart (10 R332, R334). -/
def State.restartCtx (c : Nat) (s : State) : State :=
  { s with pow := { s.pow with
      dur := vmap (fun i x => if i / 7 == c then 0 else x) s.pow.dur, energyCtx := vset s.pow.energyCtx c 0 } }

/-! ## CONTEXT_OPEN (06 R173, R174, 13 R420) -/

/-- CONTEXT_OPEN: its record is read. -/
def execContextOpen (slot : Slot) (s : State) : Host.Outcome State Fault Refusal :=
  .next (s.opRow slot 0x09 anyOp noCheck
    (fun c s => s.startRead (c.opnd 2 0 48) 64 (.ctx slot) (s.cmdPid c)))

/-- The domains that a context record names. -/
def CtxRec.domList (r : CtxRec) : List Nat := bitsIn 128 r.doms.toNat

/-- The clusters that serve the domains of a context record, with their predictor images to read. -/
def State.predClus (s : State) (r : CtxRec) : List Nat :=
  (List.range 64).filter (fun n => (s.sheet.cluHalves n).any (fun p => r.doms.toNat.testBit p.2))

/-- Checks 3 and 4 of R174 and the opening. `imgs` holds the images in the order of `predClus`. -/
def State.openCtx (slot : Nat) (c : Cmd) (r : CtxRec) (imgs : List (List Word64)) (s : State) : State :=
  let ns := s.predClus r
  let others := vfind (fun x : Context => x.st != .closed) s.ctx
  if !r.ok || r.domList.any (fun d => s.sheet.isAon d) || !imgs.all predRangeOk then s.complete slot .rejectedLimit 0
  else if others.any (fun j => (s.cx j).recd.overlaps r || (s.cx j).recd.doms &&& r.doms != 0) then
    s.complete slot .rejectedState 0
  else
    let on := ((s.cx c.ctx).openN + 1) % 16
    let s := s.modCx c.ctx (fun x => { x with
      st := .reactive, openN := on, recd := r, reels := [], pageWait := false, dropReels := [], armShot := none, pre := [], ram := [], cur := none
      curReel := 0, curOnset := none, seq := 0, next := none, lastSwitch := none, heldCue := none, played := []
      wm := none, wmStop := false, wmFrozen := false, wmAt := 0, wmDirty := false, leaving := false, poisoning := none
      closing := none, fr := none })
    let s := each (s.ctxHalves c.ctx) (fun p s =>
      let img := (List.zip ns imgs).find? (fun q => q.1 == p.1)
      s.modCl p.1 (fun x => { x with pred := x.pred.set p.2 (match img with
        | some q => predOf c.ctx q.2
        | none => {}) })) s
    -- a predictor that had stopped runs again (06 R202, 14 R433)
    let s := each (ns.filter (fun n => !(s.cl n).pred.lo.stop && !(s.cl n).pred.hi.stop)) (fun n s => s.closeUnit (uClu n) [0x025]) s
    let s := s.restartCtx c.ctx
    s.complete slot .done on

/-- The image of the `i`-th cluster of `predClus` is read next, or the checks go on once all have been read. What has
been read stands behind the five operand words of the command: the record, then the images. -/
def State.nextPred (slot : Nat) (s : State) : State :=
  match s.cmd? slot with
  | none => s
  | some c =>
    let w := c.ops.drop 5
    let r := ctxRecOf (w.take 8)
    let imgs := w.drop 8
    let k := imgs.length / 128
    let ns := if r.predAddr == 0 then [] else s.predClus r
    match ns[k]? with
    | some n => s.startRead (r.predAddr + 1024 * n) 1024 (.pred slot n) (s.cmdPid c)
    | none => s.openCtx slot c r ((List.range k).map (fun i => (imgs.drop (128 * i)).take 128))

/-- The context record has been read (R174, R420). -/
def State.ctxRead (slot : Nat) (w : List Word64) (poison : Bool) (s : State) : State :=
  match s.cmd? slot with
  | none => s
  | some c =>
    if poison then s.complete slot .poisoned 0
    else
      let r := ctxRecOf w
      let pid := s.cmdPid c
      let s := s.memRead 9 0 (some (32 + 4 * pid))
      if !r.domList.all (fun d => s.unitInScope pid (uDom d)) then s.outOfScope slot 3 c
      else if (s.cx c.ctx).st != .closed then s.complete slot .rejectedState 0
      else if !ctxReservedOk w || fld (wordAt w 0) 0 4 != c.ctx then s.complete slot .rejectedFormat 0
      else (s.modCmd slot (fun x => { x with ops := x.ops.take 5 ++ w.take 8 })).nextPred slot

/-- A predictor image of a CONTEXT_OPEN has been read. -/
def State.predRead (slot : Nat) (w : List Word64) (poison : Bool) (s : State) : State :=
  if poison then s.complete slot .poisoned 0
  else if !predCrcOk w || !predReservedOk w then s.complete slot .rejectedFormat 0
  else (s.modCmd slot (fun x => { x with ops := x.ops ++ w.take 128 })).nextPred slot

/-! ## CONTEXT_CLOSE (R370, R371) -/

/-- Held REEL_LOADs of a context end ABORTED_DISABLED, their records in front of the disabling command's (R369). -/
def State.dropLoads (slot c : Nat) (s : State) : State :=
  let held := (s.cx c).loads.filter (fun l => !l.loading)
  let s := each held (fun l s => (s.supersedes l.slot (some slot)).complete l.slot .abortedDisabled 0) s
  s.modCx c (fun x => { x with loads := x.loads.filter (fun l => l.loading) })

/-- CONTEXT_CLOSE: held loads end, preparations and holds are withdrawn, play stops; it completes once the watermark has
passed the last shot played. -/
def execContextClose (slot : Slot) (s : State) : Host.Outcome State Fault Refusal :=
  .next (s.opRow slot 0x0A anyOp noCheck (fun c s =>
    if (s.cx c.ctx).st == .closed || (s.cx c.ctx).closing.isSome then s.complete slot .rejectedState 0
    else
      let old := s
      let s := s.dropLoads slot c.ctx
      let s := ((s.withdrawCtx c.ctx).unfeed c.ctx).endHolds c.ctx
      let s := if (s.cx c.ctx).plan then s.haltPlay c.ctx else s
      let s := s.modCx c.ctx (fun x => { x with
        st := .reactive, wmFrozen := false, leaving := false, poisoning := none, closing := some slot })
      let s := each (s.disarms c.ctx) (fun q s => s.complete q .done 0) s
      ((s.slateCtxLeft old).wmAdvance c.ctx).slateCtxLeft old))

/-! ## REEL_LOAD (R181 to R183) -/

/-- The context of a load that is still under way. -/
def State.loadOf (s : State) (slot : Nat) : Option (Nat × Load) :=
  match s.cmd? slot with
  | none => none
  | some c => ((s.cx c.ctx).loads.find? (fun l => l.slot == slot)).map (fun l => (c.ctx, l))

/-- REEL_LOAD: check 1, then its header is read. -/
def execReelLoad (slot : Slot) (s : State) : Host.Outcome State Fault Refusal :=
  .next (s.opRow slot 0x0B (fun c => c.opnd 2 0 6 == 0) noCheck (fun c s =>
    let x := s.cx c.ctx
    if x.st == .closed || x.closing.isSome || decide (8 ≤ x.loads.length) then s.complete slot .rejectedState 1
    else
      (s.modCx c.ctx (fun x => { x with
        loads := x.loads ++ [{ slot, loading := false, openN := x.openN, hdr := [] }] })).startRead
        (c.opnd 2 0 48) 64 (.reel slot) (s.cmdPid c)))

/-- A load ends with a failing check of Table 6-6 as RESULT; loads behind it may begin. -/
def State.loadFailed (slot c k : Nat) (st : Status) (s : State) : State :=
  ((s.modCx c (fun x => { x with loads := x.loads.filter (fun l => l.slot != slot) })).complete slot st k).startLoads c

/-- A part of a reel has been read: first its header, and then, once no resident reel is overlapped, the rest. -/
def State.reelRead (slot : Nat) (w : List Word64) (poison : Bool) (s : State) : State :=
  match s.loadOf slot with
  | none => s
  | some (c, l) =>
    if poison then s.loadFailed slot c 2 .poisoned
    else if l.hdr.isEmpty then
      if !hdrOk c w then s.loadFailed slot c 3 .rejectedFormat
      else
        (s.modCx c (fun x => { x with
          loads := x.loads.map (fun y => if y.slot == slot then { y with hdr := w.take 8 } else y) })).startLoads c
    else
      let img := l.hdr ++ w
      match s.reelCheck c img with
      | some (k, st) => s.loadFailed slot c k st
      | none =>
        let s := s.modCx c (fun x => { x with loads := x.loads.filter (fun y => y.slot != slot) })
        let e := reelOf img
        if (s.cx c).st == .closed || (s.cx c).closing.isSome || (s.cx c).openN != l.openN then s.complete slot .done 0
        else
          -- a reel whose places this one has overwritten is no longer resident (R184)
          let s := ((s.storeReel img).staleReel c e).modCx c (fun x => { x with
            reels := x.reels.filter (fun y => !(rangesMeet (y.sbase, y.nshot) (e.sbase, e.nshot) ||
              rangesMeet (y.pbase, y.nprof) (e.pbase, e.nprof))) ++ [e] })
          ((((s.complete slot .done 0).prefetch c).reelReady c e.num).prefetch c).startLoads c

/-! ## PLAN_ARM and PLAN_DISARM (R175) -/

/-- PLAN_ARM. -/
def execPlanArm (slot : Slot) (s : State) : Host.Outcome State Fault Refusal :=
  .next (s.opRow slot 0x0C anyOp noCheck (fun c s =>
    let x := s.cx c.ctx
    match x.reel (c.opnd 2 0 8) with
    | none => s.complete slot .rejectedState 0
    | some e =>
      if x.st != .reactive || x.closing.isSome then s.complete slot .rejectedState 0
      else ((s.armPlan c.ctx e).forgetGone c.ctx none).complete slot .done 0))

/-- PLAN_DISARM: held loads end; it takes effect and is DONE at the next sample boundary. -/
def execPlanDisarm (slot : Slot) (s : State) : Host.Outcome State Fault Refusal :=
  .next (s.opRow slot 0x0D anyOp noCheck (fun c s =>
    if !(s.cx c.ctx).plan then s.complete slot .rejectedState 0
    else (s.dropLoads slot c.ctx).modCx c.ctx (fun x => { x with leaving := true })))

/-! ## The slate -/

/-- SLATE_JOIN: refused when joined or joining, by role, without a way to the root, and for a CLOSED context (08 R258,
R275). -/
def execSlateJoin (slot : Slot) (s : State) : Host.Outcome State Fault Refusal :=
  .next (s.opRow slot 0x10 anyOp noCheck (fun c s =>
    if s.slt.joined || s.slt.join.isSome || s.role == 0 || (s.role != 2 && (vget s.slt.ports 0).st != 2) ||
        (s.cx c.ctx).st == .closed then s.complete slot .rejectedState 0
    else s.slateJoin slot c.ctx))

/-- SLATE_LEAVE: refused when the chip is not joined (R274). -/
def execSlateLeave (slot : Slot) (s : State) : Host.Outcome State Fault Refusal :=
  .next (s.opRow slot 0x11 anyOp noCheck (fun _ s =>
    if !s.slt.joined then s.complete slot .rejectedState 0
    else (s.modSlt (fun x => { x with leave := some slot.val })).leaveTree))

end Sys2Proof.Machine
end

