-- ==== Sys2Proof/Machine/CmdMisc.lean ====
section
/-! DEFINITION. Commands of the whole chip and tests: CALL_SHEET_LOAD (02 R55, R58), MARGIN_PROBE (14 R452, R453),
SELF_TEST (14 R456, R457), MARCH (15 R465 to R468), NV_READ (14 R449) and STAMP_CONFIG (14 R451). -/

namespace Sys2Proof.Machine
open Sys2Proof

/-! ## CALL_SHEET_LOAD -/

/-- CALL_SHEET_LOAD: its header is read first. -/
def execCallSheetLoad (slot : Slot) (s : State) : Host.Outcome State Fault Refusal :=
  .next (s.opRow slot 0x08 (fun c => c.opnd 2 0 6 == 0) noCheck
    (fun c s => s.startRead (c.opnd 2 0 48) 64 (.csh (some slot.val)) (s.cmdPid c)))

/-- A failing check ends the command with its number. -/
def State.cshFailed (slot k : Nat) (s : State) : State := s.complete slot (cshStatus k) k

/-- The words of an image of `len` bytes and those of the bank images behind it. -/
def cshSplit (w : List Word64) : List Word64 × List Word64 :=
  let n := fld (wordAt w 1) 0 32 / 8
  (w.take n, w.drop n)

/-- The next bank image of a whole image is read; when all have been, checks 8 to 12 go on, and the call sheet waits for
its broadcast. -/
def State.cshNext (slot : Nat) (s : State) : State :=
  match s.cmd? slot with
  | none => s
  | some c =>
    let (img, banks) := cshSplit (c.ops.drop 5)
    match parseCsh s.pins.cells s.pins.sltCon s.sec.tCrit img with
    | .error k => s.cshFailed slot k
    | .ok cs =>
      let k := banks.length / 1024
      match cs.s2.entries[k]? with
      | some e => s.startRead e.addr 8192 (.cshBank (some slot) k) (s.cmdPid c)
      | none =>
        if !cs.banksOk ((List.range k).map (fun i => (banks.drop (1024 * i)).take 1024)) then s.cshFailed slot 8
        else match s.cshLater true cs with
          | 0 => { s with cshNew := some (slot, cs) }
          | j => s.cshFailed slot j

/-- A part of the image of a CALL_SHEET_LOAD has been read: its header, then the rest. -/
def State.cshRead (slot : Nat) (w : List Word64) (poison : Bool) (s : State) : State :=
  match s.cmd? slot with
  | none => s
  | some c =>
    if poison then s.complete slot .poisoned 0
    else
      let first := c.ops.length ≤ 5
      let len := fld (wordAt (if first then w else c.ops.drop 5) 1) 0 32
      let s := s.modCmd slot (fun x => { x with ops := (x.ops ++ w).take (5 + len / 8) })
      if first && !csh1 w then s.cshFailed slot 1
      else if first && decide (64 < len) then
        s.startRead (c.opnd 2 0 48 + 64) (len - 64) (.csh (some slot)) (s.cmdPid c)
      else s.cshNext slot

/-- A bank image of a CALL_SHEET_LOAD has been read. -/
def State.cshBankRead (slot : Nat) (w : List Word64) (poison : Bool) (s : State) : State :=
  if poison then s.complete slot .poisoned 0
  else (s.modCmd slot (fun x => { x with ops := x.ops ++ w.take 1024 })).cshNext slot

/-! ## MARGIN_PROBE -/

/-- Operands in their ranges, VADDR aligned. -/
def probeLimits (c : Cmd) : Bool :=
  let (step, nstep, dwell, va) := c.probeOps
  inR 1 255 step && inR 1 15 nstep && inR 1 1048575 dwell && va % 8 == 0

/-- The level of R48: a LOGIC domain. -/
def probeLevel (c : Cmd) (s : State) : Option (Status × Nat) :=
  match uKind c.unit with
  | .domain d => if (s.sheet.domRec d).map DomRec.dtype == some 0 then none else badState
  | _ => badState

/-- The checks of R452 at dispatch for domain `d`. -/
def State.probeRefused (s : State) (c : Cmd) (d : Nat) : Option Status :=
  let vmin := ((s.sheet.domRec d).map DomRec.vmin).getD 0
  let planned := match s.owner d with
    | some x => (s.cx x).plan
    | none => false
  if (s.dm d).tgt < vmin + c.probeOps.2.1 * c.probeOps.1 then some .rejectedLimit
  else if !s.isOn d || planned || decide (0 < (s.dm d).thr.vf) || s.vin.dip then some .rejectedState
  else none

/-- MARGIN_PROBE: FCEIL is held at T, and step 1 begins. -/
def execMarginProbe (slot : Slot) (s : State) : Host.Outcome State Fault Refusal :=
  .next (s.opRow slot 0x12 probeLimits probeLevel (fun c s =>
    match uKind c.unit with
    | .domain d =>
      match s.probeRefused c d with
      | some st => s.complete slot st 0
      | none =>
        let t := (s.dm d).tgt
        let p : Probe := { slot, dom := d, t, k := 0, last := 0, stop := 0, run := s.probeRun d, phase := 0, dwellBy := 0 }
        (((s.wakeDom d).modDm d (fun x => { x with probeT := some t })).setProbe p).probeStep slot 1
    | _ => s.complete slot .rejectedState 0))

/-! ## SELF_TEST -/

/-- Operands of a SELF_TEST: CLU_A, CLU_B, NOPS, SEED. -/
def Cmd.selfOps (c : Cmd) : Nat × Nat × Nat × Nat := (c.opnd 2 0 6, c.opnd 2 6 6, c.opnd 2 12 20, c.opnd 3 0 32)

/-- The refusals of R456. -/
def selfCheck (c : Cmd) (s : State) : Option (Status × Nat) :=
  let (a, b, _, _) := c.selfOps
  if a == b || (s.sheet.cluRec a).isNone || (s.sheet.cluRec b).isNone then some (.rejectedLimit, 0)
  else if s.cluDisabled a || s.cluDisabled b || (s.cl a).inReset.isSome || (s.cl b).inReset.isSome then badState
  else none

/-- SELF_TEST: judged once more at dispatch, then both clusters evaluate its operations in their samples. -/
def execSelfTest (slot : Slot) (s : State) : Host.Outcome State Fault Refusal :=
  .next (s.opRow slot 0x13 (fun c => decide (1 ≤ c.selfOps.2.2.1)) selfCheck (fun c s =>
    match selfCheck c s with
    | some r => s.complete slot r.1 r.2
    | none =>
      let (a, b, nops, seed) := c.selfOps
      { (s.wakeClu a).wakeClu b with
        selft := some { slot, a, b, nops, seed, ia := 0, ib := 0, sigA := [], sigB := [], cmp := 0, mism := 0 } }))

/-- op(i, j) of R456. -/
def selfWord (seed i j : Nat) : Nat :=
  let m := 2 ^ 32
  let x := (seed + i * 0x6A5D39E1 + j * 0x3C4F1B27) % m
  let x := x ^^^ (x / 2 ^ 15)
  let x := x * 0x2D8B4E95 % m
  let x := x ^^^ (x / 2 ^ 13)
  let x := x * 0x5E13A6C3 % m
  x ^^^ (x / 2 ^ 16)

/-- Operation `i`: the integrator, biquad and output lines of 04 R115 on its words; its results i', w and l. -/
def selfEval (seed i : Nat) : Int × Int × Int :=
  let o := selfWord seed i
  let big : Int := 2 ^ 39
  let c : LoopCoef := { ki := sfld (o 6) 0 24, b0 := sfld (o 7) 0 24, b1 := sfld (o 8) 0 24, b2 := sfld (o 9) 0 24
                        a1 := sfld (o 10) 0 24, a2 := sfld (o 11) 0 24, imax := big, imin := -big, sh := fld (o 12) 0 3 }
  let st : LoopSt := { i := sfld (o 3) 0 32, w1 := 4096 * sfld (o 4) 0 24, w2 := 4096 * sfld (o 5) 0 24
                       e1 := sfld (o 1) 0 16, e2 := sfld (o 2) 0 16 }
  let r := (lawStep c false (sfld (o 0) 0 16) st).1
  (r.i, r.w1, r.l)

/-- The signature of an operation (R457). -/
def selfSig (seed i : Nat) : BitVec 16 :=
  let (a, w, l) := selfEval seed i
  let x := tc 40 a ^^^ tc 40 w ^^^ tc 40 l
  BitVec.ofNat 16 (fld x 0 16 ^^^ fld x 16 16 ^^^ fld x 32 8)

/-- Signatures of one sample of a cluster, from operation `i`: sixteen, one a lane. A lane whose arithmetic errs in this
sample gives a free signature. -/
def State.selfSample (mism : BitVec 16) (seed i nops : Nat) (s : State) : List (BitVec 16) × State :=
  (List.range (min 16 (nops - i))).foldl (fun (acc : List (BitVec 16) × State) k =>
    if mism.getLsbD k then
      let (x, s) := acc.2.drawNat
      (acc.1 ++ [BitVec.ofNat 16 x], s)
    else (acc.1 ++ [selfSig seed (i + k)], acc.2)) ([], s)

/-- The Gaffer pairs signatures while it has them from both clusters; every pair that differs raises 0x04B. -/
def State.selfPairs : Nat → State → State
  | 0, s => s
  | fuel + 1, s =>
    match s.selft with
    | none => s
    | some t =>
      match t.sigA, t.sigB with
      | x :: ra, y :: rb =>
        let bad := x != y
        let s := { s with selft := some { t with sigA := ra, sigB := rb, cmp := t.cmp + 1, mism := t.mism + b2n bad } }
        let s := if bad then s.raise 0x04B (.unit 0) (t.cmp % 65536) else s
        let s := if t.cmp + 1 == t.nops then ({ s with selft := none } : State).complete t.slot .done (t.mism + b2n bad) else s
        State.selfPairs fuel s
      | _, _ => s

/-- The self-test operations of one sample of cluster `n`. -/
def State.selfStep (n : Nat) (mism : BitVec 16) (s : State) : State :=
  match s.selft with
  | none => s
  | some t =>
    let s := if t.a == n then
        let r := s.selfSample mism t.seed t.ia t.nops
        { r.2 with selft := some { t with ia := min t.nops (t.ia + 16), sigA := t.sigA ++ r.1 } }
      else if t.b == n then
        let r := s.selfSample mism t.seed t.ib t.nops
        { r.2 with selft := some { t with ib := min t.nops (t.ib + 16), sigB := t.sigB ++ r.1 } }
      else s
    s.selfPairs 16

/-! ## MARCH -/

/-- Operands of a MARCH: MEM, CLU, PRESERVE. -/
def Cmd.marchOps (c : Cmd) : Nat × Nat × Bool := (c.opnd 2 0 4, c.opnd 2 4 6, c.opnd 2 10 1 == 1)

/-- A memory code of Table 15-1 is used. -/
def marchLimits (c : Cmd) : Bool := [0, 1, 2, 3, 8, 9, 10].contains c.marchOps.1

/-- The cluster of a cluster memory is absent. -/
def marchCheck (c : Cmd) (s : State) : Option (Status × Nat) :=
  if decide (c.marchOps.1 < 4) && (s.sheet.cluRec c.marchOps.2.1).isNone then some (.rejectedLimit, 0) else none

/-- Every domain that cluster `n` serves is off. -/
def State.servedOff (s : State) (n : Nat) : Bool := (s.sheet.cluHalves n).all (fun p => !s.isOn p.2)

/-- A LOAD_BANK or swap is pending for cluster `n`. -/
def State.banksBusy (s : State) (n : Nat) : Bool := (s.cl n).ctl.loadBusy || (s.cl n).ctl.swap.isSome

/-- A destructive run is permitted (Table 15-3). -/
def State.marchFree (s : State) (mem n : Nat) : Bool :=
  match mem with
  | 0 => s.servedOff n && (s.sheet.cluHalves n).all (fun p => (s.owner p.2).isNone)
  | 1 => (s.cl n).ctl.activeB && !s.banksBusy n
  | 2 => !(s.cl n).ctl.activeB && !s.banksBusy n
  | 3 => s.servedOff n
  | 9 => s.factory && !s.sec.lock
  | 10 => s.nv.staged.isEmpty && !s.nv.busy
  | _ => false

/-- A destructive run leaves every word of its memory at zero (R465): the state of the engine and the predictors; a bank,
invalid; the ledger but for its generations, whose credits the Gaffer's BF makes up (01 R30); the page's entries and violation counter, its factory regions filled
again. -/
def State.marchZero (mem n : Nat) (s : State) : State :=
  match mem with
  | 0 => s.modCl n (fun (c : Cluster) => { c with
      ctl := { c.ctl with lanes := vmap (fun _ (l : Lane) => { l.kept with redPark := l.redPark, thErr := l.thErr }) c.ctl.lanes }
      pred := { c.pred with
        lo := { stop := c.pred.lo.stop }, hi := { stop := c.pred.hi.stop }, digs := [], digNow := 0, histLo := [], histHi := [] } })
  | 1 | 2 => s.modCl n (fun (c : Cluster) => { c with ctl := c.ctl.setInactive {} })
  | 3 => (each ((s.sheet.cluHalves n).map (fun p => p.2)) (fun d s => s.rezero n d) s).modCl n (fun (c : Cluster) => { c with
      led := { c.led with pend := [], heldLo := [], heldHi := [], grants := [], fill := [], samples := [] }
      halves := vmap (fun _ (h : Half) => { h with acc := {} }) c.halves })
  | 9 => { s with sec := { s.sec with
      patches := [], refillWait := [], prot := vrep 16 (vrep 8 0), violCnt := 0, violId := 0, violKind := 0 } }
  | _ => s

/-- MARCH: the run begins when Table 15-3 permits it. -/
def execMarch (slot : Slot) (s : State) : Host.Outcome State Fault Refusal :=
  .next (s.opRow slot 0x14 marchLimits marchCheck (fun c s =>
    let (mem, n, keep) := c.marchOps
    if !keep && !s.marchFree mem n then s.complete slot .rejectedState 0
    else if decide (mem < 4) && (s.cl n).inReset.isSome then s.complete slot .abortedReset 0
    else
      let s := if mem < 4 then s.wakeClu n else s
      let s := { s with march := some slot.val }
      if keep then s.memRead mem n none else s.marchZero mem n))

/-- Retention slots that hold a failing word are withdrawn (R467): of `failing` words, 16 a slot, how many slots they lie
in is free. -/
def State.marchSlots (failing : Nat) (s : State) : State :=
  let lo := min 32 (cdiv failing 16)
  let hi := min 32 failing
  let (x, s) := s.drawNat
  { s with nv := { s.nv with withdrawn := max s.nv.withdrawn (lo + x % (hi - lo + 1)) } }

/-- What the first failing word of a run raises (Table 15-3). -/
def State.marchBad (mem n failing : Nat) (s : State) : State :=
  let s := if mem < 4 then s.modCl n (fun c => { c with marchFail := satAdd 7 c.marchFail failing }) else s
  if failing == 0 then s
  else if mem == 10 then s.marchSlots failing
  else if (mem == 1 || mem == 2) && (decide (mem = 2) != (s.cl n).ctl.activeB) then s
  else
    let (x, s) := s.drawNat
    s.memBad mem n (x % memWords mem) 22 1 false

/-- The secure page is filled again after a destructive run (15 Table 15-3), from the store's one-time contents. -/
def State.pageAgain (mem : Nat) (keep : Bool) (s : State) : State :=
  if mem != 9 || keep then s
  else match s.sec.store with
    | some p => { s with sec := { s.sec with page := some p, filled := true, wiped := false, bad := false, patches := [] } }
    | none => s

/-- MARCH_COMPLETE: the run of the MARCH in `slot` has ended with some failing words. -/
def execMarchComplete (slot : Slot) (failing : Nat) (s : State) : Host.Outcome State Fault Refusal :=
  .next (match s.cmd? slot with
    | none => s
    | some c =>
      if s.march != some slot.val then s
      else
        let (mem, n, _) := c.marchOps
        (((({ s with march := none } : State).pageAgain mem c.marchOps.2.2).marchBad mem n failing).complete slot .done failing))

/-! ## NV_READ and STAMP_CONFIG -/

/-- The refusals of NV_READ (R449). -/
def nvCheck (c : Cmd) (s : State) : Option (Status × Nat) :=
  if !s.nv.ready then badState
  else if 512 < c.opnd 3 0 9 + c.opnd 3 9 10 then some (.rejectedLimit, 0)
  else none

/-- NV_READ: the records committed at dispatch, read once no program or erase runs (R449). -/
def execNvRead (slot : Slot) (s : State) : Host.Outcome State Fault Refusal :=
  .next (s.opRow slot 0x16 (fun c => c.opnd 2 0 7 == 0 && inR 1 512 (c.opnd 3 9 10)) nvCheck (fun _ s =>
    let top := match s.nv.committed (2 ^ 32) with
      | [] => 0
      | f :: _ => f.nseq + 1
    (s.modCmd slot (fun x => { x with wait := top, parts := [] })).nvReads))

/-- DOM is absent or not cell-fed (R451). -/
def stampCheck (c : Cmd) (s : State) : Option (Status × Nat) :=
  if s.sheet.cellFed (c.opnd 2 6 7) then none else some (.rejectedLimit, 0)

/-- STAMP_CONFIG: the mapping waits for the first sample boundary. -/
def execStampConfig (slot : Slot) (s : State) : Host.Outcome State Fault Refusal :=
  .next (s.opRow slot 0x17 anyOp stampCheck (fun c s =>
    { s with stamps := vmod s.stamps (c.opnd 2 0 6) (fun x => { x with
        chg := some (c.opnd 2 6 7, c.opnd 2 13 1 == 1, slot.val) }) }))

/-- Mappings that wait for a sample boundary take effect; their commands are DONE. -/
def State.stampBoundary (s : State) : State :=
  each (vfind (fun x : StampReg => x.chg.isSome) s.stamps) (fun g s =>
    match (vget s.stamps g).chg with
    | none => s
    | some (d, en, q) =>
      ({ s with stamps := vset s.stamps g { dom := d, en, chg := none } } : State).complete q .done 0) s

end Sys2Proof.Machine
end

