-- ==== Sys2Proof/Machine/Reads.lean ====
section
/-! DEFINITION. Data returned on the memory port (13 R394 to R397), what each read brings to its owner, and the fetch of
the call sheet at bring-up (02 R55, 16 R490). -/

namespace Sys2Proof.Machine
open Sys2Proof

/-! ## The call sheet of bring-up -/

/-- The next bank image of the call sheet being fetched is read; an image that fails before check 8 needs none. -/
def State.bootBanks (s : State) : State :=
  match s.boot.cshImg with
  | some (img, false) =>
    match parseCsh s.pins.cells s.pins.sltCon s.sec.tCrit img with
    | .ok cs =>
      match cs.s2.entries[s.boot.cshBanks.length]? with
      | some e => s.startRead e.addr 8192 (.cshBank none s.boot.cshBanks.length) ownSrc
      | none => s
    | .error _ => s
  | _ => s

/-- A part of the call sheet has been read: its header, then the rest. -/
def State.bootCsh (w : List Word64) (poison : Bool) (s : State) : State :=
  let put := fun (img : List Word64) (s : State) => { s with boot := { s.boot with cshImg := some (img, poison) } }
  match s.boot.cshImg with
  | none =>
    let len := fld (wordAt w 1) 0 32
    let s := put (w.take 8) s
    if !poison && csh1 w && decide (64 < len) then s.startRead (s.boot.cshBase + 64) (len - 64) (.csh none) ownSrc
    else s.bootBanks
  | some (h, _) => (put ((h ++ w).take (fld (wordAt h 1) 0 32 / 8)) s).bootBanks

/-- A bank image of the call sheet has been read; a poisoned one counts as no image. -/
def State.bootBank (w : List Word64) (poison : Bool) (s : State) : State :=
  ({ s with boot := { s.boot with cshBanks := s.boot.cshBanks ++ [if poison then [] else w.take 1024] } } : State).bootBanks

/-! ## What a read brings -/

/-- Words from byte `k` of a list of words onward. -/
def bytesFrom (k : Nat) (w : List Word64) : List Word64 :=
  let l := w.drop (k / 8)
  let r := 8 * (k % 8)
  if r == 0 then l
  else (List.zip l (l.drop 1)).map (fun (p : Word64 × Word64) => (p.1 >>> r) ||| (p.2 <<< (64 - r)))

/-- The consumer index of ring `k` (R403): the first descriptor that a read of the ring still has to bring. -/
def State.consAt (k : Nat) (s : State) : BitVec 32 :=
  let r := vget s.host.rings k
  let away := s.host.reads.filterMap (fun (p : Nat × RdReq) => match p.2.use with
    | .desc j i _ _ => if j == k then some (i - r.cons).toNat else none
    | _ => none)
  match away with
  | [] => r.issued
  | a :: l => r.cons + BitVec.ofNat 32 (l.foldl min a)

/-- Descriptors brought by a fetch: each with the poison of its own beats; the consumer index moves past them (R403). -/
def State.descRead (k : Nat) (idx : BitVec 32) (n age : Nat) (w : List Word64) (bads : List Nat) (s : State) : State :=
  let fs : List Fetched := (List.range n).map (fun i =>
    { ring := k, index := idx + BitVec.ofNat 32 i, words := (w.drop (8 * i)).take 8
      poison := bads.any (fun b => b / 4 == i), age := age + i })
  let cons := s.consAt k
  ({ s with host := { s.host with
      fetched := s.host.fetched ++ fs, rings := vmod s.host.rings k (fun r => { r with cons }) } } : State).writeIndex k cons

/-- The image of a LOAD_BANK from host memory has been read: every cluster that awaits it checks it. -/
def State.bankRead (slot : Nat) (w : List Word64) (poison : Bool) (s : State) : State :=
  match s.cmd? slot with
  | none => s
  | some c => each c.parts (fun n s =>
      s.bankLoaded slot n (bankOf w) (if poison then some (0, .poisoned) else bankCheck (s.sheet.laneOvl n) w)) s

/-- A whole read goes to its owner. -/
def State.deliver (r : RdReq) (s : State) : State :=
  let w := bytesFrom r.skip r.words
  let poison := !r.bads.isEmpty
  match r.use with
  | .desc k idx n age => s.descRead k idx n age w r.bads
  | .ringEntry k => s.ringEntered k w poison
  | .bank slot => s.bankRead slot (w.take 1024) poison
  | .csh none => s.bootCsh w poison
  | .csh (some slot) => s.cshRead slot w poison
  | .cshBank none _ => s.bootBank w poison
  | .cshBank (some slot) _ => s.cshBankRead slot w poison
  | .ctx slot => s.ctxRead slot w poison
  | .pred slot _ => s.predRead slot w poison
  | .reel slot => s.reelRead slot w poison
  | .verdict slot =>
    let va := match s.cmd? slot with
      | some c => c.probeOps.2.2.2
      | none => 0
    s.probeVerdict slot (if poison then none else some (w.getD (va % 16 / 8) 0))
  | .archBank n i => s.archFill n i (w.take 1024) poison
  | .rebank n => s.rebankDone n (w.take 1024) poison
  | .repred n h => s.repredDone n h (w.take 128) poison
  | .drop => s

/-- READ_DATA: beats of one read, in ascending address; `bad` is POIS or ERR on them. A read longer than a transfer goes
on under its ID. -/
def execReadData (pid : PortId) (beats : List Beat) (bad : Bool) (s : State) : Host.Outcome State Fault Refusal :=
  .next (
    if !s.accessible then s
    else match Tab.get? s.host.reads pid with
    | none => s
    | some r =>
      let bs := beats.take r.due
      let k := bs.length
      let at_ := r.words.length / 2
      let words := r.words ++ bs.flatMap (fun (b : Beat) => ([b.setWidth 64, (b >>> 64).setWidth 64] : List Word64))
      let bads := r.bads ++ (if bad then (List.range k).map (fun i => at_ + i) else [])
      let r := { r with addr := r.addr + 16 * k, left := r.left - 16 * k, due := r.due - k, words, bads }
      let keep := fun (r : RdReq) (s : State) => { s with host := { s.host with reads := Tab.put s.host.reads pid r } }
      if 0 < r.due then keep r s
      else if 0 < r.left then
        let r := { r with due := chunkBeats r.addr r.left }
        (keep r s).put (.memRead pid r.addr r.due r.src)
      else ((s.endRead pid).deliver r).settleHost)

/-- Bits written to GAF_CSH_CTRL: GO in step 4 starts the fetch of the image (R56, 16 R490). -/
def State.cshGo (v : Nat) (s : State) : State :=
  if !bit v 0 || s.boot.step != 4 || s.boot.cshState == 1 || s.boot.cshState == 2 then s
  else
    ({ s with boot := { s.boot with
        cshState := 1, cshCheck := 0, halt := false, waitGo := false, cshImg := none, cshBanks := [] } } : State).startRead
      s.boot.cshBase 64 (.csh none) ownSrc

/-- CALL_SHEET_GO: a write to GAF_CSH_CTRL. -/
def execCallSheetGo (id : AccId) (v : Word32) (be : BitVec 4) (s : State) : Host.Outcome State Fault Refusal :=
  .next (s.regWrite (.callSheetGo id v be) id 0x00028 (fun _ s => s.cshGo (enBits v be)))

end Sys2Proof.Machine
end

