-- ==== Sys2Proof/Machine/HostReset.lean ====
section
/-! DEFINITION. The host functional reset (11 R367, 13 R427, 14 R443, 12 R392) and its release. -/

namespace Sys2Proof.Machine
open Sys2Proof

/-- Pending and in-service sources cleared; each pending event that is cleared is counted in LOST (14 R443). -/
def Irq.hostReset (q : Irq) : Irq :=
  { q with
    src := vmap (fun _ (x : IrqSrc) => { x with
      pending := false, target := none, insvc := none, lost := if x.pending then satInc 15 x.lost else x.lost }) q.src
    fires := [] }

/-- The first part of a command that has not ended DONE, in address order. -/
def Cmd.firstBad (c : Cmd) : Option Nat :=
  (sortBy (fun a b : Nat => decide (a < b))
    (c.parts ++ (c.ends.filter (fun e => e.2 != .done)).map (fun e => e.1))).head?

/-- RESULT of a command that a host functional reset ends: its failing domain or cluster (13 Table 13-5). -/
def Cmd.resetRes (c : Cmd) : Nat :=
  match c.firstBad with
  | none => 0
  | some u => if bankOp c.opc then u * 2 ^ 8 else if (c.opc == 2 || c.opc == 3) && decide (c.unit < 0x040) then uDom u * 2 ^ 32 else 0

/-- A slot number that no command has: what is left of a command that has ended names it. -/
def noSlotNum : Nat := 512

/-- A live command ends ABORTED_RESET, and what waits in its name is dropped (R367 step 2). -/
def State.abortReset (slot : Nat) (s : State) : State :=
  match s.cmd? slot with
  | none => s
  | some c =>
    if c.stage == .complete then s
    else
      let s := (s.complete slot .abortedReset c.resetRes).forget slot
      { s with
        cshNew := s.cshNew.filter (fun x => x.1 != slot)
        dom := vmap (fun _ (d : Domain) => { d with cfgWait := d.cfgWait.filter (fun w => w.1 != slot) }) s.dom
        stamps := vmap (fun _ (g : StampReg) => { g with chg := g.chg.filter (fun w => w.2.2 != slot) }) s.stamps
        slt := { s.slt with
          join := s.slt.join.filter (fun j => j.1 != slot), leave := s.slt.leave.filter (fun j => j != slot) }
        ctx := vmap (fun _ (x : Context) => { x with
          loads := x.loads.filter (fun l => l.slot != slot), closing := x.closing.filter (fun q => q != slot) }) s.ctx
        clu := vmap (fun _ (k : Cluster) => { k with
          resetCmd := k.resetCmd.map (fun q => if q == slot then noSlotNum else q) }) s.clu }

/-- A context in plan mode (R367 step 4): preparations withdrawn, notices with cause 10, the watermark at the last shot
played, REACTIVE. -/
def State.resetCtx (c : Nat) (s : State) : State :=
  if !(s.cx c).plan then s.modCx c (fun x => { x with leaving := false })
  else
    let s := ((s.withdrawCtx c).unfeed c).endHolds c
    let s := ((s.noticeAll c 10 s.elapsed).haltPlay c)
    let old := (s.cx c).wm
    let s := s.modCx c (fun x => { x with
      st := .reactive, leaving := false, poisoning := none, wmFrozen := false
      played := x.played.map (fun p => { p with evaluated := true })
      wm := if x.wmStop || x.played.any (fun p => p.notice == .lost) then x.wm else match x.played.getLast? with
        | some p => some (p.seq, p.step)
        | none => x.wm
      wmDirty := x.wmDirty || !x.played.isEmpty })
    let s := if (s.cx c).wm == old then s else s.fire (24 + c)
    s.wmAdvance c

/-- The ramps of R367 step 6: LOGIC to VRESET at SLEW_DEF; any other domain's ramp stops at its present r, rounded, in
one sample. -/
def State.resetRamp (d : Nat) (s : State) : State :=
  match s.sheet.domRec d with
  | none => s
  | some r =>
    if r.dtype == 0 then s.placeDom d { tgt := r.vreset, rate := s.sheet.s2.slewDef, cmd := none, shot := false }
    else if r.dtype == 4 then s
    else
      match s.sheet.domHalves d with
      | [] => s
      | p :: _ =>
        let code := (s.half p.1 p.2).ramp.r.add 2048 / 4096
        s.placeDom d { tgt := code, rate := 200, cmd := none, shot := false, stop := true }

/-- HOST_FUNCTIONAL_RESET: ZN_HRST_N falls; while ZN_RST_N is low the fall has no effect (17 R495). -/
def execHostFunctionalReset (s : State) : Host.Outcome State Fault Refusal :=
  .next (
    if !s.accessible || !s.pins.hrstN then s
    else
      let s := { s with
        pins := { s.pins with hrstN := false, rdy := false }, host := { s.host with reset := true }
        boot := { s.boot with host := true } }
      let s := (s.irqDo Irq.hostReset).wakeAll
      let s := each (s.host.cmds.map (fun p => p.1)) State.abortReset s
      let s := { s with host := { s.host with rings := vmap (fun k (r : Ring) =>
        if k < 32 then { r with arming := false, dis := r.on } else r) s.host.rings } }
      let s := each (s.sheet.cluIxs.filter (fun n => (s.cl n).inReset.isNone)) State.reclaimHost s
      let old := s
      let s := each (List.range 16) State.resetCtx s
      let s := s.slateCtxLeft old
      let s := { s with ch := vmap (fun _ (x : Channel) => { x with fenced := true, issued := min 1 x.jobs.length }) s.ch }
      (each s.sheet.domIxs State.resetRamp s).settleHost)

/-- HOST_RESET_RELEASE: ZN_HRST_N rises: the fences end, and ZN_RDY rises once the records of the reset have been
written. A rise that no reset precedes restores the level alone. -/
def execHostResetRelease (s : State) : Host.Outcome State Fault Refusal :=
  .next (
    if s.pins.hrstN then s
    else
      ({ s with
        pins := { s.pins with hrstN := true }
        ch := vmap (fun _ (x : Channel) => { x with fenced := false }) s.ch } : State).freeHeld.settleHost)

end Sys2Proof.Machine
end

