-- ==== Sys2Proof/Machine/IrqRows.lean ====
section
/-! DEFINITION. The interrupt controller's registers (14 R437 to R442): masks, pending bits, vectors, acknowledgements,
the two lines of a processor and its moderation timer. -/

namespace Sys2Proof.Machine
open Sys2Proof

/-- Sources pending at processor `p` in a class. -/
def Irq.at_ (q : Irq) (p : Nat) (fast : Bool) : List Nat :=
  vfind (fun x : IrqSrc => x.pending && x.target == some p && x.fast == fast) q.src

/-- Sources in service at processor `p` in a class. -/
def Irq.inSvc (q : Irq) (p : Nat) (fast : Bool) : List Nat :=
  vfind (fun x : IrqSrc => x.insvc == some p && x.fast == fast) q.src

/-- MOD_T of a processor. -/
def IrqProc.modT (x : IrqProc) : Nat := fld x.mod.toNat 0 10
/-- MOD_CNT of a processor. -/
def IrqProc.modCnt (x : IrqProc) : Nat := fld x.mod.toNat 10 6

/-- ZN_FINT[p] (R440). -/
def Irq.fint (q : Irq) (p : Nat) : Bool := !(q.at_ p true).isEmpty

/-- ZN_INT[p] (R440). -/
def Irq.int (q : Irq) (p : Nat) : Bool :=
  let x := vget q.proc p
  let l := q.at_ p false
  let m := l.filter (fun i => (vget q.src i).modr)
  !l.isEmpty && (l.any (fun i => !(vget q.src i).modr) || x.modT == 0 || x.expired ||
    (x.modCnt != 0 && decide (x.modCnt ≤ m.length)) || x.pri.getLsbD 4)

/-- The level of a processor's line: ZN_FINT or ZN_INT. -/
def Irq.line (q : Irq) (p : Nat) (fast : Bool) : Bool := if fast then q.fint p else q.int p

/-- The source that a vector read takes: the best PRIO, the lowest number among equals (R441). -/
def Irq.best (q : Irq) (p : Nat) (fast : Bool) : Option Nat :=
  match q.at_ p fast with
  | [] => none
  | i :: t => some (t.foldl (fun b j => if (vget q.src j).prio < (vget q.src b).prio then j else b) i)

/-- A vector read: the word returned, and the source moved to in service at `p` (R441). -/
def State.vecTake (p : Nat) (fast : Bool) (s : State) : Nat × State :=
  match s.irq.best p fast with
  | none => (0, s)
  | some i =>
    (i + 256, s.irqDo (fun q => { q with
      src := vmod q.src i (fun x => { x with pending := false, target := none, insvc := some p })
      fires := q.fires.filter (fun f => f.src != i) }))

/-- An acknowledgement (R441). -/
def Irq.ack (p i : Nat) (fast : Bool) (q : Irq) : Irq :=
  let x := vget q.src i
  if x.insvc == some p && x.fast == fast then { q with src := vset q.src i { x with insvc := none } }
  else if fast then { q with proc := vmod q.proc p (fun y => { y with fackBad := satInc 8 y.fackBad }) }
  else { q with proc := vmod q.proc p (fun y => { y with ackBad := satInc 8 y.ackBad }) }

/-- The firings of source `i` at an instant. -/
def Irq.firedAt (q : Irq) (now i : Nat) : Option Fired := q.fires.find? (fun f => f.src == i && f.at_ == now)

/-- An acknowledgement or a clear of source `i` acts before the firings of its Gaffer cycle (R442): they meet the source as it
leaves it. -/
def Irq.before (now i : Nat) (f : Irq → Irq) (q : Irq) : Irq :=
  match q.firedAt now i with
  | none => f q
  | some x =>
    let q0 := { q with src := vmod q.src i (fun y =>
      { y with pending := x.pending, target := if x.pending then y.target else none, lost := x.lost, coal := x.coal }) }
    let q1 := f q0
    if vget q1.src i == vget q0.src i then { q1 with src := q.src }
    else (List.range x.n).foldl (fun q _ => q.fire i) q1

/-- A pending event cleared by IRQ_PEND_CLR (R442). -/
def Irq.clear (i : Nat) (q : Irq) : Irq :=
  let x := vget q.src i
  if x.pending then { q with src := vset q.src i { x with pending := false, target := none, lost := satInc 15 x.lost } }
  else q

/-- A source masked: it loses its target; source 20 cannot be masked (Table 14-4). -/
def Irq.mask (i : Nat) (q : Irq) : Irq :=
  if i == 20 then q else { q with src := vmod q.src i (fun x => { x with masked := true, target := none }) }

/-- A source unmasked and routed again (R439). -/
def Irq.unmask (i : Nat) (q : Irq) : Irq :=
  ({ q with src := vmod q.src i (fun x => { x with masked := false }) } : Irq).route i

/-- The sources that a written word of the mask or pending registers names. -/
def srcsOf (w : Nat) (v : Word32) (be : BitVec 4) : List Nat := (bitsIn 32 (enBits v be)).map (fun b => 32 * w + b)

/-- IRQ_VEC_READ (R441). -/
def execIrqVecRead (id : AccId) (p : ProcIx) (s : State) : Host.Outcome State Fault Refusal :=
  .next (s.regReadDo (.irqVecRead id p) id (0x31000 + 16 * p) (fun _ s => s.vecTake p false))

/-- IRQ_FVEC_READ (R441). -/
def execIrqFvecRead (id : AccId) (p : ProcIx) (s : State) : Host.Outcome State Fault Refusal :=
  .next (s.regReadDo (.irqFvecRead id p) id (0x31200 + 16 * p) (fun _ s => s.vecTake p true))

/-- IRQ_ACK (R441). A write that does not enable the byte of SRC writes no source number. -/
def execIrqAck (id : AccId) (p : ProcIx) (v : Word32) (be : BitVec 4) (s : State) : Host.Outcome State Fault Refusal :=
  .next (s.regWrite (.irqAck id p v be) id (0x31004 + 16 * p) (fun _ s =>
    let i := enBits v be % 256
    s.irqDo (Irq.before s.elapsed i (Irq.ack p i false))))

/-- IRQ_FACK (R441). -/
def execIrqFack (id : AccId) (p : ProcIx) (v : Word32) (be : BitVec 4) (s : State) :
    Host.Outcome State Fault Refusal :=
  .next (s.regWrite (.irqFack id p v be) id (0x31204 + 16 * p) (fun _ s =>
    let i := enBits v be % 256
    s.irqDo (Irq.before s.elapsed i (Irq.ack p i true))))

/-- IRQ_PEND_SET (R442): every 1 acts as a firing. -/
def execIrqPendSet (id : AccId) (w : Fin 8) (v : Word32) (be : BitVec 4) (s : State) :
    Host.Outcome State Fault Refusal :=
  .next (s.regWrite (.irqPendSet id w v be) id (0x30440 + 4 * w) (fun _ s => each (srcsOf w v be) State.fire s))

/-- IRQ_PEND_CLR (R442). -/
def execIrqPendClr (id : AccId) (w : Fin 8) (v : Word32) (be : BitVec 4) (s : State) :
    Host.Outcome State Fault Refusal :=
  .next (s.regWrite (.irqPendClr id w v be) id (0x30460 + 4 * w) (fun _ s => each (srcsOf w v be)
    (fun i s => s.irqDo (Irq.before s.elapsed i (Irq.clear i))) s))

/-- IRQ_MASK_SET (R438, R439). -/
def execIrqMaskSet (id : AccId) (w : Fin 8) (v : Word32) (be : BitVec 4) (s : State) :
    Host.Outcome State Fault Refusal :=
  .next (s.regWrite (.irqMaskSet id w v be) id (0x30400 + 4 * w) (fun _ s => each (srcsOf w v be) (fun i s => s.irqDo (Irq.mask i)) s))

/-- IRQ_MASK_CLR (R439). -/
def execIrqMaskClr (id : AccId) (w : Fin 8) (v : Word32) (be : BitVec 4) (s : State) :
    Host.Outcome State Fault Refusal :=
  .next (s.regWrite (.irqMaskClr id w v be) id (0x30420 + 4 * w) (fun _ s => each (srcsOf w v be) (fun i s => s.irqDo (Irq.unmask i)) s))

/-- MODERATION_TIMER (R440): the timer of `p` reaches MOD_T. -/
def execModerationTimer (p : ProcIx) (s : State) : Host.Outcome State Fault Refusal :=
  .next (
    let x := vget s.irq.proc p
    match x.timer with
    | some t =>
      if x.modT == 0 then s
      else (s.advanceTo (t + 100 * x.modT)).irqDo (fun q =>
        { q with proc := vmod q.proc p (fun y => { y with expired := true }) })
    | none => s)

/-- PROCESSOR_IDLE (R439, R440): ZN_PRI[p] takes a new value. Targets already chosen are kept. -/
def execProcessorIdle (p : ProcIx) (pri : BitVec 5) (s : State) : Host.Outcome State Fault Refusal :=
  .next (s.irqDo (fun q => { q with proc := vmod q.proc p (fun y => { y with pri }) }))

end Sys2Proof.Machine
end

