-- ==== Sys2Proof/Machine/RegValues.lean ====
section
/-! DEFINITION. What a read of every set-up register returns (03 R100, 04 R147, 05 R171, 06 R213, 07 R246, 08 R278,
09 R306, 10 R339, 11 R373, 12 R393, 13 R428, 14 R459, 15 R478, 16 R489 to R493), page by page. -/

namespace Sys2Proof.Machine
open Sys2Proof

/-- A list of flags as a mask, the first at bit 0. -/
def flags (l : List Bool) : Nat := pack (l.map (fun b => (1, b2n b)))

/-- A number held within a field of `w` bits. -/
def capW (w x : Nat) : Nat := min (2 ^ w - 1) x

/-! ## Pages 0 and 1 -/

/-- GAF_HWCFG (16 R489). -/
def State.vHwcfg (s : State) : Nat :=
  let l := s.pins.cells.toList
  pack [(7, (l.filter (fun m => m != 0)).length), (11, sumN (l.map (fun m => (bitsIn 16 m.toNat).length))),
    (4, s.pins.sltCon.toNat)]

/-- GAF_CLU_PRES_LO or _HI (16 R489). -/
def State.vPres (s : State) (hi : Bool) : Nat :=
  flags ((List.range 32).map (fun i => s.present (i + if hi then 32 else 0)))

/-- GAF_BOOT_STAT (11 R373). -/
def State.vBoot (s : State) : Nat :=
  let b := s.boot
  pack [(4, b.step), (1, b2n b.halt), (1, b2n b.waitVin), (1, b2n b.waitGo), (5, b.wave), (20, capW 20 b.us)]

/-- GAF_RING_EN and GAF_EVR_CTRL read the rings that are enabled (13 R428). -/
def State.vRings (s : State) (lo n : Nat) : Nat :=
  flags ((List.range n).map (fun i => (vget s.host.rings (lo + i)).on))

/-- GAF_TAG_GEN[m] (13 R428). -/
def State.vTagGen (s : State) (m : Nat) : Nat :=
  pack ((List.range 8).map (fun i => (3, Tab.getN s.host.gens (8 * m + i))) ++
    (List.range 8).map (fun i => (1, b2n (s.cmd? (8 * m + i)).isSome)))

/-- GAF_HIF_CNT (13 R428). -/
def State.vHif (s : State) : Nat :=
  pack [(10, s.host.cmds.length), (8, s.host.dbBad), (8, s.host.dbDrop), (5, s.host.portErr)]

/-- GAF_EVR_STAT (13 R428). -/
def State.vEvr (s : State) : Nat :=
  pack [(11, min 2047 (s.bufN + s.host.held.length)), (1, b2n (s.host.ovf.toList.any (fun l => !l.isEmpty))), (12, s.host.lostCnt),
    (7, s.host.unrouted)]

/-- GAF_RING_IDX[k]: the block-side index (13 R403). -/
def Ring.blockIdx (k : Nat) (r : Ring) : Nat := if k < 16 then r.cons.toNat else r.acked.toNat

/-- GAF_CTX_STAT[c] (06 R213). -/
def Context.vStat (x : Context) : Nat :=
  let st := match x.st with
    | .closed => 0 | .reactive => 1 | .armed => 2 | .coasting => 3
  pack [(2, st), (1, b2n x.pageWait), (1, b2n x.poisoned), (8, x.curReel), (4, x.openN),
    (1, b2n (x.st != .closed && x.recd.predAddr != 0))]

/-- GAF_CTX_CNT[c] (06 R213). -/
def Context.vCnt (x : Context) : Nat :=
  pack [(6, x.late), (6, x.miss), (6, x.unk), (6, x.pageLate), (7, x.rtMerge)]

/-- GAF_CUE_STAT (06 R213). -/
def State.vCue (s : State) : Nat := pack [(16, s.cueDrop), (5, s.cueQ.length), (9, s.cueSkip)]

/-- GAF_DOM_PWR[d] (11 R373). -/
def State.vDomPwr (s : State) (d : Nat) : Nat :=
  let x := s.dm d
  pack [(1, b2n (x.stages == 8)), (4, x.stages), (1, b2n x.nbWait), (1, b2n x.stretched), (1, b2n x.heldOff)]

/-! ## Page 2 -/

/-- CLU[n].PC_STAT[k] (03 R100). While no cell of the cluster switches it has no master, and SYNC_LOCK keeps its last value: the
spec does not say what it reads then. DESIGN CHOICE: log entry 108. -/
def Cluster.vCell (c : Cluster) (k : Nat) : Nat :=
  let x := vget c.cells k
  pack [(4, x.st.code), (1, b2n x.shadow), (1, b2n c.carrier.locked), (1, b2n x.bits.lim), (1, b2n x.bits.senseSusp),
    (1, b2n x.bits.kick), (1, b2n x.bits.trunc), (1, b2n x.bits.shunt), (1, b2n x.bits.prebiasHigh), (3, x.cause),
    (1, b2n x.safeValid), (4, capW 4 x.prot.retry), (12, x.safeCode)]

/-- CLU[n].CE_STAT (04 R147). -/
def Cluster.vCe (c : Cluster) : Nat :=
  let x := c.ctl
  pack [(1, b2n x.activeB), (1, b2n x.loadBusy), (1, b2n x.swap.isSome), (1, b2n x.active.red), (1, b2n x.redMism),
    (1, b2n x.swapClamp), (1, b2n x.inactive.valid), (1, 0), (8, x.active.cls)]

/-- One half of CE_RAMP: r rounded to a code, r off its target, and a command that awaits completion (04 R147). -/
def Half.vRamp (pend : Bool) (h : Half) : Nat :=
  let x := h.ramp
  pack [(12, capW 12 ((x.r + 2048) / 4096)), (1, b2n (x.r != 4096 * x.tgt)),
    (1, b2n (pend || x.cmd.isSome || x.chg.any (fun c => c.cmd.isSome)))]

/-- CLU[n].CE_RAMP; the upper half of an unsplit cluster shows RREF_LO (04 R147). -/
def State.vCeRamp (s : State) (n : Nat) : Nat :=
  let h1 := if s.sheet.isSplit n then 1 else 0
  let pend := fun h => match s.sheet.halfDom n h with
    | some d => (s.dm d).cmd.isSome
    | none => false
  pack [(14, (s.half n 0).vRamp (pend 0)), (14, (s.half n h1).vRamp (pend h1))]

/-- CLU[n].CM_STAT (05 R171). -/
def Cluster.vCm (c : Cluster) : Nat :=
  pack [(16, flags (c.ctl.lanes.toList.map (fun l => l.iSusp))),
    (8, flags ((List.range 8).map (fun j => (vget c.ctl.lanes j).vSub || (vget c.ctl.lanes (j + 8)).vSub))),
    (7, c.busMiss)]

/-- CLU[n].PRED_STAT (06 R213). -/
def PredUnit.vStat (p : PredUnit) : Nat :=
  pack [(8, p.rangeCnt), (8, p.csumCnt), (8, p.skipCnt), (1, b2n p.lo.stop), (1, b2n p.hi.stop)]

/-- CLU[n].CRD_STAT (07 R246). -/
def Cluster.vCrd (c : Cluster) : Nat :=
  pack [(11, c.led.grants.length), (1, b2n c.led.sliced), (9, c.led.pend.length), (1, b2n (vget c.halves 0).broll.hold),
    (1, b2n (vget c.halves 1).broll.hold), (1, b2n c.led.quietBy.isSome), (1, b2n c.led.holdShort)]

/-- CLU[n].CRD_CNT (07 R246). -/
def Ledger.vCnt (l : Ledger) : Nat :=
  pack [(8, l.stale), (8, l.overRet), (8, l.clamp), (6, l.bad), (1, b2n l.resShort)]

/-- CLU[n].INFO, held in the Gaffer (16 R491). -/
def State.vInfo (s : State) (n : Nat) : Nat :=
  let cells : Nat := match s.sheet.cluRec n with
    | some r => r.cells.toNat
    | none => 0
  pack [(1, b2n (s.present n)), (1, b2n (s.sheet.isSplit n)), (1, b2n ((s.cl n).woke && (s.cl n).clock == .running)),
    (1, b2n (s.shadowOnly n)), (16, cells)]

/-! ## Page 3 -/

/-- SNS[n].STAT (09 R306). -/
def Sense.vStat (x : Sense) : Nat :=
  pack [(4, x.sliceFail.toNat), (4, flags (x.corr.toList.map (fun c => c.lim))), (1, b2n x.chkFail),
    (1, b2n (x.susp.getLsbD 32)), (1, b2n (x.open_.getLsbD 32)), (5, 0), (6, x.ow.ch)]

/-- SNS[n].URG (09 R306). -/
def Sense.vUrg (x : Sense) : Nat :=
  pack [(6, x.urgCh), (1, 0), (1, b2n x.urgBusy), (1, b2n x.urgDone), (7, 0), (16, x.urgRes.toNat)]

/-! ## Pages 4 and 5 -/

/-- The maximum over a domain's clusters (10 R312), 0 without one. -/
def State.domTMax (s : State) (d : Nat) : Int :=
  match (s.sheet.domHalves d).map (fun p => (s.cl p.1).therm.tMax) with
  | [] => 0
  | t :: l => l.foldl max t

/-- THM_CLU_ST[n] (10 R339). -/
def Therm.vSt (t : Therm) : Nat :=
  pack [(8, flags (t.sens.toList.map (fun x => x.broken))), (8, flags (t.sens.toList.map (fun x => x.elec))),
    (1, b2n t.allBad), (1, b2n t.fast)]

/-- THM_RAW[m] (10 R339). -/
def State.vRaw (s : State) (m : Nat) : Nat :=
  let t := fun (j : Nat) => tc 16 (vget (s.cl (m / 4)).therm.sens (2 * (m % 4) + j)).t
  t 0 + 65536 * t 1

/-- CAP_DOM[d] (10 R339). -/
def State.vCapDom (s : State) (d : Nat) : Nat :=
  let t := (s.dm d).thr
  pack [(10, s.demand d / 256), (6, t.bub), (4, t.skip), (2, t.div), (3, t.vf)]

/-- CAP_PWR[d]: the share in force and the power of the last interval, 1/16 W (10 R339). -/
def State.vCapPwr (s : State) (d : Nat) : Nat :=
  let t := (s.dm d).thr
  pack [(16, capW 16 (16 * t.share.1 / t.share.2)), (16, capW 16 (16 * t.power / 65536000))]

/-- CAP_FMAX[d] (10 R339). -/
def State.vCapFmax (s : State) (d : Nat) : Nat :=
  let logic := match s.sheet.domRec d with
    | some r => r.dtype == 0
    | none => false
  pack [(12, if logic then (s.dm d).thr.fceil else 0xFFF),
    (16, maxN ((s.sheet.domHalves d).map (fun p => (s.cl p.1).therm.a)))]

/-! ## Pages 6 to 9 -/

/-- One word of a mask over the 256 sources (14 R459). -/
def Irq.word (q : Irq) (w : Nat) (p : IrqSrc → Bool) : Nat :=
  flags ((List.range 32).map (fun b => p (vget q.src (32 * w + b))))

/-- IRQ_STAT[p] or IRQ_FSTAT[p] (14 R459). -/
def Irq.vStat (q : Irq) (p : Nat) (fast : Bool) : Nat :=
  let x := vget q.proc p
  pack [(1, b2n (q.line p fast)), (9, (q.at_ p fast).length), (9, (q.inSvc p fast).length),
    (8, if fast then x.fackBad else x.ackBad)]

/-- FLT_FIRST_A (14 R459). -/
def FirstErr.vA (f : FirstErr) : Nat :=
  let sc : Nat × Nat × Nat := match f.sc with
    | .unit u => (u, 0, 0)
    | .ctx c => (0, 1, c)
  pack [(1, b2n f.valid), (3, f.cls), (12, f.code), (11, sc.1), (1, sc.2.1), (4, sc.2.2)]

/-- FLT_FIRST_C (14 R459). -/
def FirstErr.vC (f : FirstErr) : Nat := pack [(16, f.addr / 2 ^ 32), (8, f.master), (3, f.acc), (5, f.multi)]

/-- NVR_STAT (14 R459). -/
def Nv.vStat (x : Nv) : Nat :=
  pack [(1, b2n x.ready), (1, b2n x.addr4), (1, b2n x.erasing), (6, x.staged.length), (1, b2n x.replay), (14, 0),
    (7, x.lost)]

/-- SLT_STAT (08 R278). -/
def State.vSlt (s : State) : Nat :=
  let x := s.slt
  pack [(2, s.role), (1, b2n x.joined), (1, b2n x.relay), (1, b2n s.slateLocked), (1, b2n x.open_),
    (1, b2n (decide (16 < x.n))), (1, b2n x.lost), (4, x.level), (1, 0), (13, x.n), (4, x.ctx)]

/-- SLT_LINK[p] (08 R278). -/
def State.vLink (s : State) (p : Nat) : Nat :=
  let x := vget s.slt.ports p
  let fl := if s.faceChild p then x.flight else s.slt.time.flight
  pack [(2, x.st), (1, b2n (s.role != 0 && s.faceChild p)), (1, b2n x.incl), (12, capW 12 fl), (4, x.excl), (12, x.sub)]

/-- SLT_CNT (08 R278). -/
def Slate.vCnt (x : Slate) : Nat :=
  pack [(8, x.abortCnt), (8, x.skipCnt), (6, x.raceCnt), (6, x.mkErr), (1, b2n x.lateRel), (1, b2n x.earlyRel)]

/-! ## Pages 10, 11 and 31 -/

/-- Good DQ lanes of a channel: those not failed, once it has trained; none before (12 R393). -/
def State.goodDq (s : State) (c : Nat) : Nat :=
  let x := s.chan c
  let used := if c < 64 then (s.sheet.cluRec c).isSome else s.csh.isSome
  if used && x.st != 0 then 80 - (bitsIn 80 x.dqFail.toNat).length else 0

/-- Clock bonds lost, by polarity (12 R393). -/
def Channel.ckLost (x : Channel) : List Bool := (List.range 4).map (fun i => x.ckFail.getLsbD (2 * i) || x.ckFail.getLsbD (2 * i + 1))

/-- VRT_CH_STAT[c] (12 R393). -/
def State.vChan (s : State) (c : Nat) : Nat :=
  let x := s.chan c
  pack [(2, x.st), (4, x.map.length), (7, s.goodDq c), (1, b2n (x.caFail.toNat % 512 != 0)), (1, b2n (x.ckLost.any (fun b => b))),
    (1, b2n x.vudcLost), (1, b2n (x.capFail && decide (c < 64))), (9, x.capK)]

/-- VRT_FAIL[c][w] (12 R393). -/
def Channel.vFail (x : Channel) (w : Nat) : Nat :=
  if w < 2 then fld x.dqFail.toNat (32 * w) 32
  else pack [(16, fld x.dqFail.toNat 64 16), (10, x.caFail.toNat), (4, flags x.ckLost)]

/-- VRT_CNT[c] (12 R393). -/
def Channel.vCnt (x : Channel) : Nat :=
  pack [(16, x.corr), (6, x.uncorr), (4, x.caErr), (3, x.fencePoison), (2, x.capSusp)]

/-- SEC_VIOL (15 R478). -/
def Secure.vViol (x : Secure) : Nat := pack [(24, x.violCnt), (5, x.violId), (2, x.violKind)]

/-- SEC_STAT (15 R478). -/
def Secure.vStat (x : Secure) : Nat := flags [x.filled, x.wiped, x.tamper, x.lcFail, x.refill]

/-- LGC_STAT (16 R493). -/
def State.vLegacy (s : State) : Nat :=
  flags [s.pins.rdy, s.flt.fatal, decide (3 ≤ s.telFault 0), s.trip, s.vin.warn]

/-- LGC_RAIL[r], from the latest broadcast (16 R493). CURRENT counts whole 125 mA, rounded down: R493 states no rounding.
DESIGN CHOICE: log entry 121. -/
def State.vRail (s : State) (d : Nat) : Nat :=
  let b := (s.dm d).bc
  pack [(12, s.telSet d), (1, b2n ((s.dm d).stages == 8)), (3, s.telFault (uDom d)), (16, capW 16 (b.current.toNat / 125))]

/-- LGC_SNS_DATA (09 R306). -/
def Legacy.vData (x : Legacy) : Nat := pack [(16, x.res.toNat), (1, b2n x.valid), (1, b2n x.ovr)]

/-! ## Every register -/

/-- A latched pair (16 R484): a read of the low half latches the upper half for requester `id`, a read of the upper
half returns that latch. -/
def State.pairRead (id key v : Nat) (hi : Bool) (s : State) : Nat × State :=
  if hi then ((Tab.getD s.latches (512 * id + key) (0 : Word32)).toNat, s)
  else (v % 2 ^ 32, { s with latches := Tab.put s.latches (512 * id + key) (BitVec.ofNat 32 (v / 2 ^ 32)) })

/-- What a read of a register returns, and the effect of the read, for requester `id`. -/
def State.regRead (id : Nat) (r : Reg) (s : State) : Nat × State :=
  match r with
  | .time hi => s.pairRead id 0 s.elapsed hi
  | .epoch hi => s.pairRead id 1 s.epoch.toNat hi
  | .firstT hi => s.pairRead id 2 s.flt.first.time hi
  | .capRsn i hi => s.pairRead id (3 + i) (vget s.pow.dur i) hi
  | .eneCtx c hi => s.pairRead id (122 + c) (vget s.pow.energyCtx c) hi
  | .eneQ q hi => s.pairRead id (138 + q) (Tab.getN s.pow.energyQ q / 65536) hi
  | .eneChip hi => s.pairRead id 394 (s.pow.energyChip / 65536) hi
  | .vec p => s.vecTake p false
  | .fvec p => s.vecTake p true
  | .qHi n => (wordAt (s.cl n).sense.queue 0 / 2 ^ 32, s.queuePop n)
  | .lgcData => (s.legacy.vData, { s with legacy := { s.legacy with valid := false } })
  | .id => (0x301, s)
  | .hwcfg => (s.vHwcfg, s)
  | .cluPres hi => (s.vPres hi, s)
  | .bootStat => (s.vBoot, s)
  | .rstCause => (s.regRstCause, s)
  | .cshBase hi => (if hi then s.boot.cshBase / 2 ^ 32 else s.boot.cshBase, s)
  | .cshCtrl => (0, s)
  | .cshStatus => (s.boot.cshCheck + 16 * s.boot.cshState, s)
  | .cshSeq => (s.cseq, s)
  | .vinStat => (s.regVinStat, s)
  | .bsnStat => (pack [(2, s.board.st0), (2, s.board.st1), (12, 0), (16, s.vPkg)], s)
  | .memCnt => (pack [(16, s.sramCorr), (8, s.secCorr), (7, s.retCorr)], s)
  | .ringTbl hi => (if hi then s.host.tbl / 2 ^ 32 else s.host.tbl, s)
  | .ringEn => (s.vRings 0 32, s)
  | .ringDis => (0, s)
  | .evrCtrl => (s.vRings 32 4, s)
  | .ringErr => (s.host.errRing + 64 * s.host.errCode, s)
  | .hifCnt => (s.vHif, s)
  | .evrStat => (s.vEvr, s)
  | .ringIdx k => ((vget s.host.rings k).blockIdx k, s)
  | .tagGen m => (s.vTagGen m, s)
  | .ctxStat c => ((s.cx c).vStat, s)
  | .ctxShot c => ((s.cx c).cur.getD 0, s)
  | .ctxWm c => ((((s.cx c).wm.map (fun p => p.1)).getD 0) % 2 ^ 32, s)
  | .ctxCnt c => ((s.cx c).vCnt, s)
  | .cueStat => (s.vCue, s)
  | .crdDom d => (capW 16 (s.dm d).bf + 65536 * capW 16 (s.dm d).wh, s)
  | .crdCnt => (pack [(24, s.reclaim), (4, s.ledgerErr)], s)
  | .domPwr d => (s.vDomPwr d, s)
  | .pcStat n k => ((s.cl n).vCell k, s)
  | .ceStat n => ((s.cl n).vCe, s)
  | .ceWin n => (pack ((s.cl n).ctl.lanes.toList.map (fun l => (2, l.win))), s)
  | .ceRamp n => (s.vCeRamp n, s)
  | .ceCnt n => ((s.cl n).ctl.satCnt + 65536 * (s.cl n).ctl.mismCnt, s)
  | .shrCfg n => ((s.cl n).shadow.shr.toNat, s)
  | .cmCfg n => ((s.cl n).shadow.cm.toNat, s)
  | .prepCfg n => ((s.cl n).shadow.prep.toNat, s)
  | .qCtrl n => ((s.cl n).shadow.qCtrl.toNat, s)
  | .qMask n => ((s.cl n).shadow.qMask.toNat, s)
  | .cmStat n => ((s.cl n).vCm, s)
  | .predStat n => ((s.cl n).pred.vStat, s)
  | .sbdStat n => (pack [(16, (s.cl n).pred.digDrop), (8, (s.cl n).pred.fcClamp), (7, (s.cl n).pred.fftClamp)], s)
  | .crdStat n => ((s.cl n).vCrd, s)
  | .crdAcc n h => (capW 16 (s.half n h).acc.ord + 65536 * capW 16 (s.half n h).acc.res, s)
  | .crdAux n h => (capW 10 (s.half n h).acc.bh + 1024 * capW 16 (s.half n h).acc.debt, s)
  | .cluCrdCnt n => ((s.cl n).led.vCnt, s)
  | .cluMemCnt n => (pack [(8, (s.cl n).stateCorr), (8, (s.cl n).coefCorr), (8, (s.cl n).ledgCorr), (7, (s.cl n).marchFail)], s)
  | .info n => (s.vInfo n, s)
  | .snsStat n => ((s.cl n).sense.vStat, s)
  | .snsSusp n => (fld (s.cl n).sense.susp.toNat 0 32, s)
  | .snsOpen n => (fld (s.cl n).sense.open_.toNat 0 32, s)
  | .qStat n => (pack [(9, (s.cl n).sense.queue.length), (1, b2n (s.cl n).sense.ovr), (6, 0), (16, (s.cl n).sense.qLost)], s)
  | .qLo n => (wordAt (s.cl n).sense.queue 0 % 2 ^ 32, s)
  | .urg n => ((s.cl n).sense.vUrg, s)
  | .snsCnt n => (pack [(16, (s.cl n).sense.heldCnt), (8, (s.cl n).sense.trigMiss), (6, (s.cl n).sense.urgDrop)], s)
  | .thmClu n => (tc 16 (s.cl n).therm.tMax + 65536 * tc 16 (s.cl n).therm.tMin, s)
  | .thmCluSt n => ((s.cl n).therm.vSt, s)
  | .thmRaw m => (s.vRaw m, s)
  | .thmDom d => (tc 16 (s.domTMax d), s)
  | .thmChip => (s.regThmChip, s)
  | .capDom d => (s.vCapDom d, s)
  | .capPwr d => (s.vCapPwr d, s)
  | .capFmax d => (s.vCapFmax d, s)
  | .capThr h => ((vget s.pins.thr h).toNat, s)
  | .srcCfg i => ((vget s.irq.src i).cfg.toNat, s)
  | .maskSet w | .maskClr w => (s.irq.word w (fun x => x.masked), s)
  | .pendSet w | .pendClr w => (s.irq.word w (fun x => x.pending), s)
  | .insvc w => (s.irq.word w (fun x => x.insvc.isSome), s)
  | .procEn => (s.irq.procEn.toNat, s)
  | .srcCnt i => ((vget s.irq.src i).lost + 2 ^ 15 * (vget s.irq.src i).coal, s)
  | .ack _ | .fack _ => (0, s)
  | .stat p => (s.irq.vStat p false, s)
  | .fstat p => (s.irq.vStat p true, s)
  | .mod_ p => ((vget s.irq.proc p).mod.toNat, s)
  | .fltMap => (s.flt.map.toNat, s)
  | .fltStat => (pack [(1, b2n s.flt.fatal), (1, b2n s.factory), (8, s.flt.qLost)], s)
  | .firstA => (s.flt.first.vA, s)
  | .firstB => (s.flt.first.addr, s)
  | .firstC => (s.flt.first.vC, s)
  | .fltInj => (if s.factory then s.flt.injReg.toNat else 0, s)
  | .fltInjArg => (if s.factory then s.flt.injArg.toNat else 0, s)
  | .nvStat => (s.nv.vStat, s)
  | .nvSeq => (s.nv.seq, s)
  | .nvPos => (s.nv.pos, s)
  | .nvBase => (s.nv.base.toNat, s)
  | .sltStat => (s.vSlt, s)
  | .sltLink p => (s.vLink p, s)
  | .sltTiming => (pack [(12, s.slt.reach), (12, if s.role == 2 then s.slt.rlead else 0)], s)
  | .sltCnt => (s.slt.vCnt, s)
  | .vrtCfg => (s.vrtCfg.toNat, s)
  | .vrtCap => (s.vrtCap.toNat, s)
  | .chStat c => (s.vChan c, s)
  | .chFail c w => ((s.chan c).vFail w, s)
  | .chCnt c => ((s.chan c).vCnt, s)
  | .chCap n => ((s.chan n).cMin + 4096 * (s.chan n).fRes, s)
  | .lc => (s.sec.lc, s)
  | .lcReq => (0, s)
  | .secCtrl => (b2n s.sec.lock, s)
  | .secStat => (s.sec.vStat, s)
  | .secViol => (s.sec.vViol, s)
  | .prot i w => ((vget (vget s.sec.prot i) w).toNat, s)
  | .lgcId => (0x20301, s)
  | .lgcStat => (s.vLegacy, s)
  | .lgcRail d => (s.vRail d, s)
  | .lgcSel => (s.legacy.sel.toNat, s)

/-- PAIR_LO_READ: a read of a register by requester `id` (16 R484); of a low half it latches the upper half, and every
other register answers as its own rule says. -/
def execPairLoRead (id : AccId) (off : BitVec 20) (s : State) : Host.Outcome State Fault Refusal :=
  .next (s.regReadDo (.pairLoRead id off) id off.toNat (State.regRead id))

/-- QUEUE_HEAD_READ: SNS[n].Q_HI (09 R300). -/
def execQueueHeadRead (id : AccId) (n : CluIx) (s : State) : Host.Outcome State Fault Refusal :=
  .next (s.regReadDo (.queueHeadRead id n) id (0x18024 + 0x80 * n) (State.regRead id))

/-- LEGACY_DATA_READ: LGC_SNS_DATA (09 R301). -/
def execLegacyDataRead (id : AccId) (s : State) : Host.Outcome State Fault Refusal :=
  .next (s.regReadDo (.legacyDataRead id) id 0xF8104 (State.regRead id))

end Sys2Proof.Machine
end

