-- ==== Sys2Proof/Machine/RegWrites.lean ====
section
/-! DEFINITION. What a write to every set-up register does (16 R480 to R486), with the injections of FLT_INJ (14 R458),
and the commands that are such writes. -/

namespace Sys2Proof.Machine
open Sys2Proof

/-! ## Fault injection (14 R458, Table 14-8) -/

/-- Codes whose DETAIL Table 14-2 gives a meaning: in an injected raise it is free. -/
def fltDetailed (code : Nat) : Bool :=
  [0x001, 0x002, 0x006, 0x011, 0x012, 0x015, 0x020, 0x022, 0x024, 0x025, 0x026, 0x028, 0x029, 0x02C, 0x02D, 0x03B, 0x041,
    0x043, 0x044, 0x049, 0x04A, 0x04B].contains code

/-- The park, shutdown or latch that the raising rule of a DEGRADED code sets for its unit (14 R431, R458). A code scoped to a
cluster, a channel or the block is raised alone: log entry 67. -/
def State.injectActs (code unit : Nat) (s : State) : State :=
  match uKind unit with
  | .cell n k =>
    match code with
    | 0x001 => s.cellEvent n k (fun c => { c.toDisabled s.elapsed 1 with pass := false })
    | 0x002 => (s.cellEvent n k (fun c => c.toDisabled s.elapsed 2)).phaseTrig n k s.elapsed
    | 0x003 => s.cellEvent n k (fun c => c.toDisabled s.elapsed 3)
    | 0x004 => s.cellEvent n k (fun c => c.toDisabled s.elapsed 4)
    | 0x005 => s.cellEvent n k (fun c => { c.stageOff s.elapsed with st := .latched, cause := 5, prot := { c.prot with retrying := false } })
    | 0x007 => s.modLane n k (fun l => { l with shadow := true })
    | 0x008 => s.modLane n k (fun l => { l with shadow := false, shParked := true })
    | 0x00B => s.modLane n k (fun l => { l with redPark := true })
    | _ => s
  | .domain d => if code == 0x013 then s.modDm d (fun x => { x with heldOff := true }) else s
  | _ => s

/-- KIND 0: a raise with no condition behind it, and the actions of its class. A FATAL 0x012 at a domain re-derives that
domain in every cluster that serves it; a FATAL 0x043 at unit 0x000 trips. -/
def State.injectRaise (code unit cls : Nat) (s : State) : State :=
  match fltClass code with
  | none => s
  | some table =>
    let cls := if 1 ≤ cls && cls ≤ 4 then cls else table
    if code == 0x043 && cls == 4 && unit == 0 && !s.trip then s.injected true (State.tripNow s.hottest)
    else
      let s := if code == 0x012 && cls == 4 then
          match uKind unit with
          | .domain d => each (s.sheet.domHalves d) (fun p s => s.ledgerLost p.1 [d]) s
          | _ => s
        else s
      let s := if cls == 3 && table == 3 then s.injectActs code unit else s
      let (x, s) := if fltDetailed code then s.drawNat else (0, s)
      s.collect { code, cls, sc := .unit unit, inj := true, detail := x % 65536, addr := 0, master := 0, acc := 0,
                  time := s.elapsed, first := false }

/-- KIND 4: one comparator of a cell trips on a self-test offset. The cycle-by-cycle comparator acts on the period in
progress, which the cell's next word ends. -/
def State.injectCmp (unit which : Nat) (s : State) : State :=
  match uKind unit with
  | .cell n k =>
    let c := s.cell n k
    let th := s.cellTh n k
    if which == 0 then s.kickNow n k (c.refUv - 2000 * th.droopTh - 1)
    else if which == 1 then s.truncNow n k (c.refUv + 2000 * th.ovsTh + 1)
    else if which == 2 then s.shuntNow n k (c.refUv + 4000 * th.shuntTh + 1)
    else { s with flt := { s.flt with injects := s.flt.injects ++ [{ kind := 4, unit, arg := s.flt.injArg, left := 1 }] } }
  | _ => s

/-- GO of FLT_INJ: the injection that the register and FLT_INJ_ARG name. -/
def State.injectNow (s : State) : State :=
  let r := s.flt.injReg.toNat
  let kind := fld r 1 3
  let unit := fld r 16 11
  let left := if kind == 3 then 1 else fld s.flt.injArg.toNat 16 8
  if kind == 0 then s.injectRaise (fld r 4 12) unit (fld r 27 3)
  else if kind == 4 then s.injectCmp unit (fld s.flt.injArg.toNat 0 2)
  else if kind ≤ 3 && 0 < left then
    { s with flt := { s.flt with injects := s.flt.injects ++ [{ kind, unit, arg := s.flt.injArg, left }] } }
  else s

/-- A write to FLT_INJ; ignored outside FACTORY. -/
def State.wInj (v : Word32) (be : BitVec 4) (s : State) : State :=
  if !s.factory then s
  else
    let s := { s with flt := { s.flt with injReg := mergeBytes s.flt.injReg v be &&& 0x3FFFFFFE } }
    if bit (enBits v be) 0 then s.injectNow else s

/-! ## Registers with effects of their own -/

/-- A write to SEC_LC_REQ (15 R473, Table 15-5): a request with the key and a permitted target is programmed over
the secure fill port; any other is a violation. While one is being programmed a further request is not taken. -/
def State.wLcReq (id : Nat) (v : Word32) (be : BitVec 4) (s : State) : State :=
  let x := enBits v be
  let t := fld x 0 2
  let may := match s.sec.lc with
    | 0 => t == 1
    | 1 => t == 2 || t == 3
    | 2 => t == 3
    | _ => false
  if fld x 16 16 == 0x4C43 && may then
    (if s.sec.lcReq.isSome then s else ({ s with sec := { s.sec with lcReq := some t } } : State).put (.storeProg t))
  else s.violation id 1

/-- Half of a pair written (16 R484): the low half is staged for the requester, the upper half stores both. -/
def State.wEpoch (id : Nat) (hi : Bool) (v : Word32) (be : BitVec 4) (s : State) : State :=
  let lo := Tab.getD s.epochLo id (0 : Word32)
  if hi then
    let w := mergeBytes (BitVec.ofNat 32 (s.epoch.toNat / 2 ^ 32)) v be
    { s with epoch := BitVec.ofNat 64 (2 ^ 32 * w.toNat + lo.toNat) }
  else { s with epochLo := Tab.put s.epochLo id (mergeBytes lo v be) }

/-- A configuration register of a cluster written: it reads back its new value, and acts from the next sample boundary (R483,
R486). -/
def State.wCfg (n : Nat) (f : CluCfg → CluCfg) (s : State) : State :=
  s.modCl n (fun c => { c with shadow := f c.shadow })

/-- One half of a 48-bit address register: [5:0] of the low half read zero, the upper half has 16 bits. -/
def wAddr (old : Nat) (hi : Bool) (v : Word32) (be : BitVec 4) : Nat :=
  let lo : Word32 := BitVec.ofNat 32 (old % 2 ^ 32)
  let up : Word32 := BitVec.ofNat 32 (old / 2 ^ 32)
  if hi then (mergeBytes up v be).toNat % 2 ^ 16 * 2 ^ 32 + lo.toNat
  else up.toNat * 2 ^ 32 + (mergeBytes lo v be &&& 0xFFFFFFC0).toNat

/-- Bits of word `w` of a protection entry that are not reserved (15 R478). -/
def protMask (w : Nat) : Word32 :=
  if w < 4 then 0x0FFF0FFF else if w == 4 then 0x0001FFFF else if w ≤ 6 then 0xFFFFFFFF else 0

/-- A write to SNS[n].URG (09 R292, R306). -/
def State.wUrg (n : Nat) (v : Word32) (be : BitVec 4) (s : State) : State :=
  let x := enBits v be
  let s := s.modSense n (fun q => { q with
    urgCh := (mergeBytes (BitVec.ofNat 32 q.urgCh) v be).toNat % 64, urgDone := q.urgDone && !bit x 8 })
  if bit x 6 then s.singleShot n (s.cl n).sense.urgCh else s

/-- A write to SLT_STAT: W1C of LOST ends its DEGRADED fault (08 R278, 14 R433). -/
def State.wSltStat (x : Nat) (s : State) : State :=
  if bit x 7 && s.slt.lost then (s.modSlt (fun q => { q with lost := false })).closeUnit 0 [0x03A] else s

/-- Counters and W1C bits of a cluster's registers, the written bits given. -/
def Reg.cluClear (r : Reg) (x : Nat) (c : Cluster) : Cluster :=
  let clr := bit x 31
  match r with
  | .pcStat _ k => { c with cells := vmod c.cells k (fun y => { y with bits := { y.bits with
      kick := y.bits.kick && !bit x 8, trunc := y.bits.trunc && !bit x 9, shunt := y.bits.shunt && !bit x 10
      prebiasHigh := y.bits.prebiasHigh && !bit x 11 } }) }
  | .ceStat _ => { c with ctl := { c.ctl with
      redMism := c.ctl.redMism && !bit x 4, swapClamp := c.ctl.swapClamp && !bit x 5 } }
  | .ceCnt _ => if clr then { c with ctl := { c.ctl with satCnt := 0, mismCnt := 0 } } else c
  | .cmStat _ => if clr then { c with busMiss := 0 } else c
  | .predStat _ => if clr then { c with pred := { c.pred with rangeCnt := 0, csumCnt := 0, skipCnt := 0 } } else c
  | .sbdStat _ => if clr then { c with pred := { c.pred with digDrop := 0, fcClamp := 0, fftClamp := 0 } } else c
  | .cluCrdCnt _ =>
    let l := { c.led with resShort := c.led.resShort && !bit x 30 }
    { c with led := if clr then { l with stale := 0, overRet := 0, clamp := 0, bad := 0 } else l }
  | .cluMemCnt _ => if clr then { c with stateCorr := 0, coefCorr := 0, ledgCorr := 0, marchFail := 0 } else c
  | .qStat _ => if bit x 9 then { c with sense := { c.sense with ovr := false, qLost := 0 } } else c
  | .snsCnt _ => if clr then { c with sense := { c.sense with heldCnt := 0, trigMiss := 0, urgDrop := 0 } } else c
  | _ => c

/-- Counters and W1C bits of the Gaffer's registers, the written bits given. -/
def Reg.gafClear (r : Reg) (x : Nat) (s : State) : State :=
  let clr := bit x 31
  match r with
  | .rstCause => { s with boot := { s.boot with
      por := s.boot.por && !bit x 0, pin := s.boot.pin && !bit x 1, vinRst := s.boot.vinRst && !bit x 2
      trip := s.boot.trip && !bit x 3, host := s.boot.host && !bit x 4 } }
  | .vinStat => if clr then { s with vin := { s.vin with dips := 0, minMv := 0 } } else s
  | .memCnt => if clr then { s with sramCorr := 0, secCorr := 0, retCorr := 0 } else s
  | .hifCnt => if clr then { s with host := { s.host with dbBad := 0, dbDrop := 0, portErr := 0 } } else s
  | .evrStat => if clr then { s with host := { s.host with lostCnt := 0, unrouted := 0 } } else s
  | .ctxStat c => if bit x 3 then s.modCx c (fun y => { y with poisoned := false }) else s
  | .ctxCnt c => if clr then s.modCx c (fun y => { y with late := 0, miss := 0, unk := 0, pageLate := 0, rtMerge := 0 }) else s
  | .cueStat => if clr then { s with cueDrop := 0, cueSkip := 0 } else s
  | .crdCnt => if clr then { s with reclaim := 0, ledgerErr := 0 } else s
  | .srcCnt i => if clr then { s with irq := { s.irq with src := vmod s.irq.src i (fun y => { y with lost := 0, coal := 0 }) } } else s
  | .stat p => if clr then { s with irq := { s.irq with proc := vmod s.irq.proc p (fun y => { y with ackBad := 0 }) } } else s
  | .fstat p => if clr then { s with irq := { s.irq with proc := vmod s.irq.proc p (fun y => { y with fackBad := 0 }) } } else s
  | .fltStat => if clr then { s with flt := { s.flt with qLost := 0 } } else s
  | .firstA => if bit x 0 then { s with flt := { s.flt with first := {} } } else s
  | .nvStat => if clr then { s with nv := { s.nv with lost := 0 } } else s
  | .sltStat => s.wSltStat x
  | .sltCnt => s.modSlt (fun y =>
      let y := { y with lateRel := y.lateRel && !bit x 28, earlyRel := y.earlyRel && !bit x 29 }
      if clr then { y with abortCnt := 0, skipCnt := 0, raceCnt := 0, mkErr := 0 } else y)
  | .chCnt c => if clr then s.modChan c (fun y => { y with corr := 0, uncorr := 0, caErr := 0, fencePoison := 0, capSusp := 0 }) else s
  | .secCtrl => if bit x 0 then { s with sec := { s.sec with lock := true } } else s
  | .secStat => { s with sec := { s.sec with
      tamper := s.sec.tamper && !bit x 2, lcFail := s.sec.lcFail && !bit x 3, refill := s.sec.refill && !bit x 4 } }
  | .secViol => if clr then { s with sec := { s.sec with violCnt := 0, violId := 0, violKind := 0 } } else s
  | .lgcData => if bit x 17 then { s with legacy := { s.legacy with ovr := false } } else s
  | .cshCtrl => s.cshGo x
  | .ringEn => s.ringsArm 0 32 x
  | .ringDis => s.ringsDown 0 32 x
  | .evrCtrl => (s.ringsArm 32 4 x).ringsDown 32 4 (fld x 4 4)
  | .maskSet w => each ((bitsIn 32 x).map (fun b => 32 * w + b)) (fun i s => s.irqDo (Irq.mask i)) s
  | .maskClr w => each ((bitsIn 32 x).map (fun b => 32 * w + b)) (fun i s => s.irqDo (Irq.unmask i)) s
  | .pendSet w => each ((bitsIn 32 x).map (fun b => 32 * w + b)) State.fire s
  | .pendClr w => each ((bitsIn 32 x).map (fun b => 32 * w + b)) (fun i s => s.irqDo (Irq.clear i)) s
  | _ => s

/-- What a write does to a register, for requester `id`: RW fields keep the bytes that are not enabled, and every other
field acts on the enabled bits. Writes to RO and reserved fields change nothing. -/
def State.regStore (id : Nat) (v : Word32) (be : BitVec 4) (r : Reg) (s : State) : State :=
  let m := fun (old : Word32) => mergeBytes old v be
  let x := enBits v be
  match r with
  | .epoch hi => s.wEpoch id hi v be
  | .cshBase hi => { s with boot := { s.boot with cshBase := wAddr s.boot.cshBase hi v be } }
  | .ringTbl hi => { s with host := { s.host with tbl := wAddr s.host.tbl hi v be } }
  | .shrCfg n => s.wCfg n (fun c => { c with shr := m c.shr &&& 0x01FFFFFF })
  | .cmCfg n => s.wCfg n (fun c => { c with cm := m c.cm &&& 0x000FFFFF })
  | .prepCfg n => s.wCfg n (fun c => { c with prep := m c.prep &&& 0x00007FFF })
  | .qCtrl n => s.wCfg n (fun c => { c with qCtrl := m c.qCtrl &&& 0x000000FF })
  | .qMask n => s.wCfg n (fun c => { c with qMask := m c.qMask })
  | .urg n => s.wUrg n v be
  | .srcCfg i => s.irqDo (fun q =>
      ({ q with src := vmod q.src i (fun y => { y with cfg := m y.cfg &&& 0x003FFFFF }) } : Irq).routeAll)
  | .procEn => s.irqDo (fun q =>
      ({ q with procEn := BitVec.ofNat 16 (m (BitVec.ofNat 32 q.procEn.toNat)).toNat } : Irq).routeAll)
  | .mod_ p => s.irqDo (fun q => { q with proc := vmod q.proc p (fun y => { y with mod := m y.mod &&& 0x0000FFFF }) })
  | .ack p => s.irqDo (Irq.ack p (x % 256) false)
  | .fack p => s.irqDo (Irq.ack p (x % 256) true)
  | .fltMap => { s with flt := { s.flt with map := m s.flt.map &&& 0x0003FF3F } }
  | .fltInj => s.wInj v be
  | .fltInjArg => if s.factory then { s with flt := { s.flt with injArg := m s.flt.injArg } } else s
  | .vrtCfg => { s with vrtCfg := m s.vrtCfg }
  | .vrtCap => { s with vrtCap := m s.vrtCap &&& 0x00003FFF }
  | .lcReq => s.wLcReq id v be
  | .prot i w => { s with sec := { s.sec with prot := vmod s.sec.prot i (fun e => vmod e w (fun y => m y &&& protMask w)) } }
  | .lgcSel => { s with legacy := { s.legacy with sel := m s.legacy.sel &&& 0x0000FFFF, valid := false } }
  | r =>
    match r.cluster with
    | some n => s.modCl n (r.cluClear x)
    | none => r.gafClear x s

/-! ## The commands -/

/-- REGISTER_WRITE (16 R480, R481). -/
def execRegisterWrite (id : AccId) (off : BitVec 20) (v : Word32) (be : BitVec 4) (s : State) :
    Host.Outcome State Fault Refusal :=
  .next (s.regWrite (.registerWrite id off v be) id off.toNat (State.regStore id v be))

/-- EPOCH_WRITE: GAF_EPOCH_HI (16 R484). -/
def execEpochWrite (id : AccId) (v : Word32) (be : BitVec 4) (s : State) : Host.Outcome State Fault Refusal :=
  .next (s.regWrite (.epochWrite id v be) id 0x0004C (State.regStore id v be))

/-- BOOT_LOCK: SEC_CTRL (15 R475). -/
def execBootLock (id : AccId) (v : Word32) (be : BitVec 4) (s : State) : Host.Outcome State Fault Refusal :=
  .next (s.regWrite (.bootLock id v be) id 0x58008 (State.regStore id v be))

/-- LC_REQUEST: SEC_LC_REQ (15 R473). -/
def execLcRequest (id : AccId) (v : Word32) (be : BitVec 4) (s : State) : Host.Outcome State Fault Refusal :=
  .next (s.regWrite (.lcRequest id v be) id 0x58004 (State.regStore id v be))

/-- FIRST_ERROR_CLEAR: FLT_FIRST_A (14 R434). -/
def execFirstErrorClear (id : AccId) (v : Word32) (be : BitVec 4) (s : State) : Host.Outcome State Fault Refusal :=
  .next (s.regWrite (.firstErrorClear id v be) id 0x38010 (State.regStore id v be))

/-- FAULT_INJECTION: FLT_INJ (14 R458). -/
def execFaultInjection (id : AccId) (v : Word32) (be : BitVec 4) (s : State) : Host.Outcome State Fault Refusal :=
  .next (s.regWrite (.faultInjection id v be) id 0x38030 (State.regStore id v be))

/-- SINGLE_SHOT: SNS[n].URG (09 R292). -/
def execSingleShot (id : AccId) (n : CluIx) (v : Word32) (be : BitVec 4) (s : State) : Host.Outcome State Fault Refusal :=
  .next (s.regWrite (.singleShot id n v be) id (0x18028 + 0x80 * n) (State.regStore id v be))

/-- LEGACY_SELECT_WRITE: LGC_SNS_SEL (09 R301). -/
def execLegacySelectWrite (id : AccId) (v : Word32) (be : BitVec 4) (s : State) : Host.Outcome State Fault Refusal :=
  .next (s.regWrite (.legacySelectWrite id v be) id 0xF8100 (State.regStore id v be))

end Sys2Proof.Machine
end

