-- ==== Sys2Proof/Machine/Sleep.lean ====
section
/-! DEFINITION. Sleep and wake of the cluster and Gaffer clocks (01 R23 to R29), and a clock that fails to run
(11 R368). -/

namespace Sys2Proof.Machine
open Sys2Proof

/-! ## Conditions -/

/-- Domain `d` is off, or draws less than SLEEP_I per cell by the last broadcast: per cell in RUN or BALLAST, and per cell of
the domain where none is (R23). -/
def State.drawsLittle (s : State) (d : Nat) : Bool :=
  let all := s.sheet.domCells d
  let on := (all.filter (fun p => (s.cell p.1 p.2).st.running)).length
  let run := if on == 0 then all.length else on
  !s.isOn d || decide ((s.dm d).bc.current < ((10 * s.sheet.hdr.sleepI * run : Nat) : Int))

/-- A context in plan mode (ARMED or COASTING, 06 R172) with resident shots owns a domain that cluster `n` serves: each of its shots carries a forecast for
the cluster (R23, 06 R178). -/
def State.plansFor (s : State) (n : Nat) : Bool :=
  (s.cluDoms n).any (fun d => match s.owner d with
    | some c => (s.cx c).plan && !(s.cx c).reels.isEmpty
    | none => false)

/-- The sleep conditions of cluster `n` hold (R23). R23 gives what must hold before a sleep, not that sleep follows: no
cluster sleeps during bring-up or while a cell of it is in TEST or START, which a park would cut short.
DESIGN CHOICE: log entry 56. "Fault in handling" is not defined by the spec: it is taken as a raise scoped to
the cluster that waits in the fault collector. DESIGN CHOICE: log entry 103. -/
def State.cluIdle (s : State) (n : Nat) : Bool :=
  s.boot.step == 9 && (s.cl n).cells.toList.all (fun c => !(c.st == .test || c.st == .start)) && (s.cl n).led.grants.isEmpty && (s.cluDoms n).all s.drawsLittle && !s.plansFor n &&
  !s.host.cmds.any (fun p => p.2.stage == .dispatched && s.touches n p.2) &&
  (s.cl n).halves.toList.all (fun h => !h.broll.hold && h.broll.bal == 0) &&
  !s.flt.queue.any (fun r => scopeClu r.sc == some n)

/-- The sleep conditions of the Gaffer hold (R25). -/
def State.gafQuiet (s : State) : Bool :=
  s.boot.step == 9 && s.clu.toList.all (fun c => !c.woke || c.clock == .asleep) && s.host.cmds.isEmpty &&
  s.ctx.toList.all (fun c => !c.plan) && !s.inTree && s.irq.proc.toList.all (fun p => p.timer.isNone) &&
  s.nv.staged.isEmpty

/-- The conditions of a cluster looked at, at a sample boundary: since when they have held. -/
def State.watchIdle (n : Nat) (s : State) : State :=
  let ok := s.cluIdle n
  s.modCl n (fun c => { c with idleSince := if ok then some (c.idleSince.getD s.elapsed) else none })

/-- The Gaffer's conditions looked at: since when they have held. -/
def State.watchGaf (s : State) : State :=
  { s with gafIdle := if s.gafQuiet then some (s.gafIdle.getD s.elapsed) else none }

/-! ## The commands -/

/-- A cluster goes to sleep: its clock stops, its cells regulate in PARK and keep the CAPACITY of the state they left
(R24); its thermal samples keep to the 100 us schedule (10 R309). -/
def State.sleepClu (n : Nat) (s : State) : State :=
  let old := s
  let s := s.endVolt n
  let park := fun (x : Cell) =>
    if x.st.running && x.safeValid then { (x.park s.elapsed) with sleepFrom := some x.st } else x.park s.elapsed
  let s := s.modCl n (fun c => { c with
    clock := .asleep, idleSince := none, cells := vmap (fun _ x => park x) c.cells
    therm := { c.therm with fast := false, nextAt := nextBoundary 100000 s.elapsed } })
  s.noteParks old

/-- CLUSTER_SLEEP: the conditions of R23 have held for CLU_SLEEP. -/
def execClusterSleep (n : CluIx) (s : State) : Host.Outcome State Fault Refusal :=
  .next (match (s.cl n).idleSince with
    | none => s
    | some t =>
      if s.samples n && s.cluIdle n then
        ((s.advanceTo (t + 1000 * s.sheet.hdr.cluSleep)).sleepClu n).watchGaf
      else s)

/-- GAFFER_SLEEP: the conditions of R25 have held for GAF_SLEEP. -/
def execGafferSleep (s : State) : Host.Outcome State Fault Refusal :=
  .next (match s.gafIdle with
    | none => s
    | some t =>
      if s.gafClock == .running && s.accessible && s.gafQuiet then
        { (s.advanceTo (t + 1000 * s.sheet.hdr.gafSleep)) with gafClock := .asleep, gafIdle := none }
      else s)

/-- WAKE: a wake source seen by a sleeping domain (R26). -/
def execWake (x : SleepDom) (s : State) : Host.Outcome State Fault Refusal :=
  .next (match x with
    | .clu n => s.wakeClu n
    | .gaf => s.wakeGaf)

/-- A stalled register access is made again; one whose domain sleeps still stalls again (R28). -/
def State.serveAcc (i : Instr) (s : State) : State :=
  let o := match i with
    | .ringEnable id v be => execRingEnable id v be s
    | .ringDisable id v be => execRingDisable id v be s
    | .eventRingEnable id v be => execEventRingEnable id v be s
    | .eventRingDisable id v be => execEventRingDisable id v be s
    | .irqVecRead id p => execIrqVecRead id p s
    | .irqFvecRead id p => execIrqFvecRead id p s
    | .irqAck id p v be => execIrqAck id p v be s
    | .irqFack id p v be => execIrqFack id p v be s
    | .irqPendSet id w v be => execIrqPendSet id w v be s
    | .irqPendClr id w v be => execIrqPendClr id w v be s
    | .irqMaskSet id w v be => execIrqMaskSet id w v be s
    | .irqMaskClr id w v be => execIrqMaskClr id w v be s
    | .callSheetGo id v be => execCallSheetGo id v be s
    | .pairLoRead id off => execPairLoRead id off s
    | .queueHeadRead id n => execQueueHeadRead id n s
    | .legacyDataRead id => execLegacyDataRead id s
    | .registerWrite id off v be => execRegisterWrite id off v be s
    | .epochWrite id v be => execEpochWrite id v be s
    | .bootLock id v be => execBootLock id v be s
    | .lcRequest id v be => execLcRequest id v be s
    | .firstErrorClear id v be => execFirstErrorClear id v be s
    | .faultInjection id v be => execFaultInjection id v be s
    | .singleShot id n v be => execSingleShot id n v be s
    | .legacySelectWrite id v be => execLegacySelectWrite id v be s
    | _ => .next s
  match o with
  | .next t => t
  | _ => s

/-- The requester ID of a register access's row. -/
def accBy : Instr → Nat
  | .ringEnable id _ _ | .ringDisable id _ _ | .eventRingEnable id _ _ | .eventRingDisable id _ _ | .irqVecRead id _
  | .irqFvecRead id _ | .irqAck id _ _ _ | .irqFack id _ _ _ | .irqPendSet id _ _ _ | .irqPendClr id _ _ _
  | .irqMaskSet id _ _ _ | .irqMaskClr id _ _ _ | .callSheetGo id _ _ | .pairLoRead id _ | .queueHeadRead id _
  | .legacyDataRead id | .registerWrite id _ _ _ | .epochWrite id _ _ | .bootLock id _ _ | .lcRequest id _ _
  | .firstErrorClear id _ _ | .faultInjection id _ _ | .singleShot id _ _ _ | .legacySelectWrite id _ _ => id
  | _ => 0

/-- Two queues taken in turn, `b` first when `t` is set. -/
def inTurn {α : Type} : Nat → Bool → List α → List α → List α
  | 0, _, _, _ => []
  | _, _, [], b => b
  | _, _, a, [] => a
  | n + 1, false, x :: a, b => x :: inTurn n true a b
  | n + 1, true, a, y :: b => y :: inTurn n false a b

/-- The order in which the waiting accesses are taken (16 R482): the first has begun; test accesses, ID 16, alternate with those
of the host port. -/
def accOrder (l : List Instr) : List Instr :=
  inTurn l.length (l.head?.any (fun i => accBy i == 16)) (l.filter (fun i => accBy i != 16)) (l.filter (fun i => accBy i == 16))

/-- A clock runs again: the waiting register accesses are made one by one; behind one that stalls again the rest wait on
(01 R28, 16 R482). -/
def State.serveStalled (s : State) : State := each (accOrder s.stalled) State.serveAcc { s with stalled := [] }

/-- The clock of cluster `n` runs. A cluster released from reset reads its images again (Table 11-8); one woken from
sleep takes its cells back in its first sample (R24). -/
def State.cluRuns (n : Nat) (s : State) : State :=
  let c := s.cl n
  if c.clock != .waking || (c.inReset.isSome && !c.resetRel) then s
  else
    let s := s.modCl n (fun c => { c with
      clock := .running, wakeFails := 0, idleSince := none, busSeq := s.lastSent, busGot := true, busGone := 0, busMissRow := 0
      ctl := { c.ctl with sampleAt := nextBoundary (if c.ctl.active.red then 64 else 32) s.elapsed }
      sense := { c.sense with
        frameAt := nextBoundary 32 (s.elapsed + 39), volt := none, res := vmap (fun _ r => { r with held := true }) c.sense.res } })
    (if c.inReset.isSome then s.reload n else s).serveStalled

/-- The Gaffer clock runs: the cues held in the port are taken in order (R26, 06 R194). -/
def State.gafRuns (s : State) : State :=
  if s.gafClock != .waking then s
  else
    let q := s.cueQ
    let s := { s with gafClock := .running, gafIdle := none, cueQ := [], busAt := nextBoundary 1000 s.elapsed, busDue := none }
    (each q (fun p s => s.takeCue p.1 p.2) s).serveStalled

/-- CLOCK_RUNNING: the clock of a woken domain runs. -/
def execClockRunning (x : SleepDom) (s : State) : Host.Outcome State Fault Refusal :=
  .next (match x with
    | .clu n => s.cluRuns n
    | .gaf => s.gafRuns)

/-- WAKE_FAILURE: the cluster's clock does not run within 2 us of a wake; the second in a row is a FATAL fault, which
resets the cluster (11 R368). -/
def execWakeFailure (n : CluIx) (s : State) : Host.Outcome State Fault Refusal :=
  .next (
    if (s.cl n).clock != .waking then s
    else
      let s := s.advanceTo (s.cl n).wakeBy
      let twice := decide (1 ≤ (s.cl n).wakeFails)
      let s := s.modCl n (fun c => { c with
        wakeFails := if twice then 0 else c.wakeFails + 1, wakeBy := s.elapsed + 2000 })
      if twice then s.raise 0x02E (.unit (uClu n)) 0 else s)

end Sys2Proof.Machine
end

