-- ==== Sys2Proof/Machine/Sample.lean ====
section
/-! DEFINITION. The rows that read memories as they go: a cluster's sample boundary, the share-bus broadcast and the
programs of the NV record store. -/

namespace Sys2Proof.Machine
open Sys2Proof

/-- What contexts and stamp regions do at a sample boundary. -/
def State.atBoundary (s : State) : State := (s.ctxBoundary.slateCtxLeft s).stampBoundary

/-- Something waits for a sample boundary of any cluster. -/
def State.boundaryWaits (s : State) : Bool :=
  s.stamps.toList.any (fun g => g.chg.isSome) || s.ctx.toList.any (fun c => c.leaving || c.poisoning.isSome)

/-- While BUS_EN is 0 every domain offset of a cluster is held at zero (05 R151). -/
def State.busOff (n : Nat) (s : State) : State :=
  if bit (s.cl n).cfg.shr.toNat 24 then s
  else s.modCl n (fun c => { c with halves := vmap (fun _ h => { h with offs := 0 }) c.halves })

/-- Configuration written since the last boundary acts from this one (16 R483). -/
def State.cfgIn (n : Nat) (s : State) : State := (s.modCl n (fun c => { c with cfg := c.shadow })).busOff n

/-- One sample of cluster `n` at its next boundary (01 R17, R18): what waits for the boundary, the memories that the
sample reads (15 R461), the engine, the checks made in it, a self-test's operations (14 R456), and the sleep
conditions (01 R23). -/
def State.sampleStep (n : Nat) (mism : BitVec 16) (s : State) : State :=
  let s := ((s.advanceTo (s.cl n).ctl.sampleAt).atBoundary).cfgIn n
  let s := ((s.memRead 0 n none).memRead (if (s.cl n).ctl.activeB then 2 else 1) n none).memRead 3 n none
  let s := each (s.sheet.allCells n) (fun k s => s.carrierStart n k) s
  let s := s.controlSample n mism
  let s := each (s.hs n) (fun h s => s.shadowCheck n h) s
  (((s.guardAll n).probeCheck).selfStep n mism).endPhases.watchIdle n

/-- The broadcast that is due goes out: what it carries, the checks of case D that are made again at each broadcast
(11 R359), the memories it reads, and the sleep conditions of the Gaffer (01 R25). -/
def State.sendDue (s : State) : State :=
  if s.busDue.isNone then s
  else
    let t := s.busSent
    if t.gafClock != .running || t.csh.isNone then t
    else ((each (vfind (fun x : Domain => match x.stg with
      | some g => g.waitBy.isSome && !g.paused
      | none => false) t.dom) (fun d u => if u.trip then u else match (u.dm d).stg with
        | some g => u.stageCheck d g.prevAt false
        | none => u) t).memRead 8 0 none).watchGaf

/-- SHARE_BUS_BROADCAST (05 R150): the next report instant. The broadcast formed from a report goes out 256 ns later: before
the first record that a cluster applies, and before the next report at the latest. -/
def execShareBusBroadcast (s : State) : Host.Outcome State Fault Refusal :=
  .next s.sendDue.busReport

/-- The instant at which a cluster applies the records of the last broadcast: its first sample boundary after they arrive. -/
def State.recordAt (s : State) (n : Nat) : Nat :=
  let per := if s.redMode n then 64 else 32
  max (s.cl n).ctl.sampleAt (cdiv (s.busAt - 1000 + 256) per * per)

/-- The records of a broadcast applied at a cluster. A record whose SEQ is not one more than the last is an event (R152),
beside the ones already counted for the records missing before it; admission resumes with any record (07 R235). -/
def State.recordIn (n : Nat) (seq : BitVec 8) (s : State) : State :=
  if !s.samples n then s
  else
    let g := (seq.toNat + 256 - (s.cl n).busSeq) % 256
    let gone := (s.cl n).busGone
    let s := s.modCl n (fun c => { c with busSeq := seq.toNat, busGot := true, busGone := 0 })
    if g == 1 then
      let s := s.modCl n (fun c => { c with busMissRow := 0, gafLost := false })
      (each (s.hs n) (fun h s => s.applyRec n h) s).vinRecord n
    else s.oddRecord n (if 1 < g && g ≤ 128 then max 1 (g - gone) else 1)

/-- NV_PROGRAM (14 R447): the staged record is read from the retention SRAM; one that cannot be read is dropped. -/
def execNvProgram (fail : Bool) (s : State) : Host.Outcome State Fault Refusal :=
  .next (
    if s.nv.staged.isEmpty || !s.nv.ready || s.nv.erasing then s
    else
      let t := s.memRead 10 0 none
      if t.nv.staged.length < s.nv.staged.length then t.nvReads else t.nvProgram fail)

end Sys2Proof.Machine
end

