-- ==== Sys2Proof/Machine/LedgerRows.lean ====
section
/-! DEFINITION. The rows that are events of a cluster's ledger, and their order within a cluster cycle (07 R227). -/

namespace Sys2Proof.Machine
open Sys2Proof

/-- The cluster whose ledger a command is an event of, and the event's place in a cluster cycle (R227). -/
def State.ledgerOf (s : State) (c : Instr) : Option (Nat × Nat) :=
  match c with
  | .returnW n w => if wKind w == 2 then some (n, 1) else none
  | .give w => (takeMsg 2 w s.msgs).map (fun p => (p.1.clu, 2))
  | .call w => (takeMsg 3 w s.msgs).map (fun p => (p.1.clu, 2))
  | .recall w => (takeMsg 6 w s.msgs).map (fun p => (p.1.clu, 2))
  | .shareBusRecord n _ => some (n, 3)
  | .preparationStart n _ | .stepWinExpiry n _ => some (n, 4)
  | .brollRelease n _ => some (n, 5)
  | .controlSample n _ => some (n, 5)
  | .admissionRound n => some (n, 6)
  | _ => none

/-- The instant of an event that has one of its own; a word or a message is an event of the present instant. -/
def State.ledgerAt (s : State) (c : Instr) : Option Nat :=
  match c with
  | .shareBusRecord n _ => if s.samples n then some (s.recordAt n) else none
  | .preparationStart n h => s.prepAt n h
  | .stepWinExpiry n h => s.stepWinAt n h
  | .brollRelease n h => if (s.half n h).broll.hold then (s.half n h).broll.release else none
  | .controlSample n _ => some (s.cl n).ctl.sampleAt
  | .admissionRound n => some ((s.cl n).led.roundAt + 1)
  | _ => none

/-- The next waiting command is an event of the same ledger, due now, that goes before place `r`. -/
def State.ledgerMore (s : State) (n r : Nat) : Bool :=
  match s.pending.head? with
  | none => false
  | some c =>
    match s.ledgerOf c with
    | none => false
    | some (m, q) => m == n && decide (q < r) && (match s.ledgerAt c with
      | some t => decide (t ≤ s.elapsed)
      | none => true)

/-- What an event does. -/
def State.ledgerDo (c : Instr) (s : State) : State :=
  match c with
  | .returnW n w => s.upWord n w
  | .give w => s.giveIn w
  | .call w => s.callIn w
  | .recall w => s.recallIn w
  | .shareBusRecord n seq => s.recordIn n seq
  | .preparationStart n h => s.prepStart n h
  | .stepWinExpiry n h => s.stepWin n h
  | .brollRelease n h => s.brollRelease n h
  | .controlSample n mism => s.sampleStep n mism
  | .admissionRound n => (s.memRead 3 n none).round n
  | _ => s

/-- An event reaches a ledger: it waits while the next command is an event of the same cycle that goes before it; the last of
them has all that wait handled in the order of R227. DESIGN CHOICE: log entry 119. -/
def State.ledgerEvent (c : Instr) (s : State) : State :=
  match s.ledgerOf c with
  | none => s.ledgerDo c
  | some (n, r) =>
    let s := match s.ledgerAt c with
      | some t => s.advanceTo t
      | none => s
    if s.ledgerMore n r then s.modCl n (fun x => { x with led := { x.led with defer := x.led.defer ++ [c] } })
    else
      match (s.cl n).led.defer with
      | [] => s.ledgerDo c
      | l =>
        let rank := fun (c : Instr) => ((s.ledgerOf c).map (fun p => p.2)).getD 0
        each (sortBy (fun a b => decide (rank a < rank b)) (l ++ [c])) State.ledgerDo
          (s.modCl n (fun x => { x with led := { x.led with defer := [] } }))

/-- CONTROL_SAMPLE: `mism` marks the lanes whose second evaluation differs (04 R144). A cluster that takes no samples
has none; what waits for a boundary still meets the next multiple of 32 ns. -/
def execControlSample (n : CluIx) (mism : BitVec 16) (s : State) : Host.Outcome State Fault Refusal :=
  .next (
    if s.samples n then s.ledgerEvent (.controlSample n mism)
    else if s.boundaryWaits && s.accessible then (s.advanceTo (nextBoundary 32 s.elapsed)).atBoundary
    else s)

/-- RETURN: a word from a station. -/
def execReturnW (n : CluIx) (w : Word64) (s : State) : Host.Outcome State Fault Refusal := .next (s.ledgerEvent (.returnW n w))

/-- GIVE reaches its cluster (R224, R225). -/
def execGive (w : Word64) (s : State) : Host.Outcome State Fault Refusal := .next (s.ledgerEvent (.give w))

/-- CALL reaches a lender (R225). -/
def execCall (w : Word64) (s : State) : Host.Outcome State Fault Refusal := .next (s.ledgerEvent (.call w))

/-- RECALL reaches a cluster (R215). -/
def execRecall (w : Word64) (s : State) : Host.Outcome State Fault Refusal := .next (s.ledgerEvent (.recall w))

/-- SHARE_BUS_RECORD: the records of the last broadcast (05 R150, R151, R152). -/
def execShareBusRecord (n : CluIx) (seq : BitVec 8) (s : State) : Host.Outcome State Fault Refusal :=
  .next (s.sendDue.ledgerEvent (.shareBusRecord n seq))

/-- PREPARATION_START: the boundary of 05 R155, n_lead samples before the planned onset, or at once when it has passed and an
earlier preparation has ended (05 R510). -/
def execPreparationStart (n : CluIx) (h : HalfIx) (s : State) : Host.Outcome State Fault Refusal :=
  .next (s.ledgerEvent (.preparationStart n h))

/-- STEP_WIN_EXPIRY: the first boundary at or after the onset plus STEP_WIN (05 R157, R158, R224). -/
def execStepWinExpiry (n : CluIx) (h : HalfIx) (s : State) : Host.Outcome State Fault Refusal :=
  .next (s.ledgerEvent (.stepWinExpiry n h))

/-- BROLL_RELEASE: the release instant (R242). -/
def execBrollRelease (n : CluIx) (h : HalfIx) (s : State) : Host.Outcome State Fault Refusal :=
  .next (s.ledgerEvent (.brollRelease n h))

/-- ADMISSION_ROUND: the round of the cluster's next cycle (R221). -/
def execAdmissionRound (n : CluIx) (s : State) : Host.Outcome State Fault Refusal :=
  .next (s.ledgerEvent (.admissionRound n))

end Sys2Proof.Machine
end

