-- ==== Sys2Proof/Machine/Ports.lean ====
section
/-! DEFINITION. The block's remaining ports: the secure store (15 R461, R473), the regulator buses (17 R501, R502) and the
stamp port (14 R450). -/

namespace Sys2Proof.Machine
open Sys2Proof

/-! ## The secure store -/

/-- LC_PROGRAM_DONE: the programming of a life-cycle change ends: the state changes, the page is wiped and ZN_RSTREQ_N
goes low; or LC_FAIL is set (R473). -/
def execLcProgramDone (ok : Bool) (s : State) : Host.Outcome State Fault Refusal :=
  .next (match s.sec.lcReq with
    | none => s
    | some t =>
      let s := { s with sec := { s.sec with lcReq := none } }
      if ok then
        let s := ({ s with sec := { s.sec with lc := t } } : State).wipePage
        { s with pins := { s.pins with rstreqN := false } }
      else { s with sec := { s.sec with lcFail := true } })

/-- Half `h` of a 64-bit word. -/
def halfWord (v : Word64) (h : Nat) : Word32 := BitVec.ofNat 32 (v.toNat / 2 ^ (32 * h))

/-- A word of the secure page takes a value: protection entries, the violation counter, or what came from the store
(Table 15-4). -/
def Secure.setWord (w : Nat) (v : Word64) (x : Secure) : Secure :=
  if 32 ≤ w && w < 96 then
    let i := (w - 32) / 4
    let j := 2 * ((w - 32) % 4)
    { x with prot := vmod x.prot i (fun e =>
        vset (vset e j (halfWord v 0 &&& protMask j)) (j + 1) (halfWord v 1 &&& protMask (j + 1))) }
  else if w == 96 then
    { x with violCnt := fld v.toNat 0 24, violId := fld v.toNat 24 5, violKind := fld v.toNat 29 2 }
  else { x with patches := Tab.put x.patches w v }

/-- SECURE_WORD_REFILL: the refill of a word ends (R461). -/
def execSecureWordRefill (w : Fin 2048) (ok : Bool) (val : Word64) (s : State) : Host.Outcome State Fault Refusal :=
  .next (match s.sec.refillWait.find? (fun p => p.1 == w.val) with
    | none => s
    | some p =>
      let s := { s with sec := { s.sec with refillWait := s.sec.refillWait.filter (fun q => q.1 != w.val) } }
      if ok then { s with sec := { (s.sec.setWord w val) with refill := true } }
      else ({ s with sec := { s.sec with bad := true } } : State).raiseAcc 0x049 (.unit 0) 9 w 17 1 p.2)

/-! ## Regulator buses -/

/-- AVS_STATUS_POLL: the status of every rail, every 10 us from a voltage write until VDone is set on all of them, then
every 1 ms (R501). VDone is bit 15 of a status word (PRESUMED, of AVSBus). -/
def execAvsStatusPoll (st : List (BitVec 16)) (s : State) : Host.Outcome State Fault Refusal :=
  .next (
    if s.pins.nReg == 0 || s.buses.avsAt == 0 || !s.accessible then s
    else
      let s := s.advanceTo s.buses.avsAt
      let st := st.take s.pins.nReg
      let done := s.buses.avsDone || (st.length == s.pins.nReg && st.all (fun w => w.getLsbD 15))
      each (List.range s.pins.nReg) (fun r s => s.put (.avs 14 r 0))
        { s with buses := { s.buses with
            avsSt := st, avsDone := done, avsAt := s.elapsed + if done then 1000000 else 10000 } })

/-- AVS_CURRENT_POLL: the current of the next rail (R501). -/
def execAvsCurrentPoll (cur : BitVec 16) (s : State) : Host.Outcome State Fault Refusal :=
  .next (
    if s.pins.nReg == 0 || !s.accessible then s
    else
      let s := s.advanceTo s.buses.curAt
      let r := s.buses.avsRail
      ({ s with buses := { s.buses with
          avsCur := Tab.put s.buses.avsCur r cur, avsRail := (r + 1) % s.pins.nReg, curAt := s.elapsed + 1000000 } } :
        State).put (.avs 2 r 0))

/-- New readings over those held: a transfer that was abandoned keeps the old one. -/
def pmbNewer (new : PmbusReading) (old : Option PmbusReading) : PmbusReading :=
  match old with
  | none => new
  | some x => { status := new.status <|> x.status, vin := new.vin <|> x.vin, iout := new.iout <|> x.iout, temp := new.temp <|> x.temp }

/-- PMBUS_POLL: status, input voltage, current and temperature of the next device; a transfer that fails is retried at
that device's next turn (R502). -/
def execPmbusPoll (r : PmbusPoll) (s : State) : Host.Outcome State Fault Refusal :=
  .next (
    if s.pins.nReg == 0 || !s.accessible then s
    else
      let s := s.advanceTo s.buses.pmbAt
      let i := s.buses.pmbNext
      let again := s.buses.pmbOff.contains i && !r.off
      let s := { s with buses := { s.buses with
        pmb := Tab.put s.buses.pmb i (pmbNewer r.read (Tab.get? s.buses.pmb i))
        pmbOff := if again then s.buses.pmbOff else s.buses.pmbOff.filter (fun j => j != i)
        pmbNext := (i + 1) % s.pins.nReg, pmbAt := s.elapsed + 1000000 } }
      let s := if again then s.put (pmbOffOut i) else s
      each [0x79, 0x88, 0x8C, 0x8D] (fun c s => s.put (.pmbus (0x40 + i) c [])) s)

/-! ## The stamp port -/

/-- Bits [63:0] of a domain's stamp (Table 14-6). -/
def State.stampLow (s : State) (d : Nat) : Nat :=
  let hs := (s.sheet.domHalves d).map (fun p => s.half p.1 p.2)
  let cnt := sumN (hs.map (fun h => h.vCnt))
  let mean := if cnt == 0 then 0 else (rhalf (sumI (hs.map (fun h => h.vSum))) cnt).toNat
  let low := match (hs.filter (fun h => h.vCnt != 0)).map (fun h => h.vLow) with
    | [] => 0
    | v :: t => t.foldl min v
  let r := match hs with
    | [] => 0
    | h :: _ => (h.ramp.r + 2048) / 4096
  pack [(12, s.tgtInForce d), (12, capW 12 r), (12, mean), (12, low), (16, tc 16 (s.domTMax d))]

/-- STAMP_REQUEST: a read of a region (R450); a region that is not enabled returns zero in bits [63:0], and the block
answers zero while it is in block reset. -/
def execStampRequest (g : Fin 64) (s : State) : Host.Outcome State Fault Refusal :=
  .next (
    let x := vget s.stamps g
    let low := if x.en then s.stampLow x.dom else 0
    s.put (.stamp g (if s.accessible then BitVec.ofNat 128 (low + s.elapsed % 2 ^ 64 * 2 ^ 64) else 0)))

end Sys2Proof.Machine
end

