-- ==== Sys2Proof/Machine/Dispatch.lean ====
section
/-! DEFINITION. One arm for every command: a direct call of its meaning. -/

namespace Sys2Proof.Machine
open Sys2Proof

/-- The effect of a command on everything but the queue. -/
def exec (i : Instr) (s : State) : Host.Outcome State Fault Refusal :=
  match i with
  | .nop slot => Sys2Proof.Machine.execNop slot s
  | .fence slot => Sys2Proof.Machine.execFence slot s
  | .setTarget slot => Sys2Proof.Machine.execSetTarget slot s
  | .ramp slot => Sys2Proof.Machine.execRamp slot s
  | .domainOn slot => Sys2Proof.Machine.execDomainOn slot s
  | .domainOff slot => Sys2Proof.Machine.execDomainOff slot s
  | .loadBank slot => Sys2Proof.Machine.execLoadBank slot s
  | .swapBank slot => Sys2Proof.Machine.execSwapBank slot s
  | .callSheetLoad slot => Sys2Proof.Machine.execCallSheetLoad slot s
  | .contextOpen slot => Sys2Proof.Machine.execContextOpen slot s
  | .contextClose slot => Sys2Proof.Machine.execContextClose slot s
  | .reelLoad slot => Sys2Proof.Machine.execReelLoad slot s
  | .planArm slot => Sys2Proof.Machine.execPlanArm slot s
  | .planDisarm slot => Sys2Proof.Machine.execPlanDisarm slot s
  | .creditConfig slot => Sys2Proof.Machine.execCreditConfig slot s
  | .capSet slot => Sys2Proof.Machine.execCapSet slot s
  | .slateJoin slot => Sys2Proof.Machine.execSlateJoin slot s
  | .slateLeave slot => Sys2Proof.Machine.execSlateLeave slot s
  | .marginProbe slot => Sys2Proof.Machine.execMarginProbe slot s
  | .selfTest slot => Sys2Proof.Machine.execSelfTest slot s
  | .march slot => Sys2Proof.Machine.execMarch slot s
  | .telemetryRead slot => Sys2Proof.Machine.execTelemetryRead slot s
  | .nvRead slot => Sys2Proof.Machine.execNvRead slot s
  | .stampConfig slot => Sys2Proof.Machine.execStampConfig slot s
  | .unitDisable slot => Sys2Proof.Machine.execUnitDisable slot s
  | .unitEnable slot => Sys2Proof.Machine.execUnitEnable slot s
  | .doorbell off data be => Sys2Proof.Machine.execDoorbell off data be s
  | .descriptorFetch => Sys2Proof.Machine.execDescriptorFetch s
  | .descriptorDecode => Sys2Proof.Machine.execDescriptorDecode s
  | .commandDispatch slot => Sys2Proof.Machine.execCommandDispatch slot s
  | .completionRecord q => Sys2Proof.Machine.execCompletionRecord q s
  | .writeAcknowledge pid err => Sys2Proof.Machine.execWriteAcknowledge pid err s
  | .writeReissue pid => Sys2Proof.Machine.execWriteReissue pid s
  | .readData pid beats bad => Sys2Proof.Machine.execReadData pid beats bad s
  | .ringEnable id v be => Sys2Proof.Machine.execRingEnable id v be s
  | .ringDisable id v be => Sys2Proof.Machine.execRingDisable id v be s
  | .eventRingEnable id v be => Sys2Proof.Machine.execEventRingEnable id v be s
  | .eventRingDisable id v be => Sys2Proof.Machine.execEventRingDisable id v be s
  | .callSheetGo id v be => Sys2Proof.Machine.execCallSheetGo id v be s
  | .epochWrite id v be => Sys2Proof.Machine.execEpochWrite id v be s
  | .pairLoRead id off => Sys2Proof.Machine.execPairLoRead id off s
  | .bootLock id v be => Sys2Proof.Machine.execBootLock id v be s
  | .lcRequest id v be => Sys2Proof.Machine.execLcRequest id v be s
  | .irqVecRead id p => Sys2Proof.Machine.execIrqVecRead id p s
  | .irqFvecRead id p => Sys2Proof.Machine.execIrqFvecRead id p s
  | .irqAck id p v be => Sys2Proof.Machine.execIrqAck id p v be s
  | .irqFack id p v be => Sys2Proof.Machine.execIrqFack id p v be s
  | .irqPendSet id w v be => Sys2Proof.Machine.execIrqPendSet id w v be s
  | .irqPendClr id w v be => Sys2Proof.Machine.execIrqPendClr id w v be s
  | .irqMaskSet id w v be => Sys2Proof.Machine.execIrqMaskSet id w v be s
  | .irqMaskClr id w v be => Sys2Proof.Machine.execIrqMaskClr id w v be s
  | .firstErrorClear id v be => Sys2Proof.Machine.execFirstErrorClear id v be s
  | .faultInjection id v be => Sys2Proof.Machine.execFaultInjection id v be s
  | .singleShot id n v be => Sys2Proof.Machine.execSingleShot id n v be s
  | .queueHeadRead id n => Sys2Proof.Machine.execQueueHeadRead id n s
  | .legacyDataRead id => Sys2Proof.Machine.execLegacyDataRead id s
  | .legacySelectWrite id v be => Sys2Proof.Machine.execLegacySelectWrite id v be s
  | .registerWrite id off v be => Sys2Proof.Machine.execRegisterWrite id off v be s
  | .powerUp vaon => Sys2Proof.Machine.execPowerUp vaon s
  | .blockReset => Sys2Proof.Machine.execBlockReset s
  | .blockResetRelease tripCool => Sys2Proof.Machine.execBlockResetRelease tripCool s
  | .hostFunctionalReset => Sys2Proof.Machine.execHostFunctionalReset s
  | .hostResetRelease => Sys2Proof.Machine.execHostResetRelease s
  | .tamper ns => Sys2Proof.Machine.execTamper ns s
  | .externalThrottle ns => Sys2Proof.Machine.execExternalThrottle ns s
  | .externalThrottleEnd => Sys2Proof.Machine.execExternalThrottleEnd s
  | .cue w => Sys2Proof.Machine.execCue w s
  | .stampRequest g => Sys2Proof.Machine.execStampRequest g s
  | .vinWarning mv => Sys2Proof.Machine.execVinWarning mv s
  | .vinRecovery mv => Sys2Proof.Machine.execVinRecovery mv s
  | .longDip => Sys2Proof.Machine.execLongDip s
  | .vcutRestore => Sys2Proof.Machine.execVcutRestore s
  | .vinReset mv => Sys2Proof.Machine.execVinReset mv s
  | .cellVinStop n k mv => Sys2Proof.Machine.execCellVinStop n k mv s
  | .cellVinResume n k mv vout => Sys2Proof.Machine.execCellVinResume n k mv vout s
  | .criticalTrip n e => Sys2Proof.Machine.execCriticalTrip n e s
  | .vudcLoss => Sys2Proof.Machine.execVudcLoss s
  | .syncQualified n hz => Sys2Proof.Machine.execSyncQualified n hz s
  | .syncLock n hz => Sys2Proof.Machine.execSyncLock n hz s
  | .syncLoss n => Sys2Proof.Machine.execSyncLoss n s
  | .ditherStep n => Sys2Proof.Machine.execDitherStep n s
  | .cellCommandWord n k w m => Sys2Proof.Machine.execCellCommandWord n k w m s
  | .parkTimeout n k periods => Sys2Proof.Machine.execParkTimeout n k periods s
  | .kick n k vout => Sys2Proof.Machine.execKick n k vout s
  | .kickEnd n k vout => Sys2Proof.Machine.execKickEnd n k vout s
  | .kickRearm n k => Sys2Proof.Machine.execKickRearm n k s
  | .truncation n k vout => Sys2Proof.Machine.execTruncation n k vout s
  | .truncationEnd n k vout => Sys2Proof.Machine.execTruncationEnd n k vout s
  | .shunt n k vout => Sys2Proof.Machine.execShunt n k vout s
  | .shuntEnd n k vout => Sys2Proof.Machine.execShuntEnd n k vout s
  | .overloadTimer n k => Sys2Proof.Machine.execOverloadTimer n k s
  | .hiccup n k cycles => Sys2Proof.Machine.execHiccup n k cycles s
  | .hiccupHold n k m => Sys2Proof.Machine.execHiccupHold n k m s
  | .retryReset n k => Sys2Proof.Machine.execRetryReset n k s
  | .cellSelfTest n k x lcal m => Sys2Proof.Machine.execCellSelfTest n k x lcal m s
  | .startDone n k vout => Sys2Proof.Machine.execStartDone n k vout s
  | .startTimeout n k vout => Sys2Proof.Machine.execStartTimeout n k vout s
  | .stuckSwitch n k periods => Sys2Proof.Machine.execStuckSwitch n k periods s
  | .noSwitching n k periods => Sys2Proof.Machine.execNoSwitching n k periods s
  | .openPhase n k periods => Sys2Proof.Machine.execOpenPhase n k periods s
  | .senseImplausible n k periods => Sys2Proof.Machine.execSenseImplausible n k periods s
  | .controlSample n mism => Sys2Proof.Machine.execControlSample n mism s
  | .setpointSettled d => Sys2Proof.Machine.execSetpointSettled d s
  | .settleTimeout d => Sys2Proof.Machine.execSettleTimeout d s
  | .swapEffect n => Sys2Proof.Machine.execSwapEffect n s
  | .swapTimeout n => Sys2Proof.Machine.execSwapTimeout n s
  | .continuityWindow n => Sys2Proof.Machine.execContinuityWindow n s
  | .shareBusBroadcast => Sys2Proof.Machine.execShareBusBroadcast s
  | .shareBusRecord n seq => Sys2Proof.Machine.execShareBusRecord n seq s
  | .gafferLoss n => Sys2Proof.Machine.execGafferLoss n s
  | .senseFrame n m => Sys2Proof.Machine.execSenseFrame n m s
  | .backgroundCorrection n => Sys2Proof.Machine.execBackgroundCorrection n s
  | .openWireTest n => Sys2Proof.Machine.execOpenWireTest n s
  | .openWirePhase n value => Sys2Proof.Machine.execOpenWirePhase n value s
  | .boardSenseCheck moved0 moved1 => Sys2Proof.Machine.execBoardSenseCheck moved0 moved1 s
  | .thermalSample n => Sys2Proof.Machine.execThermalSample n s
  | .thermalSampleDelivered n t => Sys2Proof.Machine.execThermalSampleDelivered n t s
  | .ageingMeasurement n stressed reference => Sys2Proof.Machine.execAgeingMeasurement n stressed reference s
  | .vfStepDown d => Sys2Proof.Machine.execVfStepDown d s
  | .capacitanceEstimate n est => Sys2Proof.Machine.execCapacitanceEstimate n est s
  | .request n w => Sys2Proof.Machine.execRequest n w s
  | .returnW n w => Sys2Proof.Machine.execReturnW n w s
  | .digest n w => Sys2Proof.Machine.execDigest n w s
  | .admissionRound n => Sys2Proof.Machine.execAdmissionRound n s
  | .borrow w => Sys2Proof.Machine.execBorrow w s
  | .give w => Sys2Proof.Machine.execGive w s
  | .call w => Sys2Proof.Machine.execCall w s
  | .lend w => Sys2Proof.Machine.execLend w s
  | .bank w => Sys2Proof.Machine.execBank w s
  | .recall w => Sys2Proof.Machine.execRecall w s
  | .withhold w => Sys2Proof.Machine.execWithhold w s
  | .borrowRetry n h => Sys2Proof.Machine.execBorrowRetry n h s
  | .quietEnd n => Sys2Proof.Machine.execQuietEnd n s
  | .sliceBoundary n => Sys2Proof.Machine.execSliceBoundary n s
  | .brollRelease n h => Sys2Proof.Machine.execBrollRelease n h s
  | .preparationStart n h => Sys2Proof.Machine.execPreparationStart n h s
  | .stepWinExpiry n h => Sys2Proof.Machine.execStepWinExpiry n h s
  | .shotSwitch c => Sys2Proof.Machine.execShotSwitch c s
  | .shotOnset c => Sys2Proof.Machine.execShotOnset c s
  | .missingCue c => Sys2Proof.Machine.execMissingCue c s
  | .shotEndEvaluation c => Sys2Proof.Machine.execShotEndEvaluation c s
  | .watermarkWrite c => Sys2Proof.Machine.execWatermarkWrite c s
  | .laneUp p m => Sys2Proof.Machine.execLaneUp p m s
  | .laneDown p => Sys2Proof.Machine.execLaneDown p s
  | .mkArrive p pay chk => Sys2Proof.Machine.execMkArrive p pay chk s
  | .mkRelease p pay chk => Sys2Proof.Machine.execMkRelease p pay chk s
  | .mkAbort p pay chk => Sys2Proof.Machine.execMkAbort p pay chk s
  | .mkTime p pay chk => Sys2Proof.Machine.execMkTime p pay chk s
  | .mkPing p pay chk turn => Sys2Proof.Machine.execMkPing p pay chk turn s
  | .mkEcho p pay chk rtt => Sys2Proof.Machine.execMkEcho p pay chk rtt s
  | .mkEnum p arg chk => Sys2Proof.Machine.execMkEnum p arg chk s
  | .mkCount p arg chk => Sys2Proof.Machine.execMkCount p arg chk s
  | .mkCountOver p arg chk => Sys2Proof.Machine.execMkCountOver p arg chk s
  | .mkReach p arg chk => Sys2Proof.Machine.execMkReach p arg chk s
  | .mkSize p arg chk => Sys2Proof.Machine.execMkSize p arg chk s
  | .mkStart p arg chk => Sys2Proof.Machine.execMkStart p arg chk s
  | .mkJoin p arg chk => Sys2Proof.Machine.execMkJoin p arg chk s
  | .mkAdmit p arg chk => Sys2Proof.Machine.execMkAdmit p arg chk s
  | .mkLeave p arg chk => Sys2Proof.Machine.execMkLeave p arg chk s
  | .mkDetach p arg chk => Sys2Proof.Machine.execMkDetach p arg chk s
  | .mkDissolve p arg chk => Sys2Proof.Machine.execMkDissolve p arg chk s
  | .pingInterval => Sys2Proof.Machine.execPingInterval s
  | .pingTimeout => Sys2Proof.Machine.execPingTimeout s
  | .timeTick => Sys2Proof.Machine.execTimeTick s
  | .tickMissing => Sys2Proof.Machine.execTickMissing s
  | .arriveSend => Sys2Proof.Machine.execArriveSend s
  | .slateReleaseInstant => Sys2Proof.Machine.execSlateReleaseInstant s
  | .slateTimeout => Sys2Proof.Machine.execSlateTimeout s
  | .localTimeout => Sys2Proof.Machine.execLocalTimeout s
  | .joinTimeout => Sys2Proof.Machine.execJoinTimeout s
  | .channelTraining ch ok failed => Sys2Proof.Machine.execChannelTraining ch ok failed s
  | .channelRead ch m => Sys2Proof.Machine.execChannelRead ch m s
  | .recalibration ch narrow => Sys2Proof.Machine.execRecalibration ch narrow s
  | .scrub slice corrected poisoned => Sys2Proof.Machine.execScrub slice corrected poisoned s
  | .faultRecord => Sys2Proof.Machine.execFaultRecord s
  | .mergeExpiry code sc => Sys2Proof.Machine.execMergeExpiry code sc s
  | .eventRecordWrite j => Sys2Proof.Machine.execEventRecordWrite j s
  | .moderationTimer p => Sys2Proof.Machine.execModerationTimer p s
  | .nvProgram fail => Sys2Proof.Machine.execNvProgram fail s
  | .sectorErase => Sys2Proof.Machine.execSectorErase s
  | .lcProgramDone ok => Sys2Proof.Machine.execLcProgramDone ok s
  | .bringupVinReady marchFail => Sys2Proof.Machine.execBringupVinReady marchFail s
  | .nvReplay r => Sys2Proof.Machine.execNvReplay r s
  | .securePageFill st sramFail => Sys2Proof.Machine.execSecurePageFill st sramFail s
  | .callSheetAccepted => Sys2Proof.Machine.execCallSheetAccepted s
  | .clusterWakeReport n m => Sys2Proof.Machine.execClusterWakeReport n m s
  | .treeAssembly => Sys2Proof.Machine.execTreeAssembly s
  | .waveStart => Sys2Proof.Machine.execWaveStart s
  | .headerStage d => Sys2Proof.Machine.execHeaderStage d s
  | .nbWaitExpiry d => Sys2Proof.Machine.execNbWaitExpiry d s
  | .waveSettleExpiry d => Sys2Proof.Machine.execWaveSettleExpiry d s
  | .domainOnTimeout d => Sys2Proof.Machine.execDomainOnTimeout d s
  | .upperDieClear slice => Sys2Proof.Machine.execUpperDieClear slice s
  | .ready => Sys2Proof.Machine.execReady s
  | .clusterSleep n => Sys2Proof.Machine.execClusterSleep n s
  | .gafferSleep => Sys2Proof.Machine.execGafferSleep s
  | .wake x => Sys2Proof.Machine.execWake x s
  | .clockRunning x => Sys2Proof.Machine.execClockRunning x s
  | .wakeFailure n => Sys2Proof.Machine.execWakeFailure n s
  | .clusterResetRelease n => Sys2Proof.Machine.execClusterResetRelease n s
  | .marginProbeDwell slot => Sys2Proof.Machine.execMarginProbeDwell slot s
  | .avsStatusPoll st => Sys2Proof.Machine.execAvsStatusPoll st s
  | .avsCurrentPoll cur => Sys2Proof.Machine.execAvsCurrentPoll cur s
  | .pmbusPoll r => Sys2Proof.Machine.execPmbusPoll r s
  | .shuntRearm n k => Sys2Proof.Machine.execShuntRearm n k s
  | .cellsModeOff d => Sys2Proof.Machine.execCellsModeOff d s
  | .powerLoss vaon => Sys2Proof.Machine.execPowerLoss vaon s
  | .correctedFaultClose code sc => Sys2Proof.Machine.execCorrectedFaultClose code sc s
  | .processorIdle p pri => Sys2Proof.Machine.execProcessorIdle p pri s
  | .secureWordRefill w ok val => Sys2Proof.Machine.execSecureWordRefill w ok val s
  | .marchComplete slot failing => Sys2Proof.Machine.execMarchComplete slot failing s
  | .sectorEraseDone => Sys2Proof.Machine.execSectorEraseDone s
  | .boardSenseReading b mv => Sys2Proof.Machine.execBoardSenseReading b mv s

end Sys2Proof.Machine
end

