-- ==== Sys2Proof/Machine/Tick.lean ====
section
/-! DEFINITION. The tick that passes when no command waits (11 R340). -/

namespace Sys2Proof.Machine
open Sys2Proof

/-- Length in ns of the oscillator tick at phase `p`: 31, 31, 31 and 32 in turn (R340). -/
def oscTick (p : Nat) : Nat := if p % 4 == 3 then 32 else 31

/-- One tick: 1 ns of the Gaffer PLL while the Gaffer clock runs, one tick of the 32 MHz oscillator while it is
stopped, nothing while ZN_VAON is down (R340, R341). A throttle value that waits for its bus goes out with the first tick on which it may
(17 Table 17-4). -/
def State.tick (s : State) : State :=
  if !s.vaon then s
  else if s.supply && s.gafClock == .running then (if s.pins.thrWait then (s.advance 1).driveBuses else s.advance 1)
  else { (s.advance (oscTick s.oscPhase)) with oscPhase := (s.oscPhase + 1) % 4 }

end Sys2Proof.Machine
end

