-- ==== Sys2Proof/Safety.lean ====
section
/-! DEFINITION. What counts as a safe step of the block, and the terms in which the statements about commands speak: a
command that is served, an end of a command, and the transfers that an operation starts. -/

namespace Sys2Proof.Machine
open Sys2Proof

/-- A step that answers a next state. -/
def Runs (s : State) : Prop := ∃ t, step s = .next t

/-- Nothing switches while the hardware park level holds a cell in PARK: no cell of the state is in START, RUN or
BALLAST (03 R77, 14 R435). -/
def AllParked (s : State) : Prop :=
  ∀ n k : Nat, (s.cell n k).st ≠ .start ∧ (s.cell n k).st ≠ .run ∧ (s.cell n k).st ≠ .ballast

/-- Commands are served: the supply is up and ZN_RST_N high, the block is not in its fatal state and the Gaffer's clock
runs (01 R26, 13 R412, 14 R435). -/
def Serving (s : State) : Prop := s.accessible = true ∧ s.flt.fatal = false ∧ s.gafClock = .running

/-- The command in a slot has opcode `opc`, stands in a stage, and commands are served. -/
def CmdAt (s : State) (slot : Slot) (opc : Nat) (g : Stage) (c : Cmd) : Prop :=
  Serving s ∧ s.cmd? slot = some c ∧ c.opc = opc ∧ c.stage = g

/-- The command in a slot has been decoded and waits for its validation (01 Table 1-4); no injected memory error is
armed. -/
def Arrived (s : State) (slot : Slot) (opc : Nat) (c : Cmd) : Prop :=
  CmdAt s slot opc .decoded c ∧ s.flt.injects = []

/-- Arbitrate has chosen the command in a slot: its own row dispatches it (13 R415). -/
def Chosen (s : State) (slot : Slot) (opc : Nat) (c : Cmd) : Prop := CmdAt s slot opc .selected c

/-- The end of the command in a slot is the one completion record that `t` holds beyond those of `s`, with a status and a
RESULT (13 R411, R416). -/
def Completed (s t : State) (slot : Nat) (st : Status) (res : Nat) : Prop :=
  (∃ r, t.host.cpls = s.host.cpls ++ [r] ∧ r.slot = some slot ∧ r.status = st ∧ r.result = BitVec.ofNat 64 res) ∧
  ∃ c, t.cmd? slot = some c ∧ c.stage = .complete

/-- A completion record of the slot's command waits in `t`, with a status and a RESULT. -/
def Ended (t : State) (slot : Nat) (st : Status) (res : Nat) : Prop :=
  (∃ r ∈ t.host.cpls, r.slot = some slot ∧ r.status = st ∧ r.result = BitVec.ofNat 64 res) ∧
  ∃ c, t.cmd? slot = some c ∧ c.stage = .complete

/-- The command in a slot has been dispatched and its operations run. -/
def Running (t : State) (slot : Nat) : Prop := ∃ c, t.cmd? slot = some c ∧ c.stage = .dispatched

/-- Outside the domains of a list nothing of a cluster or of a domain has changed: every cluster without a half of one of
them, and every other domain, is as it was (02 R38, R39). -/
def Beyond (s t : State) (ds : List Nat) : Prop :=
  (∀ n : CluIx, (∀ d ∈ ds, ∀ h : Nat, (n.val, h) ∉ s.sheet.domHalves d) → t.cl n = s.cl n) ∧
  (∀ d : DomIx, d.val ∉ ds → t.dm d = s.dm d)

/-- Every cluster that is not in a list is as it was. -/
def OtherClus (s t : State) (ns : List Nat) : Prop := ∀ n : CluIx, n.val ∉ ns → t.cl n = s.cl n

/-- Every context but one is as it was. -/
def OtherCtxs (s t : State) (x : Nat) : Prop := ∀ y : CtxIx, y.val ≠ x → t.cx y = s.cx y

/-- Of the host interface nothing but transfers, completions and the commands of some slots has changed: the rings, the
events and the command in every other slot are as they were. -/
def OtherSlots (s t : State) (mine : Slot → Prop) : Prop :=
  t.host = { s.host with cmds := t.host.cmds, cpls := t.host.cpls, reads := t.host.reads, writes := t.host.writes } ∧
  ∀ q : Slot, ¬ mine q → t.cmd? q = s.cmd? q

/-- A read of `bytes` bytes at `addr` is outstanding in `t` and was not in `s`, on behalf of `src`: its first transfer
is on the port if an ID was free, and it waits for an ID otherwise (13 R394 to R396). -/
def Fetches (s t : State) (addr bytes : Nat) (use : RdUse) (src : Nat) : Prop :=
  ∃ id r, Tab.get? s.host.reads id = none ∧ Tab.get? t.host.reads id = some r ∧
    r.addr = addr / 16 * 16 ∧ r.left = 16 * cdiv (addr % 16 + bytes) 16 ∧ r.skip = addr % 16 ∧
    r.due = chunkBeats r.addr r.left ∧ r.use = use ∧ r.src = src ∧ r.words = [] ∧
    (id < 64 → t.out.head? = some (.memRead id r.addr r.due src)) ∧ (64 ≤ id → t.out = s.out)

/-- A write of some words at `addr` is outstanding in `t` and was not in `s`: on the port if an ID was free, and waiting
for one otherwise (13 R394, R395, R398). -/
def Sends (s t : State) (addr : Nat) (words : List Word64) (use : WrUse) (src : Nat) : Prop :=
  ∃ id w, Tab.get? s.host.writes id = none ∧ Tab.get? t.host.writes id = some w ∧
    w.addr = addr ∧ w.words = words ∧ w.use = use ∧ w.issues = 1 ∧ w.retryAt = none ∧ w.src = src ∧
    (id < 64 → t.out.head? = some (memWriteOut id w)) ∧ (64 ≤ id → t.out = s.out)

/-- A write of some words at `addr` is outstanding in `t`. -/
def Outgoing (t : State) (addr : Nat) (words : List Word64) (use : WrUse) (src : Nat) : Prop :=
  ∃ id w, Tab.get? t.host.writes id = some w ∧ w.addr = addr ∧ w.words = words ∧ w.use = use ∧ w.src = src

/-- The rows of the 26 opcodes at a slot, each with its opcode, in the order of 13 Table 13-5. -/
def opRows (slot : Slot) : List (Instr × Nat) :=
  List.zip [.nop slot, .fence slot, .setTarget slot, .ramp slot, .domainOn slot, .domainOff slot, .loadBank slot,
    .swapBank slot, .callSheetLoad slot, .contextOpen slot, .contextClose slot, .reelLoad slot, .planArm slot,
    .planDisarm slot, .creditConfig slot, .capSet slot, .slateJoin slot, .slateLeave slot, .marginProbe slot,
    .selfTest slot, .march slot, .telemetryRead slot, .nvRead slot, .stampConfig slot, .unitDisable slot,
    .unitEnable slot] (List.range 26)

/-- A write at an offset has its register's effect: the register bus answers, no earlier access waits (16 R482), the offset is
aligned (17 R498), the requester may write the page, and the
register is there, is not locked and does not lie in a cluster whose clock is stopped in reset (15 R474, R475, 16 R480,
R481, R485, R486). -/
def MayWrite (s : State) (id : AccId) (off : Nat) : Prop :=
  s.accessible = true ∧ off % 4 = 0 ∧ s.permits id off true = true ∧ s.stalled = [] ∧
  ∃ r, regAt off = some r ∧ s.regAbsent r = false ∧ s.lockedReg r = false ∧ s.regAwake r = true ∧
    ∀ n, r.cluster = some n → s.shadowOnly n = false

/-- A read at an offset has its register's effect. -/
def MayRead (s : State) (id : AccId) (off : Nat) : Prop :=
  s.accessible = true ∧ off % 4 = 0 ∧ s.permits id off false = true ∧ s.stalled = [] ∧
  ∃ r, regAt off = some r ∧ s.regAbsent r = false ∧ s.regAwake r = true ∧ ∀ n, r.cluster = some n → s.shadowOnly n = false

/-- A slate event is alone in its word clock: no other waits, and whatever the instant the next command is none (08 R276). -/
def Alone (s : State) : Prop := s.slt.defer = [] ∧ ∀ t : Nat, (s.advanceTo t).slateMore = false

/-- An event at place `r` of a ledger's cycle ends it: none of the cycle waits, and whatever the instant the next command is none
that goes before it (07 R227). -/
def LastEvent (s : State) (n r : Nat) : Prop :=
  (s.cl n).led.defer = [] ∧ ∀ t : Nat, (s.advanceTo t).ledgerMore n r = false

/-- The credits of a domain that the Gaffer accounts for (07 R30, R214): what it holds free and withheld, its record of the
balance of every cluster half, and what a GIVE, LEND, BANK or WITHHOLD carries in flight. -/
def credits (s : State) (d : Nat) : Nat :=
  (s.dm d).bf + (s.dm d).wh + sumN ((s.sheet.domHalves d).map (fun p => vget (vget s.bal p.1) p.2)) +
  sumN ((s.msgs.filter (fun m => m.dom == d && [2, 4, 5, 7].contains m.op)).map (fun m => m.amt))

/-- The credits of one half of a cluster: free, reserved, held for B-roll and held by requesters (07 Table 7-1). -/
def ownCredits (s : State) (n h : Nat) : Nat :=
  (s.half n h).acc.ord + (s.half n h).acc.res + (s.half n h).acc.bh + (s.cl n).led.heldSum h

/-- No cluster half has more credits than the Gaffer's record of its balance, its ledger's tables are in their form, no event
of its cycle waits, and each message in flight names a half of its domain. -/
def LedgerFits (s : State) : Prop :=
  (∀ (n : CluIx) (h : HalfIx), ownCredits s n h ≤ vget (vget s.bal n) h ∧ (s.cl n).led.defer = [] ∧
    Tab.wf ((s.cl n).led.held h) = true ∧ (0 < (s.cl n).led.heldSum h → (s.sheet.halfDom n h).isSome = true) ∧
    ∀ p ∈ (s.cl n).led.grants, p.2.half < 2) ∧
  ∀ m ∈ s.msgs, m.dom < 128 ∧ m.clu < 64 ∧ (s.halfOf m.clu m.dom).isSome = true

/-- The register accesses: the requester of a row, the offset that it goes to, and whether it writes (16 Tables 16-2 to
16-13). -/
def accessOf : Instr → Option (AccId × Nat × Bool)
  | .registerWrite id off _ _ => some (id, off.toNat, true)
  | .callSheetGo id _ _ => some (id, 0x00028, true)
  | .epochWrite id _ _ => some (id, 0x0004C, true)
  | .ringEnable id _ _ => some (id, 0x00108, true)
  | .ringDisable id _ _ => some (id, 0x0010C, true)
  | .eventRingEnable id _ _ | .eventRingDisable id _ _ => some (id, 0x00110, true)
  | .singleShot id n _ _ => some (id, 0x18028 + 0x80 * n, true)
  | .irqMaskSet id w _ _ => some (id, 0x30400 + 4 * w, true)
  | .irqMaskClr id w _ _ => some (id, 0x30420 + 4 * w, true)
  | .irqPendSet id w _ _ => some (id, 0x30440 + 4 * w, true)
  | .irqPendClr id w _ _ => some (id, 0x30460 + 4 * w, true)
  | .irqAck id p _ _ => some (id, 0x31004 + 16 * p, true)
  | .irqFack id p _ _ => some (id, 0x31204 + 16 * p, true)
  | .firstErrorClear id _ _ => some (id, 0x38010, true)
  | .faultInjection id _ _ => some (id, 0x38030, true)
  | .lcRequest id _ _ => some (id, 0x58004, true)
  | .bootLock id _ _ => some (id, 0x58008, true)
  | .legacySelectWrite id _ _ => some (id, 0xF8100, true)
  | .pairLoRead id off => some (id, off.toNat, false)
  | .queueHeadRead id n => some (id, 0x18024 + 0x80 * n, false)
  | .irqVecRead id p => some (id, 0x31000 + 16 * p, false)
  | .irqFvecRead id p => some (id, 0x31200 + 16 * p, false)
  | .legacyDataRead id => some (id, 0xF8104, false)
  | _ => none

/-- Every interrupt source but those of a list is as it was. -/
def OtherSources (s t : State) (l : List Nat) : Prop :=
  ∀ i : Fin 256, i.val ∉ l → vget t.irq.src i = vget s.irq.src i

end Sys2Proof.Machine
end

