-- ==== Sys2Proof/Certificates/Slice0/Obligations.lean ====
section
/-! DEFINITION. What is stated of the model: one statement for the whole machine where the spec speaks of all commands,
and for every command one that says where it completes and with which effect. -/

open Sys2Proof Sys2Proof.Machine

/-! ## Rules stated whole -/

/-- 00 R2: a read of GAF_ID by any requester whose read is admitted returns a word whose bits [15:0] are 0x0301 while the
Gaffer's clock runs and no access stalls; one that meets a stopped clock, or comes while another stalls, returns nothing yet
and waits behind the accesses stalled before it.
Rows that complete here: pairLoRead. -/
def Obligations.IdentityRegisterReads : Prop :=
  ∀ (id : AccId) (s : State), s.accessible = true → s.permits id 0x00000 false = true →
    (s.gafClock = .running → s.stalled = [] → ∃ (t : State) (v : Word32), exec (.pairLoRead id 0x00000) s = .next t ∧
      t.out = Out.regData id v :: s.out ∧ v.setWidth 16 = (0x0301 : BitVec 16)) ∧
    (s.gafClock ≠ .running ∨ s.stalled ≠ [] → ∃ t : State, exec (.pairLoRead id 0x00000) s = .next t ∧
      t.out = s.out ∧ t.stalled = s.stalled ++ [.pairLoRead id 0x00000])

/-- 11 R342: the 64-bit epoch word: a write of GAF_EPOCH_HI stores it with the requester's staged low half, it is zero after
power-up, block reset keeps it, no step but its writes (made by their rows, or when a clock runs again for which they
waited) and the power rows changes it, and a read of its low half returns it.
Rows that complete here: epochWrite, pairLoRead, registerWrite, powerUp, blockReset. -/
def Obligations.EpochWordIsKept : Prop :=
  ∀ (id : AccId) (lo hi : Word32) (s : State), s.accessible = true → s.sec.lock = false → (id.val = 16 → s.sec.lc = 0) →
    s.gafClock = .running → s.stalled = [] → Tab.wf s.epochLo = true →
    (∃ t u, exec (.registerWrite id 0x00048 lo 0xF) s = .next t ∧ t.epoch = s.epoch ∧
      exec (.epochWrite id hi 0xF) t = .next u ∧ u.epoch = hi ++ lo) ∧
    (∃ t, exec (.pairLoRead id 0x00048) s = .next t ∧ t.out = Out.regData id (s.epoch.setWidth 32) :: s.out) ∧
    (∀ v : Bool, ∃ t, exec (.powerUp v) s = .next t ∧ (v = true ∨ s.vaon = true → t.epoch = 0)) ∧
    (∃ t, exec .blockReset s = .next t ∧ t.epoch = s.epoch) ∧
    (∀ u t : State, step u = .next t →
      (∀ v : Bool, u.pending.head? ≠ some (.powerUp v) ∧ u.pending.head? ≠ some (.powerLoss v)) →
      (∀ x : SleepDom, u.pending.head? ≠ some (.clockRunning x)) →
      (∀ (a : AccId) (o : BitVec 20) (v : Word32) (be : BitVec 4),
        u.pending.head? ≠ some (.registerWrite a o v be) ∧ u.pending.head? ≠ some (.epochWrite a v be)) →
      t.epoch = u.epoch)

/-- 03 R75: block reset keeps the dither counter m of every cluster, and no step but the power rows makes one smaller.
Rows that complete here: blockReset, powerLoss. -/
def Obligations.DitherCounterReturnsToZeroOnlyAtPowerOff : Prop :=
  (∀ (n : CluIx) (s : State), ∃ t, exec .blockReset s = .next t ∧ (t.cl n).carrier.m = (s.cl n).carrier.m) ∧
  (∀ (n : CluIx) (s t : State), step s = .next t →
    (∀ v : Bool, s.pending.head? ≠ some (.powerUp v) ∧ s.pending.head? ≠ some (.powerLoss v)) →
    (s.cl n).carrier.m ≤ (t.cl n).carrier.m) ∧
  (∀ (n : CluIx) (s : State), ∃ t, exec (.powerLoss true) s = .next t ∧ (t.cl n).carrier.m = 0)

/-! ## The whole machine -/

/-- The model's rule of one step over the queue of waiting commands (log 1): step takes the command at the front and
runs it on the state with the queue's rest. -/
def Obligations.StepRunsTheFrontCommand : Prop :=
  ∀ (c : Instr) (rest : List Instr) (s : State), s.pending = c :: rest →
    step s = exec c { s with pending := rest }

/-- One step takes one command off the queue and no command puts one on it: whatever the command does, the rest of the
queue stands as it was, and an idle step leaves the queue empty (log 1). -/
def Obligations.StepTakesOneCommand : Prop :=
  ∀ s t : State, step s = .next t → t.pending = s.pending.tail

/-- 11 R340, R341: no step makes the elapsed-time counter smaller, but for the power-up of ZN_VAON, which starts it
again, and its loss. -/
def Obligations.ElapsedNeverGoesBack : Prop :=
  ∀ s t : State, step s = .next t → s.pending.head? ≠ some (.powerUp true) →
    s.pending.head? ≠ some (.powerLoss true) → s.elapsed ≤ t.elapsed

/-- 11 R341: the counter starts from 0 at the power-up of ZN_VAON, and an idle step neither moves it while ZN_VAON is
down nor stops it while ZN_VAON is up: it goes on by 1 ns of the running Gaffer clock or by one tick of 31 or 32 ns.
Rows that complete here: powerUp. -/
def Obligations.ElapsedCountsWhileWatchIsUp : Prop :=
  ∀ s : State,
    (∃ t, exec (.powerUp true) s = .next t ∧ t.elapsed = 0 ∧ t.vaon = true) ∧
    (s.pending = [] → s.vaon = false → step s = .next s) ∧
    (s.pending = [] → s.vaon = true → s.supply = true → s.gafClock = .running →
      ∃ t, step s = .next t ∧ t.elapsed = s.elapsed + 1) ∧
    (s.pending = [] → s.vaon = true → s.supply = false ∨ s.gafClock ≠ .running →
      ∃ t, step s = .next t ∧ t.elapsed = s.elapsed + (if s.oscPhase % 4 = 3 then 32 else 31) ∧
        t.oscPhase = (s.oscPhase + 1) % 4)

/-- 05 R150: the next broadcast instant stays a multiple of 1000 ns, whatever command runs. -/
def Obligations.BroadcastInstantStaysOnGrid : Prop :=
  ∀ s t : State, s.busAt % 1000 = 0 → step s = .next t → t.busAt % 1000 = 0

/-- The two invariants of every step, the one before and the one behind this statement, hold at reset: the broadcast instant
is on the grid and the trip pin stands with the trip latch. -/
def Obligations.InvariantsAtReset : Prop :=
  State.reset.busAt % 1000 = 0 ∧ State.reset.pins.thermtripN = !State.reset.trip

/-- 10 R315, R316, 17 R515: ZN_THERMTRIP_N is driven low exactly while the trip latch is set, whatever command runs, and a
set trip latch stays set at every step but the release of block reset with every comparator cool and the power-up or loss of
ZN_VAON. -/
def Obligations.TripPinFollowsLatch : Prop :=
  ∀ s t : State, step s = .next t →
    (s.pins.thermtripN = !s.trip → t.pins.thermtripN = !t.trip) ∧
    (s.trip = true → s.pending.head? ≠ some (.blockResetRelease true) → s.pending.head? ≠ some (.powerUp true) →
      s.pending.head? ≠ some (.powerLoss true) → t.trip = true)

/-- 11 R341: only the power rows raise or drop the supplies. -/
def Obligations.OnlyPowerRowsMoveTheSupplies : Prop :=
  ∀ s t : State, step s = .next t →
    (∀ v : Bool, s.pending.head? ≠ some (.powerUp v) ∧ s.pending.head? ≠ some (.powerLoss v)) →
    t.vaon = s.vaon ∧ t.supply = s.supply

/-! ## Commands of the rings (chapter 13 Table 13-5, chapters 04, 07, 10 and 11) -/

/-- 13 R418, R413 and R476: whatever its opcode, a command that falls outside its ring's scope ends DONE with RESULT 0 and
counts a violation of kind 2 for its ring's protection ID; it changes no cell, cluster, domain, context, pin or supply and
sends nothing. No command of any opcode does anything while its slot holds no command of that opcode that waits for its
validation or its dispatch, nor while the block is in its fatal state. -/
def Obligations.CommandsOutOfScopeDoNothing : Prop :=
  ∀ (slot : Slot) (i : Instr) (opc : Nat) (s : State), (i, opc) ∈ opRows slot →
    (∀ c : Cmd, Arrived s slot opc c → s.inScope c = false →
      ∃ t, exec i s = .next t ∧ Completed s t slot .done 0 ∧ t.sec.violCnt = satInc 24 s.sec.violCnt ∧
        t.sec.violKind = 2 ∧ t.sec.violId = (vget s.host.rings c.ring).pid ∧ t.clu = s.clu ∧ t.dom = s.dom ∧
        t.ctx = s.ctx ∧ t.slt = s.slt ∧ t.pow = s.pow ∧ t.pins = s.pins ∧ t.vin = s.vin ∧ t.up = s.up ∧ t.nv = s.nv ∧
        t.out = s.out ∧ t.host.reads = s.host.reads ∧ t.host.writes = s.host.writes ∧ t.elapsed = s.elapsed) ∧
    ((∀ c : Cmd, s.cmd? slot = some c → c.opc ≠ opc ∨ (c.stage ≠ .decoded ∧ c.stage ≠ .selected) ∨ s.flt.fatal = true) →
      exec i s = .next s)

/-- 13 R414, R419, 04 R126, R128, 11 R357, R361, 07 R245, 10 R331: NOP is DONE when it is validated and FENCE when it is
dispatched. SET_TARGET and RAMP give each half of each domain they reach a change to the code, at SLEW_DEF and at the rate
carried. DOMAIN_ON starts the cells of each domain it reaches, DOMAIN_OFF opens its first header stage; a check that fails at
dispatch ends them. CREDIT_CONFIG leaves ILIM and SLOPE for the next broadcast; CAP_SET sets the ceilings of its domains or
the chip cap and waits one or two broadcasts. A domain in a cluster under reset is left out.
Rows that complete here: nop, fence, setTarget, ramp, domainOn, domainOff, creditConfig, capSet. -/
def Obligations.DomainCommandsComplete : Prop :=
  ∀ (slot : Slot) (c : Cmd) (s : State),
    (Arrived s slot 0x00 c → ∃ t, exec (.nop slot) s = .next t ∧ Completed s t slot .done 0) ∧
    (Chosen s slot 0x01 c → ∃ t, exec (.fence slot) s = .next t ∧ Completed s t slot .done 0) ∧
    (Chosen s slot 0x02 c →
      ∃ t, exec (.setTarget slot) s = .next t ∧
        (s.sheet.reach c.unit = [] → Completed s t slot .done 0) ∧
        ∀ d ∈ s.sheet.reach c.unit, s.domInReset d = false → ∀ p ∈ s.sheet.domHalves d,
          (t.half p.1 p.2).ramp.chg = (s.half p.1 p.2).ramp.chg ++
            [{ tgt := c.opnd 2 0 12, rate := s.sheet.s2.slewDef, cmd := some slot.val, shot := false }]) ∧
    (Chosen s slot 0x03 c →
      ∃ t, exec (.ramp slot) s = .next t ∧
        (s.sheet.reach c.unit = [] → Completed s t slot .done 0) ∧
        ∀ d ∈ s.sheet.reach c.unit, s.domInReset d = false → ∀ p ∈ s.sheet.domHalves d,
          (t.half p.1 p.2).ramp.chg = (s.half p.1 p.2).ramp.chg ++
            [{ tgt := c.opnd 2 0 12, rate := c.opnd 2 12 8, cmd := some slot.val, shot := false }]) ∧
    (Chosen s slot 0x04 c →
      (∀ st res, onCheck c s = some (st, res) →
        ∃ t, exec (.domainOn slot) s = .next t ∧ Completed s t slot st res ∧ t.dom = s.dom) ∧
      (onCheck c s = none →
        ∃ t, exec (.domainOn slot) s = .next t ∧ (s.sheet.reach c.unit = [] → Completed s t slot .done 0) ∧
          ∀ d ∈ s.sheet.reach c.unit, s.domInReset d = false →
            (t.dm d).on = true ∧ (t.dm d).modeOff = false ∧ (t.dm d).stages = (s.dm d).stages ∧
            ∃ g, (t.dm d).stg = some g ∧ g.closing = true ∧ g.cmd = some slot.val ∧ g.waitRun = true ∧
              g.runBy = s.elapsed + s.startNs d)) ∧
    (Chosen s slot 0x05 c →
      (∀ st res, offCheck c s = some (st, res) →
        ∃ t, exec (.domainOff slot) s = .next t ∧ Completed s t slot st res ∧ t.dom = s.dom) ∧
      (offCheck c s = none →
        ∃ t, exec (.domainOff slot) s = .next t ∧ (s.sheet.reach c.unit = [] → Completed s t slot .done 0) ∧
          ∀ d ∈ s.sheet.reach c.unit, s.domInReset d = false →
            (t.dm d).stages = (if s.vin.dip then 8 else 7) ∧ (t.dm d).cmd = none ∧
            ∃ g, (t.dm d).stg = some g ∧ g.closing = false ∧ g.cmd = some slot.val ∧
              g.nextAt = (if s.vin.dip then none else some (s.elapsed + s.sheet.stageT d)) ∧ g.paused = s.vin.dip)) ∧
    (Chosen s slot 0x0E c →
      ∃ t, exec (.creditConfig slot) s = .next t ∧ (s.sheet.reach c.unit = [] → Completed s t slot .done 0) ∧
        t.clu = s.clu ∧ ∀ d ∈ s.sheet.reach c.unit,
          t.dm d = { s.dm d with cfgWait := some (slot.val, c.opnd 2 0 16, c.opnd 2 16 16) }) ∧
    (Chosen s slot 0x0F c →
      ∃ t, exec (.capSet slot) s = .next t ∧
        (c.opnd 2 0 1 = 0 → Running t slot ∧ t.pow = s.pow ∧ (∀ x, t.cmd? slot = some x → x.wait = 1) ∧
          ∀ d ∈ s.sheet.reach c.unit, t.dm d = { s.dm d with ceilW := c.opnd 2 16 16 }) ∧
        (∀ x : Sec6, c.opnd 2 0 1 = 1 → capOps c = some x → Running t slot ∧ t.pow = { s.pow with caps := x } ∧
          t.dom = s.dom ∧ ∀ y, t.cmd? slot = some y → y.wait = 2))

/-- 04 R136 to R138, 11 R369, R372, 03 R93: LOAD_BANK makes the inactive bank of every cluster it reaches invalid and busy
and reads its image from the host or from the archives; SWAP_BANK defers a swap in each until SWAP_TO, and either is
REJECTED_STATE where one cluster cannot take it. UNIT_DISABLE leaves the cells of its subtree DISABLED, those that switch from
their next carrier start on, and the domains disabled and off; UNIT_ENABLE makes its domains enabled, has the cells that were disabled or latched run TEST, and puts a
cluster that was disabled as a whole into reset.
Rows that complete here: loadBank, swapBank, unitDisable, unitEnable. -/
def Obligations.UnitCommandsComplete : Prop :=
  ∀ (slot : Slot) (c : Cmd) (s : State),
    (∀ n : Nat, Chosen s slot 0x06 c → (s.sheet.bankClus c.unit).find? (fun n => (s.cl n).ctl.swap.isSome ||
        (c.opnd 2 48 3 != 0 && (s.chan n).st == 3)) = some n →
      ∃ t, exec (.loadBank slot) s = .next t ∧ Completed s t slot .rejectedState (n * 2 ^ 8) ∧ t.clu = s.clu) ∧
    (Chosen s slot 0x06 c → s.sheet.bankClus c.unit = [] →
      ∃ t, exec (.loadBank slot) s = .next t ∧ Completed s t slot .done 0 ∧ t.clu = s.clu) ∧
    (Chosen s slot 0x06 c → s.sheet.bankClus c.unit ≠ [] →
      (∀ n ∈ s.sheet.bankClus c.unit, (s.cl n).ctl.swap = none ∧ (c.opnd 2 48 3 ≠ 0 → (s.chan n).st ≠ 3)) →
      ∃ t, exec (.loadBank slot) s = .next t ∧
        (∀ n ∈ s.sheet.bankClus c.unit, (s.cl n).inReset = none →
          (t.cl n).ctl.loadBusy = true ∧ (t.cl n).ctl.inactive.valid = false ∧
          (t.cl n).ctl.active = (s.cl n).ctl.active ∧
          (c.opnd 2 48 3 ≠ 0 → (t.chan n).jobs = (s.chan n).jobs ++ [.arch slot (c.opnd 2 48 3 - 1)])) ∧
        ((∀ n ∈ s.sheet.bankClus c.unit, (s.cl n).inReset = none) → Running t slot ∧
          (c.opnd 2 48 3 = 0 → Fetches s t (c.opnd 2 0 48) 8192 (.bank slot) (vget s.host.rings c.ring).pid))) ∧
    (∀ n : Nat, Chosen s slot 0x07 c → (s.sheet.bankClus c.unit).find? s.swapBad = some n →
      ∃ t, exec (.swapBank slot) s = .next t ∧ Completed s t slot .rejectedState (n * 2 ^ 8) ∧ t.clu = s.clu) ∧
    (Chosen s slot 0x07 c → (s.sheet.bankClus c.unit).find? s.swapBad = none →
      ∃ t, exec (.swapBank slot) s = .next t ∧ (s.sheet.bankClus c.unit = [] → Completed s t slot .done 0) ∧
        ∀ n ∈ s.sheet.bankClus c.unit, (s.cl n).inReset = none →
          (t.cl n).ctl = { (s.cl n).ctl with swap := some (slot.val, s.elapsed + 1000 * s.sheet.s2.swapTo) }) ∧
    (Chosen s slot 0x18 c →
      ∃ t, exec (.unitDisable slot) s = .next t ∧
        (∀ (n : CluIx) (k : CellIx), uCell n k ∈ s.switchSub c.unit →
          ((s.cell n k).st.switching = true → s.samples n = true →
            (t.cell n k).st = (s.cell n k).st ∧ (t.cell n k).disDue = true) ∧
          ((s.cell n k).st.switching = false ∨ s.samples n = false → (t.cell n k).st = .disabled)) ∧
        (c.parts = [] → Ended t slot .done 0) ∧
        (∀ d : DomIx, uDom d ∈ s.switchSub c.unit → (t.dm d).disabled = true ∧ (t.dm d).on = false) ∧
        (∀ n : CluIx, uClu n ∈ s.switchSub c.unit → (t.cl n).ctl.loadBusy = false ∧ (t.cl n).ctl.swap = none)) ∧
    (Chosen s slot 0x19 c → ((clusIn (s.switchSub c.unit)).filter s.cluDisabled) = [] →
      ∃ t, exec (.unitEnable slot) s = .next t ∧ Completed s t slot .done 0 ∧
        (∀ d : DomIx, uDom d ∈ s.switchSub c.unit → (t.dm d).disabled = false) ∧
        (∀ (n : CluIx) (k : CellIx), uCell n k ∈ s.switchSub c.unit →
          (t.cell n k).st = (if (s.cell n k).st = .disabled ∨ (s.cell n k).st = .latched ∨ (s.cell n k).disDue = true then .test
            else (s.cell n k).st))) ∧
    (Chosen s slot 0x19 c →
      ∃ t, exec (.unitEnable slot) s = .next t ∧
        (∀ d : DomIx, uDom d ∈ s.switchSub c.unit → (t.dm d).disabled = false) ∧
        ∀ n : CluIx, uClu n ∈ s.switchSub c.unit → s.cluDisabled n = true → s.present n = true →
          (s.cl n).inReset = none → (t.cl n).inReset = some s.elapsed ∧ (t.cl n).resetCmd = some slot.val)

/-- 02 R55, 06 R173, R182, 13 R410, 14 R449: CALL_SHEET_LOAD, CONTEXT_OPEN and REEL_LOAD read the first 64 bytes of their
image on behalf of their ring, and a REEL_LOAD joins the loads of its context unless the context is not open or has eight;
TELEMETRY_READ writes the records of its units in ascending address; NV_READ writes the committed records it asks for once
the store is idle, is DONE at once where there is none, and REJECTED_STATE where the store cannot be used.
Rows that complete here: callSheetLoad, contextOpen, reelLoad, telemetryRead, nvRead. -/
def Obligations.ReadingCommandsComplete : Prop :=
  ∀ (slot : Slot) (c : Cmd) (s : State),
    (Chosen s slot 0x08 c →
      ∃ t, exec (.callSheetLoad slot) s = .next t ∧ Running t slot ∧
        Fetches s t (c.opnd 2 0 48) 64 (.csh (some slot.val)) (s.cmdPid c)) ∧
    (Chosen s slot 0x09 c →
      ∃ t, exec (.contextOpen slot) s = .next t ∧ Running t slot ∧
        Fetches s t (c.opnd 2 0 48) 64 (.ctx slot) (s.cmdPid c)) ∧
    (Chosen s slot 0x0B c → c.ctx < 16 → (s.cx c.ctx).st ≠ .closed → (s.cx c.ctx).closing = none →
      (s.cx c.ctx).loads.length < 8 →
      ∃ t, exec (.reelLoad slot) s = .next t ∧ Running t slot ∧
        (t.cx c.ctx).loads = (s.cx c.ctx).loads ++
          [{ slot, loading := false, openN := (s.cx c.ctx).openN, hdr := [] }] ∧
        Fetches s t (c.opnd 2 0 48) 64 (.reel slot) (s.cmdPid c)) ∧
    (Chosen s slot 0x0B c → ((s.cx c.ctx).st = .closed ∨ (s.cx c.ctx).closing ≠ none ∨ 8 ≤ (s.cx c.ctx).loads.length) →
      ∃ t, exec (.reelLoad slot) s = .next t ∧ Completed s t slot .rejectedState 1 ∧ t.ctx = s.ctx) ∧
    (∀ ws : List Word64, Chosen s slot 0x15 c →
      ws = (s.sheet.telUnits c.unit (c.opnd 2 48 2)).flatMap s.telRecord →
      ∃ t, exec (.telemetryRead slot) s = .next t ∧ Running t slot ∧
        (∀ x, t.cmd? slot = some x → x.wait = (s.sheet.telUnits c.unit (c.opnd 2 48 2)).length) ∧
        (ws.length ≤ 2 * chunkBeats (c.opnd 2 0 48) (8 * ws.length) →
          Sends s t (c.opnd 2 0 48) ws (.data slot true) (s.cmdPid c)) ∧
        (2 * chunkBeats (c.opnd 2 0 48) (8 * ws.length) < ws.length →
          Outgoing t (c.opnd 2 0 48) (ws.take (2 * chunkBeats (c.opnd 2 0 48) (8 * ws.length))) (.data slot false)
            (s.cmdPid c))) ∧
    (Arrived s slot 0x16 c → s.inScope c = true → c.opnd 2 0 7 = 0 → 1 ≤ c.opnd 3 9 10 → c.opnd 3 9 10 ≤ 512 →
      (s.nv.ready = false → ∃ t, exec (.nvRead slot) s = .next t ∧ Completed s t slot .rejectedState 0) ∧
      (s.nv.ready = true → 512 < c.opnd 3 0 9 + c.opnd 3 9 10 →
        ∃ t, exec (.nvRead slot) s = .next t ∧ Completed s t slot .rejectedLimit 0)) ∧
    (∀ l : List FlashSlot, Chosen s slot 0x16 c → s.nv.ready = true →
      l = ((s.nv.committed (2 ^ 32)).drop (c.opnd 3 0 9)).take (c.opnd 3 9 10) →
      ∃ t, exec (.nvRead slot) s = .next t ∧ t.nv = s.nv ∧
        (s.nv.busy = true → Running t slot ∧ t.host.writes = s.host.writes) ∧
        (s.nv.busy = false → l = [] → Ended t slot .done 0) ∧
        (s.nv.busy = false → l ≠ [] →
          (l.flatMap (fun f => f.words)).length ≤
            2 * chunkBeats (c.opnd 2 0 48) (8 * (l.flatMap (fun f => f.words)).length) →
          Outgoing t (c.opnd 2 0 48) (l.flatMap (fun f => f.words)) (.data slot true) (s.cmdPid c)))

/-- 06 R173, R175, 11 R370, 08 R258, R274, R275: CONTEXT_CLOSE is REJECTED_STATE at a closed or closing context, closes one
that owes no notice at once and else waits for its watermark. PLAN_ARM makes the first shot of a resident reel the next;
PLAN_DISARM ends held loads and leaves the plan at the next boundary. SLATE_JOIN enumerates at the root, where it joins at
once without children, and asks upward elsewhere; SLATE_LEAVE dissolves an idle tree at the root and else waits.
Rows that complete here: contextClose, planArm, planDisarm, slateJoin, slateLeave. -/
def Obligations.ContextCommandsComplete : Prop :=
  ∀ (slot : Slot) (c : Cmd) (s : State), c.ctx < 16 →
    (Chosen s slot 0x0A c → ((s.cx c.ctx).st = .closed ∨ (s.cx c.ctx).closing ≠ none) →
      ∃ t, exec (.contextClose slot) s = .next t ∧ Completed s t slot .rejectedState 0 ∧ t.ctx = s.ctx) ∧
    (Chosen s slot 0x0A c → (s.cx c.ctx).st ≠ .closed → (s.cx c.ctx).closing = none →
      ∃ t, exec (.contextClose slot) s = .next t ∧ (t.cx c.ctx).plan = false ∧
        ((t.cx c.ctx).st = .closed ∨ (t.cx c.ctx).closing = some slot.val) ∧
        (∀ l ∈ (t.cx c.ctx).loads, l.loading = true) ∧
        (∀ p rest, (s.cx c.ctx).plan = false → (s.cx c.ctx).wmStop = false → (s.cx c.ctx).played = p :: rest →
          p.notice = .waiting → (t.cx c.ctx).st = .reactive ∧ (t.cx c.ctx).played = p :: rest) ∧
        ((s.cx c.ctx).plan = false → (s.cx c.ctx).played = [] → (s.cx c.ctx).wmDirty = false →
          (s.cx c.ctx).loads = [] → (t.cx c.ctx).st = .closed ∧ (t.cx c.ctx).reels = [] ∧ Ended t slot .done 0)) ∧
    (Chosen s slot 0x0C c → ((s.cx c.ctx).reel (c.opnd 2 0 8) = none ∨ (s.cx c.ctx).st ≠ .reactive ∨
        (s.cx c.ctx).closing ≠ none) →
      ∃ t, exec (.planArm slot) s = .next t ∧ Completed s t slot .rejectedState 0 ∧ t.ctx = s.ctx) ∧
    (∀ e : Reel, Chosen s slot 0x0C c → (s.cx c.ctx).reel (c.opnd 2 0 8) = some e → (s.cx c.ctx).st = .reactive →
      (s.cx c.ctx).closing = none →
      ∃ t, exec (.planArm slot) s = .next t ∧ Completed s t slot .done 0 ∧ (t.cx c.ctx).st = .armed ∧
        (t.cx c.ctx).cur = none ∧ ∃ nx, (t.cx c.ctx).next = some nx ∧ nx.shot = some e.sbase ∧ nx.reel = e.num ∧
        nx.onset = (if (s.shot c.ctx e.sbase).cued then none else some s.elapsed)) ∧
    (Chosen s slot 0x0D c → (s.cx c.ctx).plan = false →
      ∃ t, exec (.planDisarm slot) s = .next t ∧ Completed s t slot .rejectedState 0 ∧ t.ctx = s.ctx) ∧
    (Chosen s slot 0x0D c → (s.cx c.ctx).plan = true →
      ∃ t, exec (.planDisarm slot) s = .next t ∧ (t.cx c.ctx).leaving = true ∧ (t.cx c.ctx).st = (s.cx c.ctx).st ∧
        (t.cx c.ctx).loads = (s.cx c.ctx).loads.filter (fun l => l.loading) ∧
        ∀ l ∈ (s.cx c.ctx).loads, l.loading = false → ∀ x, s.cmd? l.slot = some x → l.slot ≠ slot.val →
          x.stage ≠ .complete → Ended t l.slot .abortedDisabled 0) ∧
    (Chosen s slot 0x10 c → (s.slt.joined = true ∨ s.slt.join ≠ none ∨ s.role = 0 ∨
        (s.role ≠ 2 ∧ (vget s.slt.ports 0).st ≠ 2) ∨ (s.cx c.ctx).st = .closed) →
      ∃ t, exec (.slateJoin slot) s = .next t ∧ Completed s t slot .rejectedState 0 ∧ t.slt = s.slt) ∧
    (Chosen s slot 0x10 c → s.slt.joined = false → s.slt.join = none → (s.cx c.ctx).st ≠ .closed →
      (s.role = 1 → (vget s.slt.ports 0).st = 2 →
        ∃ t, exec (.slateJoin slot) s = .next t ∧ Running t slot ∧
          t.slt = { s.slt with join := some (slot.val, s.elapsed + s.sheet.s9.joinTo * 1000000), ctx := c.ctx } ∧
          (s.slt.time.locked = true → s.slt.disc ≠ 1 → t.out = .marker 0 (mkWord kUp (ctrlPay 7 1)) ::
            .marker 0 (mkWord kUp (ctrlPay 7 1)) :: s.out)) ∧
      (s.role = 2 → s.downPorts ≠ [] →
        ∃ t, exec (.slateJoin slot) s = .next t ∧ Running t slot ∧ t.slt.disc = 1 ∧ t.slt.level = 1 ∧
          t.slt.join = some (slot.val, s.elapsed + s.sheet.s9.joinTo * 1000000) ∧ t.slt.ctx = c.ctx ∧
          ∀ p ∈ s.downPorts, (vget t.slt.ports p).asked = true) ∧
      (s.role = 2 → s.downPorts = [] →
        ∃ t, exec (.slateJoin slot) s = .next t ∧ Completed s t slot .done 1 ∧ t.slt.joined = true ∧ t.slt.n = 1 ∧
          t.slt.join = none)) ∧
    (Chosen s slot 0x11 c → s.slt.joined = false →
      ∃ t, exec (.slateLeave slot) s = .next t ∧ Completed s t slot .rejectedState 0 ∧ t.slt = s.slt) ∧
    (Chosen s slot 0x11 c → s.slt.joined = true → s.slt.leaving = false → s.role = 2 → s.slt.open_ = false →
      ∃ t, exec (.slateLeave slot) s = .next t ∧ Ended t slot .done 0 ∧ t.slt.joined = false ∧ t.slt.leave = none) ∧
    (Chosen s slot 0x11 c → s.slt.joined = true → (s.slt.leaving = true ∨ s.role ≠ 2 ∨ s.slt.open_ = true) →
      ∃ t, exec (.slateLeave slot) s = .next t ∧ Running t slot ∧ t.slt.joined = true ∧ t.slt.leaving = true ∧
        t.slt.leave = some slot.val)

/-- 14 R451 to R453, R456, 15 R465 to R468: MARGIN_PROBE holds FCEIL at the target and ramps its domain to the first step, and
reads the verdict after DWELL; SELF_TEST starts its comparison in two clusters; MARCH clears its memory unless it keeps it
and its run ends with the count of failing words; STAMP_CONFIG leaves a mapping for the next sample boundary. A command
whose checks fail at dispatch ends with that status.
Rows that complete here: marginProbe, selfTest, march, stampConfig, marginProbeDwell, marchComplete. -/
def Obligations.TestCommandsComplete : Prop :=
  ∀ (slot : Slot) (c : Cmd) (s : State),
    (∀ (d : DomIx) (st : Status), Chosen s slot 0x12 c → uKind c.unit = .domain d → s.probeRefused c d = some st →
      ∃ t, exec (.marginProbe slot) s = .next t ∧ Completed s t slot st 0 ∧ t.clu = s.clu ∧ t.dom = s.dom) ∧
    (∀ d : DomIx, Chosen s slot 0x12 c → probeLimits c = true → uKind c.unit = .domain d → s.probeRefused c d = none →
      ∃ t, exec (.marginProbe slot) s = .next t ∧ Running t slot ∧ (t.dm d).probeT = some (s.dm d).tgt ∧
        (∃ p, Tab.get? t.probes slot = some p ∧ p.dom = d.val ∧ p.t = (s.dm d).tgt ∧ p.k = 1 ∧ p.phase = 0 ∧
          p.run = s.probeRun d) ∧
        ∀ q ∈ s.sheet.domHalves d, (t.half q.1 q.2).ramp.chg = (s.half q.1 q.2).ramp.chg ++
          [{ tgt := (s.dm d).tgt - c.probeOps.1, rate := s.sheet.s2.slewDef, cmd := none, shot := false }]) ∧
    (∀ p : Probe, Tab.get? s.probes slot = some p → p.slot = slot.val → s.cmd? slot = some c → p.phase = 2 →
      ∃ t, exec (.marginProbeDwell slot) s = .next t ∧ t.elapsed = max s.elapsed p.dwellBy ∧
        Tab.get? t.probes slot = some { p with phase := 3 } ∧
        Fetches s t (c.probeOps.2.2.2 / 16 * 16) 16 (.verdict slot) (s.cmdPid c)) ∧
    (∀ st res, Chosen s slot 0x13 c → selfCheck c s = some (st, res) →
      ∃ t, exec (.selfTest slot) s = .next t ∧ Completed s t slot st res ∧ t.selft = s.selft) ∧
    (Chosen s slot 0x13 c → selfCheck c s = none →
      ∃ t, exec (.selfTest slot) s = .next t ∧ Running t slot ∧
        t.selft = some { slot, a := c.selfOps.1, b := c.selfOps.2.1, nops := c.selfOps.2.2.1, seed := c.selfOps.2.2.2,
                         ia := 0, ib := 0, sigA := [], sigB := [], cmp := 0, mism := 0 }) ∧
    (Chosen s slot 0x14 c → c.marchOps.2.2 = false → s.marchFree c.marchOps.1 c.marchOps.2.1 = false →
      ∃ t, exec (.march slot) s = .next t ∧ Completed s t slot .rejectedState 0 ∧ t.clu = s.clu ∧ t.march = s.march) ∧
    (Chosen s slot 0x14 c → (c.marchOps.2.2 = true ∨ s.marchFree c.marchOps.1 c.marchOps.2.1 = true) →
      c.marchOps.1 < 4 → (s.cl c.marchOps.2.1).inReset ≠ none →
      ∃ t, exec (.march slot) s = .next t ∧ Completed s t slot .abortedReset 0 ∧ t.clu = s.clu ∧ t.march = s.march) ∧
    (Chosen s slot 0x14 c → (c.marchOps.2.2 = true ∨ s.marchFree c.marchOps.1 c.marchOps.2.1 = true) →
      (c.marchOps.1 < 4 → (s.cl c.marchOps.2.1).inReset = none) → (c.marchOps.2.2 = true → s.flt.injects = []) →
      ∃ t, exec (.march slot) s = .next t ∧ Running t slot ∧ t.march = some slot.val ∧
        (c.marchOps.2.2 = true → t.sec = s.sec ∧ ∀ n : CluIx, (t.cl n).ctl = (s.cl n).ctl ∧ (t.cl n).led = (s.cl n).led ∧
          (t.cl n).halves = (s.cl n).halves ∧ (t.cl n).pred = (s.cl n).pred) ∧
        (c.marchOps.2.2 = false → (c.marchOps.1 = 1 ∨ c.marchOps.1 = 2) → (t.cl c.marchOps.2.1).ctl.inactive = {} ∧
          (t.cl c.marchOps.2.1).ctl.active = (s.cl c.marchOps.2.1).ctl.active) ∧
        (c.marchOps.2.2 = false → c.marchOps.1 = 3 → (t.cl c.marchOps.2.1).led.pend = [] ∧
          (t.cl c.marchOps.2.1).led.grants = [] ∧ ∀ h : HalfIx, (t.half c.marchOps.2.1 h).acc = {}) ∧
        (c.marchOps.2.2 = false → c.marchOps.1 = 9 → ∀ i : Fin 16, vget t.sec.prot i = vrep 8 0)) ∧
    (∀ failing : Nat, s.march = some slot.val → s.cmd? slot = some c → c.stage = .dispatched →
      ∃ t, exec (.marchComplete slot failing) s = .next t ∧ t.march = none ∧ Ended t slot .done failing ∧
        (c.marchOps.1 < 4 → (t.cl c.marchOps.2.1).marchFail =
          satAdd 7 (s.cl c.marchOps.2.1).marchFail failing)) ∧
    (Chosen s slot 0x17 c →
      ∃ t, exec (.stampConfig slot) s = .next t ∧ Running t slot ∧
        (vget t.stamps (c.opnd 2 0 6)).chg = some (c.opnd 2 6 7, c.opnd 2 13 1 == 1, slot.val) ∧
        ∀ g : Fin 64, g.val ≠ c.opnd 2 0 6 → vget t.stamps g = vget s.stamps g)

/-! ## The host interface (chapter 13) -/

/-- 13 R401, R405 to R407, R412, R413: a doorbell moves the producer index of a command ring or the consumer index of another
ring; one that its ring does not admit is refused and counted, and one while ZN_RDY is low is counted as dropped; a lane or
offset that names no doorbell has no effect. A fetch reads the descriptors of the first ring in turn that has some; decode
takes the next descriptor: a poisoned or misplaced one ends without a slot, a badly formed one ends in its slot, and any
other takes its slot; arbitrate selects a command that waits for nothing.
Rows that complete here: doorbell, descriptorFetch, descriptorDecode, commandDispatch. -/
def Obligations.HostPipelineRowsComplete : Prop :=
  ∀ s : State,
    (∀ (off : BitVec 12) (data : Word64) (be : BitVec 8), s.accessible = true →
      (off.toNat % 8 ≠ 0 ∨ 36 ≤ off.toNat / 8 ∨ be.toNat % 16 = 0 → exec (.doorbell off data be) s = .next s) ∧
      (off.toNat % 8 = 0 → off.toNat / 8 < 36 → be.toNat % 16 ≠ 0 →
        (s.pins.rdy = false → ∃ t, exec (.doorbell off data be) s = .next t ∧
          t.host = { s.host with dbDrop := satInc 8 s.host.dbDrop }) ∧
        (s.pins.rdy = true → ((vget s.host.rings (off.toNat / 8)).on = false ∨ be.toNat % 16 ≠ 15 ∨
            (vget s.host.rings (off.toNat / 8)).disAt = some s.elapsed ∨
            (off.toNat / 8 < 16 ∧ (vget s.host.rings (off.toNat / 8)).dis = true) ∨
            (vget s.host.rings (off.toNat / 8)).admits (decide (off.toNat / 8 < 16)) (data.setWidth 32) = false) →
          ∃ t, exec (.doorbell off data be) s = .next t ∧ t.host = { s.host with dbBad := satInc 8 s.host.dbBad }) ∧
        (s.pins.rdy = true → be.toNat % 16 = 15 → (vget s.host.rings (off.toNat / 8)).on = true →
          (vget s.host.rings (off.toNat / 8)).disAt ≠ some s.elapsed →
          (vget s.host.rings (off.toNat / 8)).admits (decide (off.toNat / 8 < 16)) (data.setWidth 32) = true →
          (off.toNat / 8 < 16 → (vget s.host.rings (off.toNat / 8)).dis = false →
            ∃ t, exec (.doorbell off data be) s = .next t ∧ vget t.host.rings (off.toNat / 8) =
              { vget s.host.rings (off.toNat / 8) with
                prod := data.setWidth 32, db := some (s.elapsed, (vget s.host.rings (off.toNat / 8)).prod) }) ∧
          (16 ≤ off.toNat / 8 → ∃ t, exec (.doorbell off data be) s = .next t ∧ vget t.host.rings (off.toNat / 8) =
            { vget s.host.rings (off.toNat / 8) with
              cons := data.setWidth 32, db := some (s.elapsed, (vget s.host.rings (off.toNat / 8)).cons) })))) ∧
    (∀ (k : Fin 16), Serving s → s.pins.rdy = true → s.host.reset = false →
      ((List.range 16).map (fun j => (s.host.rr + j) % 16)).find? (fun k => decide (0 < s.fetchN k)) = some k.val →
      ∃ t, exec .descriptorFetch s = .next t ∧ t.host.rr = (k.val + 1) % 16 ∧
        (vget t.host.rings k).issued = (vget s.host.rings k).issued + BitVec.ofNat 32 (s.fetchN k) ∧
        Fetches s t ((vget s.host.rings k).base +
            64 * ((vget s.host.rings k).issued.toNat % 2 ^ (vget s.host.rings k).log2n)) (64 * s.fetchN k)
          (.desc k (vget s.host.rings k).issued (s.fetchN k) s.host.ages) (vget s.host.rings k).pid) ∧
    (∀ f : Fetched, Serving s → s.nextFetched = some f →
      (f.poison = true → ∃ t, exec .descriptorDecode s = .next t ∧ t.host.cmds = s.host.cmds ∧
        ∃ r, t.host.cpls = s.host.cpls ++ [r] ∧ r.slot = none ∧ r.status = .poisoned ∧ r.tag = 0 ∧ r.index = f.index) ∧
      (∀ q : Nat, f.poison = false → q = fld (wordAt f.words 0) 8 9 →
        (q < (vget s.host.rings f.ring).slotBase ∨
            (vget s.host.rings f.ring).slotBase + (vget s.host.rings f.ring).slotCnt ≤ q ∨ (s.cmd? q).isSome = true ∨
            (cmdOf f).gen ≠ Tab.getN s.host.gens q →
          ∃ t, exec .descriptorDecode s = .next t ∧ t.host.cmds = s.host.cmds ∧
            ∃ r, t.host.cpls = s.host.cpls ++ [r] ∧ r.slot = none ∧ r.status = .rejectedFormat ∧ r.index = f.index) ∧
        ((vget s.host.rings f.ring).slotBase ≤ q →
          q < (vget s.host.rings f.ring).slotBase + (vget s.host.rings f.ring).slotCnt → s.cmd? q = none →
          (cmdOf f).gen = Tab.getN s.host.gens q → s.host.reset = false → (vget s.host.rings f.ring).dis = false →
          (fmtBad f.words = true → ∃ t, exec .descriptorDecode s = .next t ∧ Completed s t q .rejectedFormat 0) ∧
          (fmtBad f.words = false → ∃ t, exec .descriptorDecode s = .next t ∧ t.cmd? q = some (cmdOf f) ∧
            t.host.cpls = s.host.cpls)))) ∧
    (∀ (slot : Slot) (c : Cmd), Serving s → s.cmd? slot = some c → c.stage = .held →
      (s.waitsResolve slot c = true → exec (.commandDispatch slot) s = .next s) ∧
      (s.waitsResolve slot c = false → s.abortsOf c = [] →
        (∀ p ∈ s.host.cmds, p.2.age < c.age → p.2.stage ≠ .complete → s.waitsFor c p.2 = false) →
        ∃ t, exec (.commandDispatch slot) s = .next t ∧ t.cmd? slot = some { c with stage := .selected }))

/-- 13 R411, R416, R417, R423, R424: the next record of a completion ring, and of an event ring, is written at the ring's
producer index when the ring has room, a LOST record before any other; nothing is written to a full ring, to a ring that is
off, or in the fatal state.
Rows that complete here: completionRecord, eventRecordWrite. -/
def Obligations.RecordRowsComplete : Prop :=
  ∀ (q : Fin 16) (j : Fin 4) (s : State),
    ((vget s.host.rings (16 + q.val)).on = false ∨ (vget s.host.rings (16 + q.val)).full = true ∨ s.flt.fatal = true →
      exec (.completionRecord q) s = .next s) ∧
    (∀ (r : Ring) (x : CplRec), Serving s → r = vget s.host.rings (16 + q.val) → r.on = true → r.full = false →
      (sortBy CplRec.before (s.host.cpls.filter (fun x => (vget s.host.rings x.ring).cpl == q.val && !s.cplHeld x))).head? =
        some x →
      ∃ t, exec (.completionRecord q) s = .next t ∧ t.host.cpls = s.host.cpls.erase x ∧
        vget t.host.rings (16 + q.val) = { r with prod := r.prod + 1 } ∧
        Sends s t (r.base + 32 * (r.prod.toNat % 2 ^ r.log2n)) x.words (.cpl (16 + q.val) x.slot r.prod) ownSrc) ∧
    ((vget s.host.rings (32 + j.val)).on = false ∨ (vget s.host.rings (32 + j.val)).full = true ∨ s.flt.fatal = true →
      exec (.eventRecordWrite j) s = .next s) ∧
    (∀ (r : Ring), Serving s → r = vget s.host.rings (32 + j.val) → r.on = true → r.full = false →
      ((vget s.host.lost j).count ≠ 0 →
        ∃ t, exec (.eventRecordWrite j) s = .next t ∧ vget t.host.lost j = {} ∧ t.host.buf = s.host.buf ∧
          vget t.host.rings (32 + j.val) = { r with prod := r.prod + 1 } ∧
          Sends s t (r.base + 32 * (r.prod.toNat % 2 ^ r.log2n)) (vget s.host.lost j).words
            (.event (32 + j.val) r.prod none) ownSrc) ∧
      (∀ e : EvRec, (vget s.host.lost j).count = 0 → s.host.buf.find? (fun e => e.ring == j.val) = some e →
        ∃ t, exec (.eventRecordWrite j) s = .next t ∧
          ((∀ c : CluIx, ∀ x ∈ vget s.host.ovf c, x.poison = false) → t.host.lost = s.host.lost) ∧
          vget t.host.rings (32 + j.val) = { r with prod := r.prod + 1 } ∧
          Sends s t (r.base + 32 * (r.prod.toNat % 2 ^ r.log2n)) e.words (.event (32 + j.val) r.prod e.notice) ownSrc))

/-- 13 R32, R394 to R398, R412: beats are taken in ascending address, a read longer than a transfer goes on under its ID, and
a whole fetch of descriptors brings them with their poison. An acknowledgement of a completion record frees the command's
slot and advances its generation; an ERR has the write issued again 1 us later, and the 16th is FATAL at unit 0, an event
record that it drops being counted lost (01 R36).
Rows that complete here: writeAcknowledge, writeReissue, readData. -/
def Obligations.PortTransfersComplete : Prop :=
  ∀ (pid : PortId) (s : State), s.accessible = true →
    (∀ (r : RdReq) (beats : List Beat) (bad : Bool), Tab.get? s.host.reads pid = some r →
      (beats.length < r.due →
        ∃ t, exec (.readData pid beats bad) s = .next t ∧ t.out = s.out ∧ ∃ r', Tab.get? t.host.reads pid = some r' ∧
          r'.due = r.due - beats.length ∧ r'.addr = r.addr + 16 * beats.length ∧
          r'.words = r.words ++ beats.flatMap (fun (b : Beat) => [b.setWidth 64, (b >>> 64).setWidth 64])) ∧
      (beats.length = r.due → 16 * r.due < r.left →
        ∃ t, exec (.readData pid beats bad) s = .next t ∧ ∃ r', Tab.get? t.host.reads pid = some r' ∧
          r'.addr = r.addr + 16 * r.due ∧ r'.left = r.left - 16 * r.due ∧ r'.due = chunkBeats r'.addr r'.left ∧
          t.out = .memRead pid r'.addr r'.due r.src :: s.out) ∧
      (∀ (k n age : Nat) (idx : BitVec 32), r.use = .desc k idx n age → beats.length = r.due → r.left = 16 * r.due →
        r.words = [] → r.bads = [] → r.skip = 0 → r.due = 4 * n →
        ∃ t fs, exec (.readData pid beats bad) s = .next t ∧ t.host.fetched = s.host.fetched ++ fs ∧ fs.length = n ∧
          ∀ f ∈ fs, f.ring = k ∧ f.poison = bad ∧ f.words.length = 8)) ∧
    (∀ w : WrReq, Tab.get? s.host.writes pid = some w → w.retryAt = none →
      (∀ (k i : Nat) (idx : BitVec 32), w.use = .cpl k (some i) idx →
        ∃ t, exec (.writeAcknowledge pid false) s = .next t ∧ t.host.cmds = Tab.del s.host.cmds i ∧
          t.host.gens = Tab.putN s.host.gens i ((Tab.getN s.host.gens i + 1) % 8)) ∧
      (w.issues < 16 → s.flt.fatal = false ∨ w.use.record = false →
        exec (.writeAcknowledge pid true) s = .next { s with host := { s.host with
          writes := Tab.put s.host.writes pid { w with retryAt := some (s.elapsed + 1000) } } }) ∧
      (16 ≤ w.issues →
        ∃ t, exec (.writeAcknowledge pid true) s = .next t ∧ t.flt.fatal = true ∧
          ∀ (j : Fin 4) (idx : BitVec 32) (nt : Option (Nat × Nat)), w.use = .event (32 + j.val) idx nt →
            lostWords w.words = false → s.host.lostCnt < 4095 → s.host.lostCnt < t.host.lostCnt)) ∧
    (∀ (w : WrReq) (t0 : Nat), Tab.get? s.host.writes pid = some w → w.retryAt = some t0 →
      (∀ err : Bool, exec (.writeAcknowledge pid err) s = .next s) ∧
      ∃ t, exec (.writeReissue pid) s = .next t ∧ t.elapsed = max s.elapsed t0 ∧
        Tab.get? t.host.writes pid = some { w with issues := w.issues + 1, retryAt := none } ∧
        t.host.portErr = satInc 5 s.host.portErr ∧ t.out = memWriteOut pid { w with issues := w.issues + 1, retryAt := none } :: s.out)

/-! ## Registers with an effect of their own (chapters 09, 13, 14, 15 and 16) -/

/-- 13 R401, R404, 02 R56, 15 R473, R475, 14 R434, R458, 09 R292, R300, R301: what a write or a read of each of these
registers does once it is admitted. A ring that is off is armed and its entry read; a ring that is on begins its disable, and
the commands of a command ring that have not been dispatched end ABORTED_DISABLED. GO starts the fetch of the call sheet; the
boot lock is set; a permitted life-cycle request is sent to the store and any other is a violation.
Rows that complete here: ringEnable, ringDisable, eventRingEnable, eventRingDisable, callSheetGo, bootLock, lcRequest,
firstErrorClear, faultInjection, singleShot, queueHeadRead, legacyDataRead, legacySelectWrite. -/
def Obligations.SetupRegistersComplete : Prop :=
  ∀ (id : AccId) (v : Word32) (be : BitVec 4) (s : State),
    (MayWrite s id 0x00108 →
      (∃ t, exec (.ringEnable id v be) s = .next t ∧ ∀ k : Fin 36,
        (k.val < 32 → (enBits v be).testBit k = true → (vget s.host.rings k).on = false →
          (vget s.host.rings k).arming = false → (vget t.host.rings k).arming = true ∧
          ∃ q r, Tab.get? t.host.reads q = some r ∧ r.use = .ringEntry k ∧
            r.addr = (s.host.tbl + 32 * k.val) / 16 * 16 ∧ r.src = ownSrc) ∧
        ((32 ≤ k.val ∨ (enBits v be).testBit k = false ∨ (vget s.host.rings k).on = true) →
          vget t.host.rings k = vget s.host.rings k))) ∧
    (MayWrite s id 0x0010C →
      (∃ t, exec (.ringDisable id v be) s = .next t ∧ ∀ k : Fin 36, k.val < 32 → (enBits v be).testBit k = true →
        ((vget s.host.rings k).on = true → (vget s.host.rings k).dis = false →
          ((vget t.host.rings k).dis = true ∨ (vget t.host.rings k).on = false) ∧
          ∀ q c, k.val < 16 → s.cmd? q = some c → c.ring = k.val → c.stage.early = true →
            Ended t q .abortedDisabled 0) ∧
        ((vget s.host.rings k).on = false → (vget t.host.rings k).on = false ∧
          (vget t.host.rings k).arming = false))) ∧
    (MayWrite s id 0x00110 →
      (∃ t, exec (.eventRingEnable id v be) s = .next t ∧ ∀ j : Fin 4,
        ((enBits v be).testBit j = true → (vget s.host.rings (32 + j.val)).on = false →
          (vget s.host.rings (32 + j.val)).arming = false → (vget t.host.rings (32 + j.val)).arming = true ∧
          ∃ q r, Tab.get? t.host.reads q = some r ∧ r.use = .ringEntry (32 + j.val) ∧
            r.addr = (s.host.tbl + 32 * (32 + j.val)) / 16 * 16 ∧ r.src = ownSrc)) ∧
      (∃ t, exec (.eventRingDisable id v be) s = .next t ∧ ∀ j : Fin 4, (enBits v be).testBit (4 + j.val) = true →
        (vget s.host.rings (32 + j.val)).on = true →
        (vget t.host.rings (32 + j.val)).dis = true ∨ (vget t.host.rings (32 + j.val)).on = false)) ∧
    (MayWrite s id 0x00028 →
      ((enBits v be).testBit 0 = true → s.boot.step = 4 → s.boot.cshState ≠ 1 → s.boot.cshState ≠ 2 →
        ∃ t, exec (.callSheetGo id v be) s = .next t ∧ t.boot.cshState = 1 ∧ t.boot.cshCheck = 0 ∧ t.boot.halt = false ∧
          t.boot.waitGo = false ∧ Fetches s t s.boot.cshBase 64 (.csh none) ownSrc) ∧
      ((enBits v be).testBit 0 = false ∨ s.boot.step ≠ 4 →
        ∃ t, exec (.callSheetGo id v be) s = .next t ∧ t.boot = s.boot ∧ t.host = s.host)) ∧
    (MayWrite s id 0x58008 → ∃ t, exec (.bootLock id v be) s = .next t ∧
      t.sec.lock = (s.sec.lock || (enBits v be).testBit 0)) ∧
    (MayWrite s id 0x58004 →
      (∀ g : Nat, g = enBits v be % 4 → enBits v be / 2 ^ 16 = 0x4C43 →
        ((s.sec.lc = 0 ∧ g = 1) ∨ (s.sec.lc = 1 ∧ (g = 2 ∨ g = 3)) ∨ (s.sec.lc = 2 ∧ g = 3)) → s.sec.lcReq = none →
        ∃ t, exec (.lcRequest id v be) s = .next t ∧ t.sec.lcReq = some g ∧ t.sec.lc = s.sec.lc ∧
          t.out = .storeProg g :: s.out) ∧
      (enBits v be / 2 ^ 16 ≠ 0x4C43 →
        ∃ t, exec (.lcRequest id v be) s = .next t ∧ t.sec.lcReq = s.sec.lcReq ∧ t.out = s.out ∧
          t.sec.violCnt = satInc 24 s.sec.violCnt ∧ t.sec.violId = id.val ∧ t.sec.violKind = 1)) ∧
    (MayWrite s id 0x38010 → ∃ t, exec (.firstErrorClear id v be) s = .next t ∧
      t.flt.first = (if (enBits v be).testBit 0 then {} else s.flt.first) ∧ t.flt.opens = s.flt.opens) ∧
    (∀ r : Nat, MayWrite s id 0x38030 → r = (mergeBytes s.flt.injReg v be &&& 0x3FFFFFFE).toNat →
      (s.factory = false → ∃ t, exec (.faultInjection id v be) s = .next t ∧ t.flt = s.flt) ∧
      (s.factory = true → (enBits v be).testBit 0 = false →
        ∃ t, exec (.faultInjection id v be) s = .next t ∧ t.flt.injReg.toNat = r ∧ t.flt.injects = s.flt.injects) ∧
      (∀ left : Nat, s.factory = true → (enBits v be).testBit 0 = true → 1 ≤ fld r 1 3 → fld r 1 3 ≤ 3 →
        left = (if fld r 1 3 = 3 then 1 else fld s.flt.injArg.toNat 16 8) → left ≠ 0 →
        ∃ t, exec (.faultInjection id v be) s = .next t ∧
          t.flt.injects = s.flt.injects ++ [{ kind := fld r 1 3, unit := fld r 16 11, arg := s.flt.injArg, left }]) ∧
      (s.factory = true → (enBits v be).testBit 0 = true → fld r 1 3 = 0 → (fltClass (fld r 4 12)).isSome = true →
        fld r 27 3 ≠ 4 → 1 ≤ fld r 27 3 → fld r 27 3 ≤ 4 → s.flt.queue.length < 256 →
        ∃ t x, exec (.faultInjection id v be) s = .next t ∧ t.flt.queue = s.flt.queue ++ [x] ∧ x.inj = true ∧
          x.code = fld r 4 12 ∧ x.cls = fld r 27 3 ∧ x.sc = .unit (fld r 16 11))) ∧
    (∀ (n : CluIx) (ch : Nat), MayWrite s id (0x18028 + 0x80 * n.val) →
      ch = (mergeBytes (BitVec.ofNat 32 (s.cl n).sense.urgCh) v be).toNat % 64 →
      ∃ t, exec (.singleShot id n v be) s = .next t ∧ (t.cl n).sense.urgCh = ch ∧
        (t.cl n).sense.urgDone = ((s.cl n).sense.urgDone && !(enBits v be).testBit 8) ∧
        ((enBits v be).testBit 6 = true → ch ≤ 32 → (t.cl n).sense.urgBusy = true ∧
          (t.cl n).sense.urgent = (s.cl n).sense.urgent ++ [{ ch, single := true, at_ := s.elapsed }]) ∧
        ((enBits v be).testBit 6 = false ∨ 32 < ch →
          (t.cl n).sense.urgent = (s.cl n).sense.urgent ∧ (t.cl n).sense.urgBusy = (s.cl n).sense.urgBusy)) ∧
    (∀ n : CluIx, MayRead s id (0x18024 + 0x80 * n.val) →
      ∃ t, exec (.queueHeadRead id n) s = .next t ∧ (t.cl n).sense.queue = (s.cl n).sense.queue.tail ∧
        t.out = .regData id (BitVec.ofNat 32 (wordAt (s.cl n).sense.queue 0 / 2 ^ 32)) :: s.out) ∧
    (MayRead s id 0xF8104 →
      ∃ t, exec (.legacyDataRead id) s = .next t ∧ t.legacy = { s.legacy with valid := false } ∧
        t.out = .regData id (BitVec.ofNat 32 s.legacy.vData) :: s.out) ∧
    (MayWrite s id 0xF8100 →
      ∃ t, exec (.legacySelectWrite id v be) s = .next t ∧
        t.legacy = { s.legacy with sel := mergeBytes s.legacy.sel v be &&& 0x0000FFFF, valid := false })

/-- 14 R438 to R442: a vector read takes the best pending source of its class into service and answers it; an acknowledgement
ends the service of its own processor's source and any other is counted; the pending and mask registers act on the named
sources alone and source 20 is never masked; the moderation timer opens the line; a new priority keeps the targets.
Rows that complete here: irqVecRead, irqFvecRead, irqAck, irqFack, irqPendSet, irqPendClr, irqMaskSet, irqMaskClr,
moderationTimer, processorIdle. -/
def Obligations.InterruptRowsComplete : Prop :=
  ∀ (id : AccId) (p : ProcIx) (w : Fin 8) (v : Word32) (be : BitVec 4) (s : State),
    (MayRead s id (0x31000 + 16 * p.val) →
      (s.irq.best p false = none →
        ∃ t, exec (.irqVecRead id p) s = .next t ∧ t.out = .regData id 0 :: s.out ∧ t.irq.src = s.irq.src) ∧
      (∀ k : Nat, s.irq.best p false = some k → ∃ t, exec (.irqVecRead id p) s = .next t ∧
        t.out = .regData id (BitVec.ofNat 32 (k + 256)) :: s.out ∧ OtherSources s t [k] ∧
        vget t.irq.src k = { vget s.irq.src k with pending := false, target := none, insvc := some p.val })) ∧
    (MayRead s id (0x31200 + 16 * p.val) →
      (s.irq.best p true = none →
        ∃ t, exec (.irqFvecRead id p) s = .next t ∧ t.out = .regData id 0 :: s.out ∧ t.irq.src = s.irq.src) ∧
      (∀ k : Nat, s.irq.best p true = some k → ∃ t, exec (.irqFvecRead id p) s = .next t ∧
        t.out = .regData id (BitVec.ofNat 32 (k + 256)) :: s.out ∧ OtherSources s t [k] ∧
        vget t.irq.src k = { vget s.irq.src k with pending := false, target := none, insvc := some p.val })) ∧
    (∀ k : Nat, MayWrite s id (0x31004 + 16 * p.val) → k = enBits v be % 256 →
      s.irq.firedAt s.elapsed k = none →
      ((vget s.irq.src k).insvc = some p.val → (vget s.irq.src k).fast = false →
        ∃ t, exec (.irqAck id p v be) s = .next t ∧ vget t.irq.src k = { vget s.irq.src k with insvc := none } ∧
          OtherSources s t [k] ∧ (vget t.irq.proc p).ackBad = (vget s.irq.proc p).ackBad) ∧
      ((vget s.irq.src k).insvc ≠ some p.val ∨ (vget s.irq.src k).fast = true →
        ∃ t, exec (.irqAck id p v be) s = .next t ∧ t.irq.src = s.irq.src ∧
          (vget t.irq.proc p).ackBad = satInc 8 (vget s.irq.proc p).ackBad)) ∧
    (∀ (k : Nat) (x : Fired), MayWrite s id (0x31004 + 16 * p.val) → k = enBits v be % 256 →
      s.irq.firedAt s.elapsed k = some x → 0 < x.n → (vget s.irq.src k).insvc = some p.val →
      (vget s.irq.src k).fast = false →
      ∃ t, exec (.irqAck id p v be) s = .next t ∧ (vget t.irq.src k).pending = true ∧
        (vget t.irq.src k).insvc = none) ∧
    (∀ k : Nat, MayWrite s id (0x31204 + 16 * p.val) → k = enBits v be % 256 →
      s.irq.firedAt s.elapsed k = none →
      ((vget s.irq.src k).insvc = some p.val → (vget s.irq.src k).fast = true →
        ∃ t, exec (.irqFack id p v be) s = .next t ∧ vget t.irq.src k = { vget s.irq.src k with insvc := none } ∧
          OtherSources s t [k] ∧ (vget t.irq.proc p).fackBad = (vget s.irq.proc p).fackBad) ∧
      ((vget s.irq.src k).insvc ≠ some p.val ∨ (vget s.irq.src k).fast = false →
        ∃ t, exec (.irqFack id p v be) s = .next t ∧ t.irq.src = s.irq.src ∧
          (vget t.irq.proc p).fackBad = satInc 8 (vget s.irq.proc p).fackBad)) ∧
    (MayWrite s id (0x30440 + 4 * w.val) →
      ∃ t, exec (.irqPendSet id w v be) s = .next t ∧ OtherSources s t (srcsOf w v be) ∧
        ∀ i ∈ srcsOf w v be,
          ((vget s.irq.src i).insvc.isSome = true →
            vget t.irq.src i = { vget s.irq.src i with lost := satInc 15 (vget s.irq.src i).lost }) ∧
          ((vget s.irq.src i).insvc = none → (vget s.irq.src i).pending = true →
            vget t.irq.src i = { vget s.irq.src i with coal := satInc 15 (vget s.irq.src i).coal }) ∧
          ((vget s.irq.src i).insvc = none → (vget s.irq.src i).pending = false →
            (vget t.irq.src i).pending = true ∧ (vget t.irq.src i).insvc = none)) ∧
    (MayWrite s id (0x30460 + 4 * w.val) → (∀ i ∈ srcsOf w v be, s.irq.firedAt s.elapsed i = none) →
      ∃ t, exec (.irqPendClr id w v be) s = .next t ∧ OtherSources s t (srcsOf w v be) ∧
        ∀ i ∈ srcsOf w v be, vget t.irq.src i = (if (vget s.irq.src i).pending then
          { vget s.irq.src i with pending := false, target := none, lost := satInc 15 (vget s.irq.src i).lost }
          else vget s.irq.src i)) ∧
    (MayWrite s id (0x30400 + 4 * w.val) →
      ∃ t, exec (.irqMaskSet id w v be) s = .next t ∧ OtherSources s t ((srcsOf w v be).filter (fun i => i != 20)) ∧
        ∀ i ∈ srcsOf w v be, i ≠ 20 → vget t.irq.src i = { vget s.irq.src i with masked := true, target := none }) ∧
    (MayWrite s id (0x30420 + 4 * w.val) →
      ∃ t, exec (.irqMaskClr id w v be) s = .next t ∧ OtherSources s t (srcsOf w v be) ∧
        ∀ i ∈ srcsOf w v be, (vget t.irq.src i).masked = false ∧ (vget t.irq.src i).pending = (vget s.irq.src i).pending ∧
          (vget t.irq.src i).insvc = (vget s.irq.src i).insvc) ∧
    (∀ t0 : Nat, (vget s.irq.proc p).timer = some t0 → (vget s.irq.proc p).modT ≠ 0 →
      ∃ t, exec (.moderationTimer p) s = .next t ∧ t.irq.src = s.irq.src ∧
        t.elapsed = max s.elapsed (t0 + 100 * (vget s.irq.proc p).modT) ∧
        ∀ i : Fin 256, (vget s.irq.src i).pending = true → (vget s.irq.src i).modr = true →
          (vget s.irq.src i).target = some p.val → (vget t.irq.proc p).expired = true) ∧
    (∀ pri : BitVec 5, ∃ t, exec (.processorIdle p pri) s = .next t ∧ t.irq.src = s.irq.src ∧
      (vget t.irq.proc p).pri = pri ∧ t.irq.procEn = s.irq.procEn ∧
      ∀ q : ProcIx, q ≠ p → (vget t.irq.proc q).pri = (vget s.irq.proc q).pri)

/-- 15 R475, R476, 16 R481, R482, R485, 17 R498, 01 R28: what becomes of a register access of any row before its register acts. One
that comes while another waits, waits behind it; one that is not aligned is ignored, and a read of the kind answers zero; one that
the page masks refuse, and a write of a boot-time register behind the lock, change nothing but the record of violations; one that
meets no register is ignored and counted nowhere; one that meets a stopped clock wakes it and waits. None reaches a block without
its supply or in block reset. -/
def Obligations.RegisterAccessesAreScreened : Prop :=
  ∀ (i : Instr) (id : AccId) (off : Nat) (w : Bool) (s : State), accessOf i = some (id, off, w) →
    let told := fun (x : State) => if w then x else { x with out := .regData id 0 :: x.out }
    let refused := fun (k : Nat) => told { s with sec := { s.sec with
      violCnt := satInc 24 s.sec.violCnt, violId := id.val, violKind := k } }
    (s.accessible = false → exec i s = .next s) ∧
    (s.accessible = true → s.stalled ≠ [] → off % 4 = 0 → exec i s = .next { s with stalled := s.stalled ++ [i] }) ∧
    (s.accessible = true → s.stalled = [] →
      (off % 4 ≠ 0 → exec i s = .next (told s)) ∧
      (off % 4 = 0 → s.permits id off w = false → exec i s = .next (refused (if w then 1 else 0))) ∧
      (off % 4 = 0 → s.permits id off w = true →
        (regAt off = none → exec i s = .next (told s)) ∧
        (∀ r : Reg, regAt off = some r →
          (s.regAbsent r = true → exec i s = .next (told s)) ∧
          (s.regAbsent r = false → w = true → s.lockedReg r = true → exec i s = .next (refused 1)) ∧
          (s.regAbsent r = false → w = false ∨ s.lockedReg r = false → s.regAwake r = false →
            exec i s = .next { s.wakeReg r with stalled := [i] }))))

/-! ## Ports, stores and what recurs (chapters 04, 05, 11, 14, 15 and 17) -/

/-- 11 R367, 14 R443, 15 R461, R473, 14 R445, R447, R450, 17 R501, R502: a host functional reset drops ZN_RDY, ends every live
command ABORTED_RESET, empties service at the interrupt controller, leaves no context in plan mode and fences the channels;
its release ends the fences. A stamp is returned for its region; the regulator buses are polled in turn; the NV store programs
a record in three writes; a life-cycle change wipes the page; a word of the secure page is filled again.
Rows that complete here: hostFunctionalReset, hostResetRelease, stampRequest, nvProgram, lcProgramDone, avsStatusPoll,
avsCurrentPoll, pmbusPoll, secureWordRefill. -/
def Obligations.PortRowsComplete : Prop :=
  ∀ s : State,
    (s.accessible = true → s.pins.hrstN = true →
      ∃ t, exec .hostFunctionalReset s = .next t ∧ t.pins.hrstN = false ∧ t.pins.rdy = false ∧ t.boot.host = true ∧
        t.host.reset = true ∧ (∀ i : Fin 256, (vget t.irq.src i).insvc = none) ∧ (∀ c : CtxIx, (t.cx c).plan = false) ∧
        (∀ k : Fin 66, (t.chan k).fenced = true) ∧
        ∀ q c, s.cmd? q = some c → c.stage ≠ .complete → Ended t q .abortedReset c.resetRes) ∧
    (s.accessible = false ∨ s.pins.hrstN = false → exec .hostFunctionalReset s = .next s) ∧
    (s.pins.hrstN = true → exec .hostResetRelease s = .next s) ∧
    (s.pins.hrstN = false →
      ∃ t, exec .hostResetRelease s = .next t ∧ t.pins.hrstN = true ∧ (∀ k : Fin 66, (t.chan k).fenced = false) ∧
        (s.host.reset = true → s.resetBusy = false → t.host.reset = false)) ∧
    (∀ g : Fin 64,
      (s.accessible = false → exec (.stampRequest g) s = .next { s with out := .stamp g 0 :: s.out }) ∧
      (∀ w : BitVec 128, s.accessible = true →
        w = BitVec.ofNat 128 ((if (vget s.stamps g).en then s.stampLow (vget s.stamps g).dom else 0) +
          s.elapsed % 2 ^ 64 * 2 ^ 64) →
        exec (.stampRequest g) s = .next { s with out := .stamp g w :: s.out })) ∧
    (∀ (st : List (BitVec 16)) (cur : BitVec 16) (x : PmbusPoll), s.accessible = true → s.pins.nReg ≠ 0 →
      (s.buses.avsAt ≠ 0 →
        ∃ t, exec (.avsStatusPoll st) s = .next t ∧ t.buses.avsSt = st.take s.pins.nReg ∧
          t.elapsed = max s.elapsed s.buses.avsAt ∧
          t.buses.avsAt = t.elapsed + (if t.buses.avsDone then 1000000 else 10000) ∧
          t.buses.avsDone = (s.buses.avsDone || ((st.take s.pins.nReg).length == s.pins.nReg &&
            (st.take s.pins.nReg).all (fun w => w.getLsbD 15)))) ∧
      (∃ t, exec (.avsCurrentPoll cur) s = .next t ∧ Tab.get? t.buses.avsCur s.buses.avsRail = some cur ∧
        t.buses.avsRail = (s.buses.avsRail + 1) % s.pins.nReg ∧ t.elapsed = max s.elapsed s.buses.curAt ∧
        t.buses.curAt = t.elapsed + 1000000 ∧ t.out = .avs 2 s.buses.avsRail 0 :: s.out) ∧
      (∃ t, exec (.pmbusPoll x) s = .next t ∧
        Tab.get? t.buses.pmb s.buses.pmbNext = some (pmbNewer x.read (Tab.get? s.buses.pmb s.buses.pmbNext)) ∧
        t.buses.pmbNext = (s.buses.pmbNext + 1) % s.pins.nReg ∧ t.elapsed = max s.elapsed s.buses.pmbAt ∧
        t.out = .pmbus (0x40 + s.buses.pmbNext) 0x8D [] :: .pmbus (0x40 + s.buses.pmbNext) 0x8C [] ::
          .pmbus (0x40 + s.buses.pmbNext) 0x88 [] :: .pmbus (0x40 + s.buses.pmbNext) 0x79 [] ::
          (if s.buses.pmbOff.contains s.buses.pmbNext ∧ x.off = false then pmbOffOut s.buses.pmbNext :: s.out
           else s.out))) ∧
    (∀ (r : NvRec) (rest : List NvRec), s.nv.staged = r :: rest → s.nv.ready = true → s.nv.erasing = false →
      s.flt.injects = [] →
      (∃ t, exec (.nvProgram true) s = .next t ∧ t.nv.ready = false ∧ t.nv.staged = s.nv.staged ∧
        t.nv.flash = s.nv.flash) ∧
      (r.step = 0 → Tab.get? s.nv.flash r.slot = none →
        ∃ t, exec (.nvProgram false) s = .next t ∧ t.nv.staged = { r with step := 1 } :: rest ∧
          t.nv.flash = Tab.put s.nv.flash r.slot
            { words := r.words.take 1 ++ List.replicate 15 erased, committed := false }) ∧
      (r.step = 1 →
        ∃ t, exec (.nvProgram false) s = .next t ∧ t.nv.staged = { r with step := 2 } :: rest ∧
          t.nv.flash = Tab.put s.nv.flash r.slot { words := r.words, committed := false }) ∧
      (r.step = 2 →
        ∃ t, exec (.nvProgram false) s = .next t ∧ t.nv.staged = rest ∧ t.nv.seq = r.nseq ∧
          t.nv.flash = Tab.put s.nv.flash r.slot { words := nvCommit r.words, committed := true })) ∧
    (s.sec.lcReq = none → ∀ ok : Bool, exec (.lcProgramDone ok) s = .next s) ∧
    (∀ g : Nat, s.sec.lcReq = some g →
      (∃ t, exec (.lcProgramDone true) s = .next t ∧ t.sec.lc = g ∧ t.sec.lcReq = none ∧ t.sec.page = none ∧
        t.sec.wiped = true ∧ t.sec.filled = false ∧ t.pins.rstreqN = false) ∧
      (∃ t, exec (.lcProgramDone false) s = .next t ∧ t.sec.lc = s.sec.lc ∧ t.sec.lcReq = none ∧ t.sec.lcFail = true ∧
        t.pins = s.pins)) ∧
    (∀ (w : Fin 2048) (val : Word64),
      (s.sec.refillWait.find? (fun p => p.1 == w.val) = none → ∀ ok : Bool,
        exec (.secureWordRefill w ok val) s = .next s) ∧
      ((s.sec.refillWait.find? (fun p => p.1 == w.val)).isSome = true →
        (∃ t, exec (.secureWordRefill w true val) s = .next t ∧ t.sec.refill = true ∧
          t.sec.refillWait = s.sec.refillWait.filter (fun q => q.1 != w.val) ∧
          (96 < w.val ∨ w.val < 32 → Tab.get? t.sec.patches w = some val)) ∧
        (∃ t, exec (.secureWordRefill w false val) s = .next t ∧ t.flt.fatal = true)))

/-- 01 R17, R18, 04 R109, 05 R150, 07 R245, 14 R451, 06 R175: a cluster that takes samples takes one at its boundary, and the
next lies behind it on the same grid, and while events that go before it in its ledger's cycle are still queued it waits for
them; what waits for a sample boundary happens there: mappings of stamp regions and plans
that are left. A report is taken at its instant while the Gaffer's clock runs, and the broadcast formed from it is due 256 ns
later; when it goes out it gives every placed domain its new record, with the instant of the report, and applies every waiting
CREDIT_CONFIG. Neither happens while its clock stands still.
Rows that complete here: controlSample, shareBusBroadcast. -/
def Obligations.RecurringRowsComplete : Prop :=
  ∀ (n : CluIx) (mism : BitVec 16) (s : State),
    (s.samples n = true → (s.advanceTo (s.cl n).ctl.sampleAt).ledgerMore n 5 = true →
      exec (.controlSample n mism) s = .next ((s.advanceTo (s.cl n).ctl.sampleAt).modCl n (fun x =>
        { x with led := { x.led with defer := x.led.defer ++ [.controlSample n mism] } }))) ∧
    (s.samples n = true → LastEvent s n 5 →
      ∃ t, exec (.controlSample n mism) s = .next t ∧ t.elapsed = max s.elapsed (s.cl n).ctl.sampleAt ∧
        (t.cl n).ctl.nSample = (s.cl n).ctl.nSample + 1 ∧ t.elapsed < (t.cl n).ctl.sampleAt ∧
        (t.cl n).ctl.sampleAt ≤ t.elapsed + 64 ∧ ((s.cl n).ctl.sampleAt % 32 = 0 → (t.cl n).ctl.sampleAt % 32 = 0) ∧
        (∀ g : Fin 64, (vget t.stamps g).chg = none ∧
          ∀ d en q, (vget s.stamps g).chg = some (d, en, q) →
            (vget t.stamps g).dom = d ∧ (vget t.stamps g).en = en)) ∧
    (s.samples n = false → s.boundaryWaits = false → exec (.controlSample n mism) s = .next s) ∧
    (s.gafClock = .running → s.csh.isSome = true → s.busDue = none →
      ∃ t, exec .shareBusBroadcast s = .next t ∧ t.elapsed = max s.elapsed s.busAt ∧ t.busSeq = (s.busSeq + 1) % 256 ∧
        t.busAt = nextBoundary 1000 t.elapsed ∧ t.busDue = some (t.elapsed + 256) ∧
        ∀ d ∈ s.sheet.domIxs, (t.dm d).rep.time = t.elapsed ∧ (t.dm d).bc = (s.dm d).bc ∧
          (t.dm d).cfgWait = (s.dm d).cfgWait) ∧
    (∀ due : Nat, s.gafClock = .running → s.csh.isSome = true → s.busDue = some due → s.cshNew = none →
      ∃ t, exec .shareBusBroadcast s = .next t ∧ t.elapsed = max (max s.elapsed due) s.busAt ∧
        t.busDue = some (t.elapsed + 256) ∧
        ∀ d ∈ s.sheet.domIxs, (t.dm d).bc.time = (s.dm d).rep.time ∧ (t.dm d).bc.current = (s.dm d).rep.current ∧
          (t.dm d).cfgWait = none ∧ (t.dm d).rep.time = t.elapsed) ∧
    (s.gafClock ≠ .running ∨ s.csh = none → s.busDue = none → exec .shareBusBroadcast s = .next s)

/-! ## Power cells and the carrier (chapter 03) -/

/-- 03 R67, R70 to R74, R515: qualification begins a glide toward ZN_SYNC_IN that leaves the reference edge where it is;
after the glide it is pulled, by the shorter way, to its offset behind ZN_SYNC_IN; lock comes no earlier than the end of the
pull-in and 16 periods, and leaves the edge where it is; loss glides back to FSW; and a 16-period boundary of an unlocked master advances the dither position and, with no glide, enters its frequency.
Rows that complete here: syncQualified, syncLock, syncLoss, ditherStep. -/
def Obligations.CarrierRowsComplete : Prop :=
  ∀ (n : CluIx) (hz : Nat) (s : State),
    ((s.cl n).master.isSome = true → (s.carrSet n).syncDis = false → inWindow (s.carrSet n).fsw hz = true →
      ∃ t, exec (.syncQualified n hz) s = .next t ∧ (t.cl n).carrier.qualified = true ∧
        (t.cl n).carrier.locked = (s.carr n).locked ∧ (t.cl n).carrier.freqFrom = (s.carr n).freq s.elapsed ∧
        (t.cl n).carrier.freqTo = hzUnits hz ∧ (t.cl n).carrier.rate = glideRate (s.carrSet n).fsw ∧
        (t.cl n).carrier.ph = (s.carr n).turned s.elapsed ∧
        (t.cl n).carrier.pullAt = (t.cl n).carrier.glideEnd ∧ 2 * (t.cl n).carrier.pull.natAbs ≤ turnU ∧
        (((t.cl n).carrier.turned (t.cl n).carrier.pullAt : Nat) + (t.cl n).carrier.pull +
          (if (s.carr n).phFree then Config.edgePhase s.edgeKey n else 0 : Nat) -
          (t.sync.ph + 2 * hzUnits hz * ((t.cl n).carrier.pullAt - s.elapsed) - offsetPh n : Int)) % (turnU : Int) = 0) ∧
    ((s.carr n).locked = false → (s.carr n).qualified = true → (s.carrSet n).syncDis = false →
      inWindow (s.carrSet n).fsw hz = true →
      ((s.carr n).freqTo = hzUnits hz →
        ∃ t, exec (.syncLock n hz) s = .next t ∧ (t.cl n).carrier.locked = true ∧
          (t.cl n).carrier.freqTo = hzUnits hz ∧ (t.cl n).carrier.phFree = false ∧
          (t.cl n).carrier.ph = (s.carr n).turned t.elapsed +
            (if (s.carr n).phFree then Config.edgePhase s.edgeKey n else 0) ∧
          t.elapsed = max s.elapsed ((s.carr n).pullEnd + cdiv (16 * 26214400000) (hzUnits hz))) ∧
      ((s.carr n).freqTo ≠ hzUnits hz →
        ∃ t, exec (.syncLock n hz) s = .next t ∧ (t.cl n).carrier.locked = false ∧
          (t.cl n).carrier.freqTo = hzUnits hz ∧ (t.cl n).carrier.pullAt = (t.cl n).carrier.glideEnd)) ∧
    ((s.carr n).qualified = true ∨ (s.carr n).locked = true →
      ∃ t, exec (.syncLoss n) s = .next t ∧ (t.cl n).carrier.locked = false ∧ (t.cl n).carrier.qualified = false ∧
        (t.cl n).carrier.freqFrom = (s.carr n).freq s.elapsed ∧ (t.cl n).carrier.freqTo = s.fswU n) ∧
    ((s.carr n).locked = false → (s.cl n).master.isSome = true →
      ∃ t, exec (.ditherStep n) s = .next t ∧ (t.cl n).carrier.m = (s.carr n).m + 1 ∧
        ((s.carr n).qualified = false → (s.carr n).freq s.elapsed = (s.carr n).freqTo →
          (t.cl n).carrier.freqTo = ditherFreq (s.carrSet n) ((s.carr n).m + 1)))

/-- 03 R78, R99, Table 3-10: below its count of periods a detector only counts and the cell keeps switching; at it three disable
the cell with their causes and one does not; a stuck switch of the same period goes before no switching and open phase.
Rows that complete here: stuckSwitch, noSwitching, openPhase, senseImplausible. -/
def Obligations.CellDetectorsAct : Prop :=
  ∀ (n : CluIx) (k : CellIx) (p : Nat) (s : State), (s.cell n k).watched = true →
    (2 ≤ p →
      ∃ t, exec (.stuckSwitch n k p) s = .next t ∧ (t.cell n k).st = .disabled ∧ (t.cell n k).cause = 3 ∧
        (t.cell n k).isoOpen = true) ∧
    ((s.cellTh n k).noswN ≤ p → 2 ≤ s.cellTop n k →
      ∃ t, exec (.noSwitching n k p) s = .next t ∧ (t.cell n k).st = .disabled ∧ (t.cell n k).cause = 4) ∧
    ((s.cellTh n k).openN ≤ p → 2 ≤ s.cellTop n k →
      ∃ t, exec (.openPhase n k p) s = .next t ∧ (t.cell n k).st = .disabled ∧ (t.cell n k).cause = 2) ∧
    (s.cellTop n k < 2 → ((s.cellTh n k).noswN ≤ p → exec (.noSwitching n k p) s = .next s) ∧
      ((s.cellTh n k).openN ≤ p → exec (.openPhase n k p) s = .next s)) ∧
    ((s.cellTh n k).senseN ≤ p → (s.cell n k).bits.senseSusp = false →
      ∃ t, exec (.senseImplausible n k p) s = .next t ∧ (t.cell n k).bits.senseSusp = true ∧
        (t.cell n k).st = (s.cell n k).st) ∧
    (p < 2 → ∃ t, exec (.stuckSwitch n k p) s = .next t ∧ (t.cell n k).st = (s.cell n k).st ∧
      (t.cell n k).prot.stuckN = p) ∧
    (p < (s.cellTh n k).noswN → ∃ t, exec (.noSwitching n k p) s = .next t ∧ (t.cell n k).st = (s.cell n k).st ∧
      (t.cell n k).prot.noswN = p) ∧
    (p < (s.cellTh n k).openN → ∃ t, exec (.openPhase n k p) s = .next t ∧ (t.cell n k).st = (s.cell n k).st ∧
      (t.cell n k).prot.openN = p) ∧
    (p < (s.cellTh n k).senseN → ∃ t, exec (.senseImplausible n k p) s = .next t ∧
      (t.cell n k).st = (s.cell n k).st ∧ (t.cell n k).prot.senseN = p)

/-- 03 R85 to R89, Table 3-8: the fast paths trip, end and are armed again. The end and the re-arming of a
kick are kept in half ns.
Rows that complete here: kick, kickEnd, kickRearm, truncation, truncationEnd, shunt, shuntEnd, shuntRearm. -/
def Obligations.FastPathsComplete : Prop :=
  ∀ (n : CluIx) (k : CellIx) (v : Nat) (s : State),
    ((s.cell n k).vinStop = false → (s.cell n k).kickTrips (s.cellTh n k) v = true →
      ∃ t, exec (.kick n k v) s = .next t ∧ (t.cell n k).fast.kickOn = true ∧ (t.cell n k).drawn = 0 ∧
        (t.cell n k).fast.forced = true ∧ (t.cell n k).bits.kick = true ∧
        (t.cell n k).fast.nKick = (s.cell n k).fast.nKick + 1) ∧
    ((s.cell n k).fast.kickOn = true →
      ∃ t, exec (.kickEnd n k v) s = .next t ∧ (t.cell n k).fast.kickOn = false ∧
        (t.cell n k).fast.kickRearmAt = min (s.cell n k).fast.kickBy (2 * t.elapsed) + 2 * (s.cellTh n k).kickRearm) ∧
    ((s.cell n k).fast.kickOn = false → (s.cell n k).fast.kickArmed = false →
      ∃ t, exec (.kickRearm n k) s = .next t ∧ (t.cell n k).fast.kickArmed = true ∧
        t.elapsed = max s.elapsed (cdiv (s.cell n k).fast.kickRearmAt 2)) ∧
    ((s.cell n k).vinStop = false → (s.cell n k).truncTrips (s.cellTh n k) v = true →
      ∃ t, exec (.truncation n k v) s = .next t ∧ (t.cell n k).fast.truncOn = true ∧ (t.cell n k).bits.trunc = true ∧
        (t.cell n k).fast.nTrunc = (s.cell n k).fast.nTrunc + 1) ∧
    ((s.cell n k).fast.truncOn = true → v < (s.cell n k).refUv + 2000 * (s.cellTh n k).ovsTh →
      ∀ d f : Nat, (s.cell n k).fast.heldDuty = some (d, f) →
      ∃ t, exec (.truncationEnd n k v) s = .next t ∧ (t.cell n k).fast.truncOn = false ∧ (t.cell n k).duty = d ∧
        (t.cell n k).frac = f) ∧
    ((s.cell n k).vinStop = false → (s.cell n k).shuntTrips (s.cellTh n k) v = true →
      ∃ t, exec (.shunt n k v) s = .next t ∧ (t.cell n k).fast.shuntOn = true ∧ (t.cell n k).bits.shunt = true ∧
        (t.cell n k).fast.nShunt = (s.cell n k).fast.nShunt + 1) ∧
    ((s.cell n k).fast.shuntOn = true →
      ∃ t, exec (.shuntEnd n k v) s = .next t ∧ (t.cell n k).fast.shuntOn = false ∧
        (t.cell n k).fast.shuntRearmAt = t.elapsed + 50) ∧
    ((s.cell n k).fast.shuntOn = false → (s.cell n k).fast.shuntArmed = false →
      ∃ t, exec (.shuntRearm n k) s = .next t ∧ (t.cell n k).fast.shuntArmed = true ∧
        t.elapsed = max s.elapsed (s.cell n k).fast.shuntRearmAt)

/-- 03 R78, R90 to R92: the overload timer, hiccup from a cell that retries nothing and at which nothing of the period
ranks higher, its hold-off, and the end of the retry count after 100 us without a hiccup.
Rows that complete here: overloadTimer, hiccup, hiccupHold, retryReset. -/
def Obligations.OverCurrentRowsComplete : Prop :=
  ∀ (n : CluIx) (k : CellIx) (s : State),
    (∀ t0 : Nat, (s.cell n k).prot.ovlSince = some t0 →
      ∃ t, exec (.overloadTimer n k) s = .next t ∧ (t.cell n k).prot.ovlExp = true ∧
        t.elapsed = max s.elapsed (t0 + (s.cellTh n k).ovlT * 1000)) ∧
    (∀ c : Nat, (s.cell n k).watched = true → s.pins.park = false → (s.cell n k).prot.retrying = false →
      (s.cellTh n k).hiccupN ≤ c → 4 ≤ s.cellTop n k →
      ∃ t, exec (.hiccup n k c) s = .next t ∧ (t.cell n k).st = .hiccup ∧
        (t.cell n k).prot.hiccBy = s.elapsed + (s.cellTh n k).hiccupHold * 1000 ∧
        (t.cell n k).prot.fromPark = ((s.cell n k).st == .park)) ∧
    (∀ c : Nat, s.cellTop n k < 4 → exec (.hiccup n k c) s = .next s) ∧
    (∀ m : PeriodMeas, (s.cell n k).st = .hiccup → s.pins.park = false →
      ∃ t, exec (.hiccupHold n k m) s = .next t ∧
        (t.cell n k).st = (if (s.cell n k).prot.fromPark then .park else .start) ∧
        (t.cell n k).prot.retrying = true ∧ t.elapsed = max s.elapsed (s.cell n k).prot.hiccBy) ∧
    (∀ t0 : Nat, (s.cell n k).st.running = true → (s.cell n k).prot.cleanSince = some t0 →
      ∃ t, exec (.retryReset n k) s = .next t ∧ (t.cell n k).prot.retry = 0 ∧
        t.elapsed = max s.elapsed (t0 + 100000))

/-- 03 R63, R76 to R78, R80, R81, R83, R84, Table 3-6, Table 11-9: a word with no other event of the period, valid in each state
that its MODE moves and missing in RUN, the carrier start at
which a disable is taken, the park timeout, TEST,
START and its end, the pre-biased output, and VIN below 1.30 V at the cell.
Rows that complete here: cellVinStop, cellVinResume, cellCommandWord, parkTimeout, cellSelfTest, startDone,
startTimeout. -/
def Obligations.CellStateRowsComplete : Prop :=
  ∀ (n : CluIx) (k : CellIx) (s : State),
    (∀ (w : BitVec 40) (x : CellWord) (m : PeriodMeas), cellWordOf w = some x → x.mode = .run →
      (s.cell n k).st = .run → s.pins.park = false → s.flt.injects = [] → m.cbc = false → m.imean ≤ 5000 →
      (s.cell n k).vinStop = false ∨ (s.cell n k).prot.limN = 0 →
      (s.cell n k).fast.truncOn = false → (s.cell n k).fast.forced = false → 1 ≤ (s.cellTh n k).hiccupN →
      s.cellTop n k = 6 →
      ∃ t, exec (.cellCommandWord n k w m) s = .next t ∧ (t.cell n k).st = .run ∧ (t.cell n k).vref = x.vref ∧
        (t.cell n k).duty = x.duty ∧ (t.cell n k).frac = x.frac ∧ (t.cell n k).shadow = x.shadow ∧
        (t.cell n k).prot.missN = 0 ∧ (t.cell n k).prot.limN = 0) ∧
    (∀ (w : BitVec 40) (x : CellWord) (m : PeriodMeas), cellWordOf w = some x → s.pins.park = false →
      s.flt.injects = [] → m.cbc = false → m.imean ≤ 5000 → (s.cell n k).fast.forced = false →
      (s.cell n k).vinStop = false ∨ (s.cell n k).prot.limN = 0 → 1 ≤ (s.cellTh n k).hiccupN → s.cellTop n k = 6 →
      (x.mode = .start → (s.cell n k).st = .idle →
        ∃ t, exec (.cellCommandWord n k w m) s = .next t ∧ (t.cell n k).st = .start) ∧
      (x.mode = .test → (s.cell n k).st = .idle →
        ∃ t, exec (.cellCommandWord n k w m) s = .next t ∧ (t.cell n k).st = .test) ∧
      (x.mode = .ballast → (s.cell n k).st = .run →
        ∃ t, exec (.cellCommandWord n k w m) s = .next t ∧ (t.cell n k).st = .ballast) ∧
      (x.mode = .run → (s.cell n k).st = .ballast ∨ (s.cell n k).st = .park →
        ∃ t, exec (.cellCommandWord n k w m) s = .next t ∧ (t.cell n k).st = .run) ∧
      (x.mode = .park → (s.cell n k).st = .start ∨ (s.cell n k).st.running = true →
        ∃ t, exec (.cellCommandWord n k w m) s = .next t ∧
          (t.cell n k).st = (if (s.cell n k).safeValid then .park else .idle)) ∧
      (x.mode = .off → (s.cell n k).st.switching = true →
        ∃ t, exec (.cellCommandWord n k w m) s = .next t ∧ (t.cell n k).st = .idle ∧ (t.cell n k).safeValid = false)) ∧
    (∀ (w : BitVec 40) (m : PeriodMeas), cellWordOf w = none → (s.cell n k).st = .run → s.pins.park = false →
      s.flt.injects = [] → m.cbc = false → m.imean ≤ 5000 → (s.cell n k).fast.forced = false →
      (s.cell n k).vinStop = false ∨ (s.cell n k).prot.limN = 0 → 1 ≤ (s.cellTh n k).hiccupN → s.cellTop n k = 6 →
      ∃ t, exec (.cellCommandWord n k w m) s = .next t ∧
        ((s.cell n k).prot.missN + 1 < s.sheet.hdr.parkN → (t.cell n k).st = .run ∧
          (t.cell n k).prot.missN = (s.cell n k).prot.missN + 1 ∧ (t.cell n k).duty = (s.cell n k).duty) ∧
        (s.sheet.hdr.parkN ≤ (s.cell n k).prot.missN + 1 → (s.cell n k).safeValid = true → (t.cell n k).st = .park)) ∧
    (∀ (w : BitVec 40) (m : PeriodMeas), (s.cell n k).disDue = true →
      ∃ t, exec (.cellCommandWord n k w m) s = .next t ∧ (t.cell n k).st = .disabled ∧ (t.cell n k).cause = 6 ∧
        (t.cell n k).disDue = false) ∧
    (∀ p : Nat, s.sheet.hdr.parkN ≤ p → (s.cell n k).st = .run → 5 ≤ s.cellTop n k →
      ∃ t, exec (.parkTimeout n k p) s = .next t ∧
        (t.cell n k).st = (if (s.cell n k).safeValid then .park else .idle)) ∧
    (∀ (lcal : Nat) (m : PeriodMeas), (s.cell n k).st = .test →
      (∀ (x : CellTest) (a b c d : Nat), m.vout ≤ x.vAdc + 10000 → x.vAdc ≤ m.vout + 10000 →
        -250 ≤ x.iZero → x.iZero ≤ 250 → x.trips = [a, b, c, d] → a ≤ 1200 → b ≤ 1000 → c ≤ 1000 → d ≤ 1000 →
        x.toggles = true → x.freewheel = true → 100 ≤ x.ripple → x.ripple ≤ 2000 → 2000 ≤ lcal → lcal ≤ 12000 →
        x.open_ = 0 →
        ∃ t, exec (.cellSelfTest n k x lcal m) s = .next t ∧ (t.cell n k).pass = true ∧ (t.cell n k).lcal = lcal ∧
          (t.cell n k).preBias = m.vout ∧ (t.cell n k).st = (if s.cellOn n k then .start else .idle)) ∧
      (∀ x : CellTest, x.vAdc + 10000 < m.vout ∨ m.vout + 10000 < x.vAdc →
        ∃ t, exec (.cellSelfTest n k x lcal m) s = .next t ∧ (t.cell n k).st = .disabled ∧
          (t.cell n k).cause = 1 ∧ (t.cell n k).pass = false ∧ (t.cell n k).preBias = (s.cell n k).preBias) ∧
      (∀ x : CellTest, m.vout ≤ x.vAdc + 10000 → x.vAdc ≤ m.vout + 10000 →
        x.iZero < -250 ∨ 250 < x.iZero ∨ x.trips.getD 0 0 > 1200 ∨ (∃ i, 1 ≤ i ∧ i < 4 ∧ x.trips.getD i 0 > 1000) ∨
          x.toggles = false ∨ x.freewheel = false ∨ x.ripple < 100 ∨ 2000 < x.ripple ∨ lcal < 2000 ∨ 12000 < lcal ∨
          x.open_ ≠ 0 →
        ∃ t, exec (.cellSelfTest n k x lcal m) s = .next t ∧ (t.cell n k).st = .disabled ∧
          (t.cell n k).cause = 1 ∧ (t.cell n k).pass = false ∧ (t.cell n k).preBias = m.vout)) ∧
    (∀ v : Nat, (s.cell n k).st = .start → (s.cell n k).vinStop = false →
      uvOf (s.cell n k).vref ≤ v + 1000 * (s.cellTh n k).startWin →
      v ≤ uvOf (s.cell n k).vref + 1000 * (s.cellTh n k).startWin →
      ∃ t, exec (.startDone n k v) s = .next t ∧ (t.cell n k).st = .run) ∧
    (∀ v : Nat, (s.cell n k).st = .start → (s.cell n k).startArmed = true →
      uvOf (s.cell n k).vref + 1000 * (s.cellTh n k).startWin < v →
      ∃ t, exec (.startTimeout n k v) s = .next t ∧ (t.cell n k).st = .start ∧
        (t.cell n k).bits.prebiasHigh = true) ∧
    (∀ mv : Nat, mv < 1300 →
      ∃ t, exec (.cellVinStop n k mv) s = .next t ∧ (t.cell n k).st = (s.cell n k).st ∧
        (t.cell n k).vinStop = true ∧ (t.cell n k).isoOpen = true) ∧
    (∀ mv v : Nat, 1400 < mv → (s.cell n k).vinStop = true → (s.cell n k).st.switching = true →
      ∃ t, exec (.cellVinResume n k mv v) s = .next t ∧ (t.cell n k).st = (s.cell n k).st ∧
        (t.cell n k).vinStop = false ∧ (t.cell n k).isoOpen = false ∧ (t.cell n k).softStart = true ∧
        (t.cell n k).refUv = v)

/-! ## Throttle and credits (chapters 07 and 10) -/

/-- 07 R218, R220, R231, R232 and 06 R198: a REQUEST of a requester with nothing pending is kept up to the room under the
domain's capacity, a RETURN named by its grant lowers what its requester holds, a DIGEST is taken into the sample or counted
as dropped, a word of another kind is counted in BAD, and a cluster in reset discards every word.
Rows that complete here: request, returnW, digest. -/
def Obligations.RequesterWordsComplete : Prop :=
  ∀ (n : CluIx) (w : Word64) (s : State),
    ((s.cl n).inReset = none → wKind w = 1 → 1 ≤ fld w.toNat 8 11 → fld w.toNat 8 11 ≤ 1024 → fld w.toNat 20 40 = 0 →
      ∀ d : Nat, s.sheet.halfDom n (s.reqHalf n (fld w.toNat 0 8)) = some d →
      Tab.get? (s.cl n).led.pend (fld w.toNat 0 8) = none →
      Tab.getN ((s.cl n).led.held (s.reqHalf n (fld w.toNat 0 8))) (fld w.toNat 0 8) < s.domCap d →
      ∃ t, exec (.request n w) s = .next t ∧ Tab.get? (t.cl n).led.pend (fld w.toNat 0 8) = some
        { amt := min (fld w.toNat 8 11)
            (s.domCap d - Tab.getN ((s.cl n).led.held (s.reqHalf n (fld w.toNat 0 8))) (fld w.toNat 0 8))
          filler := bit w.toNat 19, at_ := s.elapsed }) ∧
    ((s.cl n).inReset = none → wKind w = 2 → 1 ≤ fld w.toNat 8 11 → fld w.toNat 8 11 ≤ 1024 → fld w.toNat 32 28 = 0 →
      (s.cl n).led.defer = [] → ∀ g : Grant, Tab.get? (s.cl n).led.grants (fld w.toNat 19 10) = some g → g.req = fld w.toNat 0 8 →
      g.gen = fld w.toNat 29 3 → Tab.wf ((s.cl n).led.held g.half) = true →
      fld w.toNat 8 11 ≤ Tab.getN ((s.cl n).led.held g.half) g.req →
      ∃ t, exec (.returnW n w) s = .next t ∧
        Tab.getN ((t.cl n).led.held g.half) g.req = Tab.getN ((s.cl n).led.held g.half) g.req - fld w.toNat 8 11 ∧
        (t.cl n).led.overRet = (s.cl n).led.overRet) ∧
    ((s.cl n).inReset = none → wKind w = 0 → fld w.toNat 52 8 = 0 → fld w.toNat 8 4 ≤ 4 →
      (fld w.toNat 12 4 ≤ 10 ∨ fld w.toNat 12 4 = 15) →
      ((s.cl n).pred.digNow < 16 →
        ∃ t, exec (.digest n w) s = .next t ∧ (t.cl n).pred.digNow = (s.cl n).pred.digNow + 1 ∧
          (t.cl n).pred.digs.length = (s.cl n).pred.digs.length + 1) ∧
      (16 ≤ (s.cl n).pred.digNow →
        ∃ t, exec (.digest n w) s = .next t ∧ (t.cl n).pred.digs = (s.cl n).pred.digs ∧
          (t.cl n).pred.digDrop = satInc 16 (s.cl n).pred.digDrop)) ∧
    ((s.cl n).inReset = none → 3 ≤ wKind w →
      ∃ t, exec (.request n w) s = .next t ∧ exec (.returnW n w) s = .next t ∧ exec (.digest n w) s = .next t ∧
        (t.cl n).led.bad = satInc 6 (s.cl n).led.bad) ∧
    ((s.cl n).inReset.isSome = true → (s.cl n).led.defer = [] → exec (.request n w) s = .next s ∧ exec (.returnW n w) s = .next s ∧
      exec (.digest n w) s = .next s)

/-- 07 R215, R216, R225, R226: each ledger message taken out of flight moves its credits as stated: the Gaffer gives out of
the domain's free credits, a half receives, lends or is recalled, and what comes back is banked or withheld; a word of no
message in flight changes nothing. An event of a half's ledger that ends its cycle is taken at once.
Rows that complete here: borrow, give, call, lend, bank, recall, withhold. -/
def Obligations.LedgerMessagesComplete : Prop :=
  ∀ (w : Word64) (s : State) (m : LMsg) (rest : List LMsg), m.dom < 128 → m.clu < 64 →
    (takeMsg 1 w s.msgs = some (m, rest) →
      ∃ t, exec (.borrow w) s = .next t ∧ (t.dm m.dom).bf = (s.dm m.dom).bf - min m.amt (s.dm m.dom).bf ∧
        (0 < min m.amt (s.dm m.dom).bf → { up := false, op := 2, dom := m.dom, amt := min m.amt (s.dm m.dom).bf
                                           clu := m.clu, to_ := m.clu } ∈ t.msgs)) ∧
    (∀ h : HalfIx, takeMsg 2 w s.msgs = some (m, rest) → LastEvent s m.clu 2 → s.halfOf m.clu m.dom = some h.val →
      ∃ t, exec (.give w) s = .next t ∧ t.msgs = rest ∧ (t.half m.clu h).acc.borrowBy = none ∧
        (t.half m.clu h).acc.ord + (t.half m.clu h).acc.res =
          (s.half m.clu h).acc.ord + (s.half m.clu h).acc.res + m.amt) ∧
    (∀ h : HalfIx, takeMsg 3 w s.msgs = some (m, rest) → LastEvent s m.clu 2 → s.halfOf m.clu m.dom = some h.val →
      s.sheet.s8.lendQ < (s.half m.clu h).acc.ord → 0 < m.amt →
      ∃ t, exec (.call w) s = .next t ∧
        (t.half m.clu h).acc.ord = (s.half m.clu h).acc.ord - min m.amt ((s.half m.clu h).acc.ord - s.sheet.s8.lendQ) ∧
        t.msgs = rest ++ [{ up := true, op := 4, dom := m.dom, to_ := m.to_, clu := m.clu
                            amt := min m.amt ((s.half m.clu h).acc.ord - s.sheet.s8.lendQ) }]) ∧
    (takeMsg 4 w s.msgs = some (m, rest) → 0 < m.amt →
      ∃ t, exec (.lend w) s = .next t ∧
        t.msgs = rest ++ [{ up := false, op := 2, dom := m.dom, amt := m.amt, clu := m.to_, to_ := m.to_ }]) ∧
    (takeMsg 5 w s.msgs = some (m, rest) →
      ∃ t, exec (.bank w) s = .next t ∧ t.msgs = rest ∧ (t.dm m.dom).bf = (s.dm m.dom).bf + m.amt) ∧
    (∀ h : HalfIx, takeMsg 6 w s.msgs = some (m, rest) → LastEvent s m.clu 2 → s.halfOf m.clu m.dom = some h.val →
      ∃ t, exec (.recall w) s = .next t ∧
        (t.half m.clu h).acc.ord = (s.half m.clu h).acc.ord - min m.amt (s.half m.clu h).acc.ord ∧
        (t.half m.clu h).acc.debt =
          (s.half m.clu h).acc.debt + (m.amt - min m.amt (s.half m.clu h).acc.ord)) ∧
    (takeMsg 7 w s.msgs = some (m, rest) →
      ∃ t, exec (.withhold w) s = .next t ∧ t.msgs = rest ∧
        (t.dm m.dom).owed = (s.dm m.dom).owed - min m.amt (s.dm m.dom).owed ∧
        (t.dm m.dom).wh = (s.dm m.dom).wh + (m.amt - min m.amt (s.dm m.dom).owed)) ∧
    (takeMsg 2 w s.msgs = none → exec (.give w) s = .next s)

/-- 01 R30, 07 R214, Table 7-4: no ledger message, no RETURN and no admission round makes or loses a credit. What the Gaffer
accounts for in a domain stays the same but for a withheld credit that pays what the domain owes since its pool was lowered,
and the credits of a cluster half move with the Gaffer's record of its balance. -/
def Obligations.CreditsAreConserved : Prop :=
  ∀ (i : Instr) (w : Word64) (n : CluIx) (s t : State), LedgerFits s → s.flt.injects = [] → exec i s = .next t →
    i ∈ [Instr.borrow w, .bank w, .lend w, .withhold w, .give w, .call w, .recall w, .returnW n w, .admissionRound n] →
    (∀ d : DomIx, credits t d + (s.dm d).owed = credits s d + (t.dm d).owed) ∧
    (∀ (m : CluIx) (h : HalfIx), ownCredits t m h + vget (vget s.bal m) h = ownCredits s m h + vget (vget t.bal m) h)

/-- 07 R221, R227: an admission round waits while an earlier event of its cycle does; with one requester pending grants it what its half holds for it and its budget allows, in
the lowest slot.
Rows that complete here: admissionRound. -/
def Obligations.AdmissionRoundGrants : Prop :=
  (∀ (n : CluIx) (s u : State), u = s.advanceTo ((s.cl n).led.roundAt + 1) → u.ledgerMore n 6 = true →
    ∃ t, exec (.admissionRound n) s = .next t ∧ (t.cl n).led.defer = (s.cl n).led.defer ++ [.admissionRound n] ∧
      (t.cl n).led.pend = (s.cl n).led.pend ∧ t.elapsed = max s.elapsed ((s.cl n).led.roundAt + 1)) ∧
  ∀ (n : CluIx) (s : State) (r : Nat) (p : Pend) (h : HalfIx) (u : State), LastEvent s n 6 → s.flt.injects = [] →
    u = (s.advanceTo ((s.cl n).led.roundAt + 1)).accrue n → (s.cl n).led.pend = [(r, p)] → (s.cl n).led.grants = [] →
    (s.cl n).led.sliced = false → u.admitOff n = false → u.reqHalf n r = h.val → u.holding n h = false →
    (u.half n h).broll.release = none → 0 < p.amt → p.amt ≤ 1024 → p.amt ≤ (u.half n h).acc.ord →
    (u.half n h).acc.res = 0 → p.amt * 65536 ≤ (u.half n h).acc.b →
    ∃ t, exec (.admissionRound n) s = .next t ∧ (t.cl n).led.pend = [] ∧ (t.cl n).led.p = (r + 1) % 256 ∧
      (t.cl n).led.grants = [(0, { req := r, gen := (s.cl n).led.gen 0, left := p.amt, filler := p.filler
                                   atRel := false, half := h })] ∧
      (t.half n h).acc.ord = (u.half n h).acc.ord - p.amt

/-- 07 R225, R229, R242, 10 R318, R327: the borrow retry, the slice boundary, the release of B-roll, the external throttle
pin and a V/F step-down.
Rows that complete here: externalThrottle, externalThrottleEnd, vfStepDown, borrowRetry, sliceBoundary, brollRelease. -/
def Obligations.LedgerAndThrottleTimersComplete : Prop :=
  ∀ (n : CluIx) (h : HalfIx) (s : State),
    (∀ t0 d : Nat, (s.half n h).acc.borrowBy = some t0 → s.sheet.halfDom n h = some d → 0 < (s.half n h).acc.short →
      ∃ t, exec (.borrowRetry n h) s = .next t ∧ (t.half n h).acc.borrowBy = some (max s.elapsed t0 + 256) ∧
        (0 < s.sheet.s8.lendQ →
          ∃ m : LMsg, t.msgs = s.msgs ++ [m] ∧ m.op = 1 ∧ m.up = true ∧ m.dom = d ∧ m.clu = n.val)) ∧
    ((s.cl n).led.sliced = true →
      ∃ t, exec (.sliceBoundary n) s = .next t ∧ (t.cl n).led.served = [] ∧
        (t.cl n).led.sliced = decide (960 < (s.cl n).led.grants.length) ∧
        (t.cl n).led.sliceAt = (s.cl n).led.sliceAt + s.sheet.s8.slice * 32) ∧
    (∀ t0 : Nat, (s.half n h).broll.release = some t0 → (s.half n h).broll.hold = true → s.brollOn = true →
      LastEvent s n 5 →
      ∃ t, exec (.brollRelease n h) s = .next t ∧ (∀ j ∈ s.hs n, Out.stationsDown n j wRelease ∈ t.out) ∧
        (t.cl n).led.p = 0 ∧
        (t.half n h).acc.b = 0 ∧ (t.half n h).acc.rc = 0 ∧
        (t.half n h).broll.hold = !(s.half n h).broll.further.isEmpty) ∧
    (∀ ns : Nat, 100 ≤ ns → ∃ t, exec (.externalThrottle ns) s = .next t ∧ t.pins.exthrN = false ∧
      ∀ (d : DomIx) (r : DomRec), d.val ∈ s.sheet.domIxs → s.sheet.domRec d = some r → r.dtype ≠ 4 →
        (t.dm d).thr.reason.getLsbD 6 = true) ∧
    (∀ ns : Nat, 20 ≤ ns → ns < 100 → ∃ t, exec (.externalThrottle ns) s = .next t ∧ t.freeCtr = s.freeCtr + 1 ∧
      (t.pins.exthrN = false ∨ t.pins = s.pins)) ∧
    (∀ ns : Nat, ns < 20 → exec (.externalThrottle ns) s = .next s) ∧
    (∃ t, exec .externalThrottleEnd s = .next t ∧ t.pins.exthrN = true ∧
      ∀ (d : DomIx) (r : DomRec), d.val ∈ s.sheet.domIxs → s.sheet.domRec d = some r → r.dtype ≠ 4 →
        (t.dm d).thr.reason.getLsbD 6 = false) ∧
    (∀ (d : DomIx) (k t0 : Nat), (s.dm d).thr.vfWait = some (k, t0) →
      ∃ t, exec (.vfStepDown d) s = .next t ∧ t.elapsed = max s.elapsed t0) ∧
    (∀ (d : DomIx) (k t0 : Nat) (r : DomRec), (s.dm d).thr.vfWait = some (k, t0) → s.sheet.domRec d = some r →
      r.dtype = 0 → s.sheet.s5.actuator 4 (s.demand d / 256) = k →
      ∃ t, exec (.vfStepDown d) s = .next t ∧ (t.dm d).thr.vfCeil = k ∧ (t.dm d).thr.vfWait = none ∧
        t.elapsed = max s.elapsed t0 ∧ ∀ q ∈ s.sheet.domHalves d, (t.half q.1 q.2).ramp.tgt = t.tgtInForce d)

/-! ## The storyboard (chapter 06) -/

/-- 06 R187, R188, R194, R196, R207, R210: a shot becomes current and is kept until evaluated, behind the cues of its cycle, its onset begins it, a missing cue
sends the context coasting, an ended shot is evaluated, and the watermark that moved is written.
Rows that complete here: shotSwitch, shotOnset, missingCue, shotEndEvaluation, watermarkWrite. -/
def Obligations.ShotRowsComplete : Prop :=
  ∀ (c : CtxIx) (s : State),
    (∀ (nx : NextShot) (i o : Nat), (s.cx c).next = some nx → nx.shot = some i → nx.onset = some o →
      (s.cx c).st = .armed → (s.cx c).poisoning = none → s.slateWaits c = false → (s.shot c i).cued = false →
      (s.shot c i).poison = false → s.profPoison c (s.shot c i) = false →
      s.cueNext c = false →
      ∃ t, exec (.shotSwitch c) s = .next t ∧ (t.cx c).cur = some i ∧
        (t.cx c).seq = ((s.cx c).seq + 1) % 2 ^ 32 ∧ t.elapsed = max s.elapsed ((s.cx c).switchAt s.elapsed nx) ∧
        ∃ p ∈ (t.cx c).played, p.shot = i ∧ p.seq = (s.cx c).seq ∧ p.onset = some o ∧ p.begun = false) ∧
    (∀ q : Nat × Option Nat × Nat, s.switchOf c = some q → s.uncuedSwitch c q = true → s.cueNext c = true →
      ∃ t, exec (.shotSwitch c) s = .next t ∧ (t.cx c).cur = (s.cx c).cur ∧ (t.cx c).next = (s.cx c).next ∧
        (t.cx c).switchDue = true ∧ t.elapsed = max s.elapsed q.1) ∧
    (∀ (p : Played) (t0 : Nat), (s.cx c).played.find? (fun p => !p.begun && p.end_.isNone) = some p →
      p.onset = some t0 →
      ∃ t, exec (.shotOnset c) s = .next t ∧ t.elapsed = max s.elapsed t0 ∧
        ∃ q ∈ (t.cx c).played, q.seq = p.seq ∧ q.begun = true) ∧
    (∀ (nx : NextShot) (i o : Nat), (s.cx c).next = some nx → nx.shot = some i → nx.onset = some o →
      nx.cueAt = none → (s.shot c i).cued = true → (s.cx c).st = .armed →
      ∃ t, exec (.missingCue c) s = .next t ∧ (t.cx c).st = .coasting ∧
        (t.cx c).miss = satInc 6 (s.cx c).miss ∧ t.elapsed = max s.elapsed (o + (s.cx c).recd.cueWait)) ∧
    (∀ p : Played, (s.cx c).played.find? (fun p => p.end_.isSome && !p.evaluated) = some p →
      ∃ t, exec (.shotEndEvaluation c) s = .next t ∧ t.elapsed = max s.elapsed (p.end_.getD 0 + 1024) ∧
        ∀ q ∈ (t.cx c).played, q.seq = p.seq → q.evaluated = true) ∧
    (∀ (q step : Nat), ((s.wmAdvance c).cx c).wm = some (q, step) → ((s.wmAdvance c).cx c).wmDirty = true →
      ((s.wmAdvance c).cx c).recd.wmAddr ≠ 0 →
      ∃ t, exec (.watermarkWrite c) s = .next t ∧ (t.cx c).wmDirty = false ∧
        ∃ e ∈ t.host.writes, e.2.addr = ((s.wmAdvance c).cx c).recd.wmAddr ∧
          e.2.words = [BitVec.ofNat 64 (pack [(32, q), (24, step), (4, c.val),
            (4, ((s.wmAdvance c).cx c).openN)])])

/-- 06 R194, with no switch of the context due: a cue before readiness, beyond 16 waiting, with a reserved bit set or for a context without a
plan is dropped and counted; one that wakes the Gaffer waits; one for the first shot of the reel armed places it at its
receipt plus its lead.
Rows that complete here: cue. -/
def Obligations.CueCompletes : Prop :=
  ∀ (w : Word64) (s : State), (s.cx (fld w.toNat 0 4)).switchDue = false →
    (s.pins.rdy = false ∨
      (s.pins.rdy = true ∧ s.gafClock ≠ .running ∧ 16 ≤ s.cueQ.length) ∨
      (s.pins.rdy = true ∧ s.gafClock = .running ∧ fld w.toNat 44 20 ≠ 0) ∨
      (s.pins.rdy = true ∧ s.gafClock = .running ∧ (s.cx (fld w.toNat 0 4)).plan = false) →
      ∃ t, exec (.cue w) s = .next t ∧ t.cueDrop = satInc 16 s.cueDrop ∧ t.ctx = s.ctx ∧ t.cueQ = s.cueQ) ∧
    (s.pins.rdy = true → s.gafClock ≠ .running → s.cueQ.length < 16 →
      ∃ t, exec (.cue w) s = .next t ∧ t.cueQ = s.cueQ ++ [(w, s.elapsed)] ∧ t.gafClock ≠ .asleep ∧ t.ctx = s.ctx) ∧
    (∀ (i c : Nat) (x : Context), c = fld w.toNat 0 4 → x = s.cx c → s.pins.rdy = true → s.gafClock = .running →
      s.disarmNext c = false →
      fld w.toNat 44 20 = 0 → x.st = .armed → x.leaving = false → x.pageWait = false → x.cur = none →
      x.armShot = some i → (s.shot c i).cued = true → (s.shot c i).poison = false →
      (s.shot c i).step = fld w.toNat 4 24 →
      ∃ t, exec (.cue w) s = .next t ∧ ∃ n', (t.cx c).next = some n' ∧ n'.shot = some i ∧
        n'.onset = some (s.elapsed + fld w.toNat 28 16) ∧ n'.cueAt = some s.elapsed ∧
        n'.late = decide (fld w.toNat 28 16 < 400))

/-- 05 R155, R157 and 07 R222, R224: a preparation begins at the boundary before its onset with the fade-in budget
cleared, and after STEP_WIN what is left of its reservation goes back to ORD; each ends its ledger's cycle here.
Rows that complete here: preparationStart, stepWinExpiry. -/
def Obligations.PreparationRowsComplete : Prop :=
  ∀ (n : CluIx) (h : HalfIx) (s : State), LastEvent s n 4 →
    (∀ shot onset rise : Nat, s.nextPrep n h = some (shot, onset, rise) → (s.half n h).prep.on = false →
      ∃ t, exec (.preparationStart n h) s = .next t ∧ (t.half n h).prep.on = true ∧ (t.half n h).prep.key = some shot ∧
        (t.half n h).prep.onset = onset ∧ (t.half n h).acc.b = 0 ∧
        (t.half n h).acc.ord + (t.half n h).acc.res = (s.half n h).acc.ord + (s.half n h).acc.res) ∧
    (∀ k : Nat, (s.half n h).prep.key = some k →
      ∃ t, exec (.stepWinExpiry n h) s = .next t ∧ (t.half n h).prep.on = false ∧ (t.half n h).prep.key = none ∧
        (t.half n h).prep.falling = true ∧ (t.half n h).acc.res = 0 ∧ (t.half n h).acc.short = 0 ∧
        (t.half n h).acc.ord = (s.half n h).acc.ord + (s.half n h).acc.res)

/-! ## Sensing (chapter 09) and sharing (chapters 04 and 05) -/

/-- 09 R282 to R287, R296: a frame ends at its boundary B and gives channel 32 the result of its hold at B - 24; a channel
whose cell does not switch is held at the start of its window plus its delay; the correction update takes its sums; and the
open-wire test compares the two conversions of its channel, where a difference above 64 counts reads open. 09 R302: a board-sense
reading is stored, and its pair is judged by its counts and by the check at bring-up.
Rows that complete here: senseFrame, backgroundCorrection, openWireTest, openWirePhase, boardSenseCheck,
boardSenseReading. -/
def Obligations.SenseRowsComplete : Prop :=
  (∀ (n : CluIx) (s : State), s.senseRuns n = true →
    (∀ m : FrameMeas, s.redMode n = false →
      ∃ t, exec (.senseFrame n m) s = .next t ∧ (t.cl n).sense.frame = (s.cl n).sense.frame + 1 ∧
        (t.cl n).sense.frameAt = max (s.cl n).sense.frameAt (nextBoundary 32 s.elapsed) + 32 ∧
        (vget (t.cl n).sense.res 32).code = (clipCode 32 m.vin).1 ∧
        (vget (t.cl n).sense.res 32).hold = max (s.cl n).sense.frameAt (nextBoundary 32 s.elapsed) - 24 ∧
        t.elapsed = max s.elapsed (max (s.cl n).sense.frameAt (nextBoundary 32 s.elapsed) - 1)) ∧
    (∀ (b : Nat) (p : BitVec 16) (k : CellIx), (s.cell n k).st = .idle → (s.cell n k).pulse.offAt ≤ b →
      s.holdAt n (b + 40) p (16 + k.val) = some (1000 * b + 125 * (s.s3Of n b).dlyI) ∧
      s.holdAt n (b + 24) p k.val = some (1000 * b + 125 * (s.s3Of n (b - 16)).dlyV)) ∧
    ((s.cl n).sense.frame % 16 = 0 → (s.cl n).sense.volt = none → (s.cl n).sense.corr.toList.all (fun c => c.n == 0) = false →
      ∃ t, exec (.backgroundCorrection n) s = .next t ∧
        ∀ i : Fin 4, vget (t.cl n).sense.corr i =
          Corr.update (s.cl n).sense.corr.toList (vget (s.cl n).sense.corr i)) ∧
    ((s.cl n).sense.ow.phase = 0 →
      ∃ t, exec (.openWireTest n) s = .next t ∧ (t.cl n).sense.ow.phase = 1 ∧
        t.elapsed = max s.elapsed (s.cl n).sense.ow.nextAt ∧
        (t.cl n).sense.ow.nextAt = t.elapsed + 1000 * ((s.advanceTo (s.cl n).sense.ow.nextAt).s3Now n).owInt) ∧
    (∀ v : Int, (s.cl n).sense.ow.phase = 1 →
      ∃ t, exec (.openWirePhase n v) s = .next t ∧ (t.cl n).sense.ow.phase = 2 ∧
        (t.cl n).sense.ow.first = (vget (s.cl n).sense.res (s.cl n).sense.ow.ch).code) ∧
    (∀ v : Int, 2 ≤ (s.cl n).sense.ow.phase →
      ∃ t, exec (.openWirePhase n v) s = .next t ∧ (t.cl n).sense.ow.phase = 0 ∧
        (t.cl n).sense.ow.ch = ((s.cl n).sense.ow.ch + 1) % 33 ∧
        ((s.cl n).sense.ow.ch < 33 → opened (s.cl n).sense.ow.ch (s.cl n).sense.ow.first
          (vget (s.cl n).sense.res (s.cl n).sense.ow.ch).code = true →
          (t.cl n).sense.open_.getLsbD (s.cl n).sense.ow.ch = true))) ∧
  ∀ (s : State) (mv m0 m1 : Int),
    (∀ b : Fin 3, ∃ t, exec (.boardSenseReading b mv) s = .next t ∧
      vget t.board.b b = clampI (-32768) 32767 mv ∧ t.clu = s.clu ∧ t.dom = s.dom) ∧
    (∃ t, exec (.boardSenseCheck m0 m1) s = .next t ∧ t.board.judged = true ∧ t.board.b = s.board.b ∧
      (64 < m0.natAbs → s.board.st0 = 0 → t.board.st0 = 1) ∧
      (64 < m1.natAbs → s.board.st1 = 0 → t.board.st1 = 1) ∧ t.clu = s.clu ∧ t.dom = s.dom ∧
      t.elapsed = (if s.board.judged then max s.elapsed s.board.checkAt else s.elapsed) ∧
      t.board.checkAt = t.elapsed + 1000000)

/-- 05 R152 and 07 R227, R235: after the broadcast that is due has been sent, a record that ends its cycle, in sequence, takes its number and ends a loss;
one out of sequence counts the records that it shows missing beyond those already counted, and ends a loss all the same; four
missing in a row lose the Gaffer.
Rows that complete here: shareBusRecord, gafferLoss. -/
def Obligations.ShareBusRowsComplete : Prop :=
  ∀ (n : CluIx) (s u : State), u = s.sendDue → LastEvent u n 3 → u.samples n = true → (u.cl n).busSeq < 256 →
    (∀ q : BitVec 8, q.toNat = ((u.cl n).busSeq + 1) % 256 →
      ∃ t, exec (.shareBusRecord n q) s = .next t ∧ (t.cl n).busSeq = q.toNat ∧ (t.cl n).busMissRow = 0 ∧
        (t.cl n).gafLost = false ∧ (t.cl n).busMiss = (u.cl n).busMiss) ∧
    (∀ (q : BitVec 8) (g k : Nat), g = (q.toNat + 256 - (u.cl n).busSeq) % 256 → 1 < g → g ≤ 128 →
      k = max 1 (g - (u.cl n).busGone) →
      ∃ t, exec (.shareBusRecord n q) s = .next t ∧ (t.cl n).busSeq = q.toNat ∧
        (t.cl n).busMiss = satAdd 7 (u.cl n).busMiss k ∧
        ((u.cl n).gafLost = false → (t.cl n).busMissRow = (u.cl n).busMissRow + k ∧
          (t.cl n).gafLost = decide (4 ≤ (u.cl n).busMissRow + k)) ∧
        ((u.cl n).gafLost = true → (t.cl n).busMissRow = 1 ∧ (t.cl n).gafLost = false)) ∧
    (s.samples n = true → (s.cl n).gafLost = false →
      ∃ t, exec (.gafferLoss n) s = .next t ∧ (t.cl n).gafLost = true)

/-- 04 R123, R124, R131, R139, R140, R144 and 05 R163: stage 6 rounds a lane's duty and clamps it to its cell's limits and to its ceiling, and a
lane whose two evaluations differ keeps its duty; a bank swap takes effect, waits while a cluster of its command is not ready, or
times out in all of them, settling times out, and the window
that ends starts again from 0.
Rows that complete here: settleTimeout, swapEffect, swapTimeout, continuityWindow. -/
def Obligations.LoopTimersComplete : Prop :=
  ∀ (n : CluIx) (d : DomIx) (s : State),
    (∀ q t0 : Nat, (s.cl n).ctl.swap = some (q, t0) → s.swapMates q = [n.val] → s.swapReady n = true → s.samples n = true →
      ∃ t, exec (.swapEffect n) s = .next t ∧ (t.cl n).ctl.activeB = !(s.cl n).ctl.activeB ∧ (t.cl n).ctl.swap = none ∧
        t.elapsed = max s.elapsed (s.cl n).ctl.sampleAt) ∧
    (∀ q t0 : Nat, (s.cl n).ctl.swap = some (q, t0) → (s.swapMates q).all (fun m => s.swapReady m) = false →
      exec (.swapEffect n) s = .next s) ∧
    (∀ q t0 : Nat, (s.cl n).ctl.swap = some (q, t0) →
      ∃ t, exec (.swapTimeout n) s = .next t ∧ t.elapsed = max s.elapsed t0 ∧
        ∀ m : CluIx, (m.val ∈ s.swapMates q → (t.cl m).ctl.swap = none) ∧
          (t.cl m).ctl.activeB = (s.cl m).ctl.activeB) ∧
    (∀ (q a : Nat) (p : Nat × Nat), s.sheet.domHalves d = [p] → (s.half p.1 p.2).ramp.done = false →
      (s.half p.1 p.2).ramp.chg = [] → (s.half p.1 p.2).ramp.reachedAt = some a → (s.dm d).cmd = some q →
      ∃ t, exec (.settleTimeout d) s = .next t ∧ (t.dm d).cmd = none ∧
        t.elapsed = max s.elapsed (a + 1000 * s.sheet.s2.settleTo)) ∧
    ((s.cl n).winAt = winLen → s.samples n = true →
      ∃ t, exec (.continuityWindow n) s = .next t ∧ (t.cl n).winAt = 0 ∧
        ∀ k : CellIx, (t.lane n k).winN = 0 ∧ (t.lane n k).winBad = false ∧ (t.lane n k).sumV = 0) ∧
    (∀ (k : CellIx) (o : LaneOut) (sh u : Int) (th : Thresh) (hi : Nat), th = s.cellTh n k → th.dmin ≤ th.dmax →
      (s.cell n k).st ≠ .start → (s.cell n k).softStart = false →
      u = rshift 22 ((if (s.lane n k).shadow then sh else o.duty5) + s.dither n k * 4194304) →
      hi = max th.dmin (min th.dmax ((s.half n (s.sheet.cellHalf n k)).dutyCeil.getD th.dmax)) →
      ((s.lane6 n k o sh false).duty : Int) = max (4 * (th.dmin : Int)) (min (4 * (hi : Int)) u) ∧
      (s.lane6 n k o sh true).duty = (s.lane n k).duty)

/-! ## Temperature (chapter 10) and the vertical channels (chapter 12) -/

/-- 10 R308, R309, R328, 12 R389: a thermal sample is taken and delivered 2 us later, ageing is taken over when two
measurements in turn say so, and a capacitance estimate judges the cells that have been in RUN for a whole interval.
Rows that complete here: thermalSample, thermalSampleDelivered, ageingMeasurement, capacitanceEstimate. -/
def Obligations.ThermalRowsComplete : Prop :=
  ∀ (n : CluIx) (s : State),
    (s.thRuns n = true → (s.cl n).therm.dueAt = none →
      ∃ t, exec (.thermalSample n) s = .next t ∧ t.elapsed = max s.elapsed (s.cl n).therm.nextAt ∧
        (t.cl n).therm.dueAt = some (t.elapsed + 2000) ∧ (t.cl n).clock ≠ .asleep) ∧
    (∀ (a : Nat) (l : List Int), (s.cl n).therm.dueAt = some a → s.thRuns n = true →
      ∃ t, exec (.thermalSampleDelivered n l) s = .next t ∧ (t.cl n).therm.dueAt = none ∧
        t.elapsed = max s.elapsed a ∧
        (t.cl n).therm.nextAt = nextBoundary (if (t.cl n).therm.fast then 5000 else 100000) t.elapsed ∧
        ((∀ k : Fin 8, (vget (s.cl n).therm.sens k).broken = true) → (t.cl n).therm.allBad = true ∧
          (t.cl n).therm.tMax = 16 * (s.sheet.tLimits n).thr ∧ (t.cl n).therm.tMin = 16 * (s.sheet.tLimits n).thr)) ∧
    (∀ st rf m : Nat, s.gafClock = .running → (s.cl n).woke = true →
      slowdown st rf (s.cl n).therm.ageRef = some m →
      ∃ t, exec (.ageingMeasurement n st rf) s = .next t ∧ (t.cl n).therm.aPrev = m ∧
        t.elapsed = max s.elapsed (s.cl n).therm.ageAt ∧
        (t.cl n).therm.ageAt = t.elapsed + s.sheet.s5.ageInt * 1000000000 ∧
        (t.cl n).therm.a = (if (s.cl n).therm.a + 16 ≤ m ∧ (s.cl n).therm.a + 16 ≤ (s.cl n).therm.aPrev
          then min m 65536 else (s.cl n).therm.a)) ∧
    (∀ (est : List (Nat × Nat)) (k : CellIx) (u : State) (l : List Nat), s.samples n = true →
      u = s.advanceTo (s.cl n).capAt → l = u.capCells n (max 1 (fld s.vrtCfg.toNat 24 8) * 1000000) est.length →
      (∀ j ∈ l, (u.capOf n j (est.getD j (0, 0)).1).2 = u) →
      ∃ t, exec (.capacitanceEstimate n est) s = .next t ∧ t.elapsed = u.elapsed ∧
        (k.val ∈ l → vget (t.cl n).caps k = ((vget (s.cl n).caps k).judge s.vrtCap.toNat
          (u.capOf n k (est.getD k (0, 0)).1).1
          (if u.capDithers n k then some (est.getD k (0, 0)).2 else none)).2.2) ∧
        (k.val ∉ l → vget (t.cl n).caps k = vget (s.cl n).caps k) ∧
        (t.cl n).capAt = t.elapsed + max 1 (fld s.vrtCfg.toNat 24 8) * 1000000)

/-- 10 R315, R316: a critical trip of a sensor that is not Open or Short sets the latch, drives ZN_THERMTRIP_N low and
parks every cell; the comparator of a sensor marked Open or Short trips nothing.
Rows that complete here: criticalTrip. -/
def Obligations.CriticalTripParks : Prop :=
  ∀ (n : CluIx) (e : Fin 8) (s : State),
    ((vget (s.cl n).therm.sens e).elec = false → s.trip = false →
      ∃ t, exec (.criticalTrip n e) s = .next t ∧ t.trip = true ∧ t.tripClu = n ∧ t.pins.thermtripN = false ∧
        t.pins.park = true ∧ AllParked t ∧ t.elapsed = s.elapsed) ∧
    ((vget (s.cl n).therm.sens e).elec = true → exec (.criticalTrip n e) s = .next s) ∧
    (s.trip = true → exec (.criticalTrip n e) s = .next s)

/-- 12 R376, R380, R381, R383, R386: training centres each lane in its eye and ends up or offline, a read takes its job and counts its errors,
recalibration goes on by one group, and moves a delay by one step at most, while the clock of its side of the link runs, the scrubber counts its corrections, and the loss of VUDC takes every channel
offline.
Rows that complete here: vudcLoss, channelTraining, channelRead, recalibration, scrub. -/
def Obligations.ChannelRowsComplete : Prop :=
  ∀ (c : ChIx) (s : State),
    ((s.chan c).st = 0 → (c.val < 64 → (s.cl c).inReset = none ∨ s.chanClock c = true) → ∀ l : List LaneEye,
      ((∀ e ∈ l, 4 ≤ e.width) →
        ∃ t, exec (.channelTraining c true l) s = .next t ∧ (t.chan c).st = (if (s.chan c).short then 2 else 1) ∧
          (t.chan c).group = 0 ∧ (t.chan c).recalAt = s.elapsed + s.recalNs ∧ t.up = s.up ∧ t.dom = s.dom ∧
          ∀ i : Fin 90, ∀ e ∈ l[i.val]?, vget (t.chan c).delay i = e.lo + e.width / 2) ∧
      (∃ t, exec (.channelTraining c false l) s = .next t ∧ (t.chan c).st = 3 ∧ (t.chan c).jobs = [])) ∧
    (∀ (m : LineMeas) (j : ChJob) (rest : List ChJob), (s.chan c).jobs = j :: rest → m.ck = [] → m.corr = [] →
      s.flt.injects = [] → (s.chan c).fenced = false ∨ (s.chan c).issued ≠ 0 →
      (m.strobe = true → (s.chan c).corrs = [] →
        ∃ t, exec (.channelRead c m) s = .next t ∧ (t.chan c).uncorr = satAdd 6 (s.chan c).uncorr m.poison ∧
          (t.chan c).st = (s.chan c).st) ∧
      (m.strobe = false → (s.chan c).corrs = [] →
        ∃ t, exec (.channelRead c m) s = .next t ∧ (t.chan c).caErr = satInc 4 (s.chan c).caErr ∧
          (t.chan c).uncorr = satAdd 6 (s.chan c).uncorr (match j with
            | .arch _ _ => 16
            | _ => 8) ∧
          (t.chan c).st = (s.chan c).st)) ∧
    (s.chanClock c = false → exec (.recalibration c []) s = .next s) ∧
    (∀ e : LaneEye, s.chanOff c = false → (s.chan c).fenced = false → s.chanClock c = true → (s.chan c).jobs = [] →
      (s.chan c).failAt ≠ some (max s.elapsed (s.chan c).recalAt) → 4 ≤ e.width → (s.chan c).group < 9 →
      ∃ t, exec (.recalibration c [e]) s = .next t ∧ (t.chan c).group = ((s.chan c).group + 1) % 9 ∧
        t.elapsed = max s.elapsed (s.chan c).recalAt ∧ (t.chan c).recalAt = t.elapsed + s.recalNs ∧
        ∀ i : Fin 90, vget (t.chan c).delay i = (let d := vget (s.chan c).delay i; let x := e.lo + e.width / 2
          if i.val ≠ 10 * (s.chan c).group then d else if d < x then d + 1 else if x < d then d - 1 else d)) ∧
    (∀ (k : Fin 65) (l : List Nat), k.val < 64 → s.chanOff k = false → (s.chan k).fenced = false → s.chanClock k = true →
      ∃ t, exec (.scrub k l []) s = .next t ∧ (t.chan k).corr = l.foldl (fun x _ => satInc 16 x) (s.chan k).corr ∧
        t.up = s.up) ∧
    (∃ t, exec .vudcLoss s = .next t ∧ (t.chan c).vudcLost = true ∧ (t.chan c).st = 3 ∧ (t.chan c).jobs = [])

/-! ## The slate port (chapter 08) -/

/-- 08 R250, R251: on a port that is UP, a marker with a bad check byte, or from the wrong side, is counted in MK_ERR and acts
no further; a further copy within 16 ns of the one before it acts no further.
Rows that complete here: mkArrive, mkRelease, mkAbort, mkTime, mkPing, mkEcho, mkCount, mkStart. -/
def Obligations.BadMarkersAreCounted : Prop :=
  ∀ (p : SltPort) (y : BitVec 16) (a : BitVec 12) (k : BitVec 8) (ns : Nat) (s : State),
    (vget s.slt.ports p).st = 2 → Alone s →
    (k ≠ mkCheck kArrive y ∨ s.faceChild p = false → exec (.mkArrive p y k) s = .next (s.mkBad p)) ∧
    (k ≠ mkCheck kRelease y ∨ s.faceChild p = true → exec (.mkRelease p y k) s = .next (s.mkBad p)) ∧
    (k ≠ mkCheck kAbort y ∨ s.faceChild p = true → exec (.mkAbort p y k) s = .next (s.mkBad p)) ∧
    (k ≠ mkCheck kTime y ∨ s.faceChild p = true → exec (.mkTime p y k) s = .next (s.mkBad p)) ∧
    (k ≠ mkCheck kPing y ∨ s.faceChild p = false → exec (.mkPing p y k ns) s = .next (s.mkBad p)) ∧
    (k ≠ mkCheck kEcho y ∨ s.faceChild p = true → exec (.mkEcho p y k ns) s = .next (s.mkBad p)) ∧
    (k ≠ mkCheck kUp (ctrlPay 2 a.toNat) ∨ s.faceChild p = false → exec (.mkCount p a k) s = .next (s.mkBad p)) ∧
    (k ≠ mkCheck kDown (ctrlPay 6 a.toNat) ∨ s.faceChild p = true → exec (.mkStart p a k) s = .next (s.mkBad p)) ∧
    (s.mkBad p).slt.mkErr = satInc 6 s.slt.mkErr ∧
    (∀ t0 : Nat, k = mkCheck kArrive y → s.faceChild p = true →
      (vget s.slt.ports p).last = some (mkWord kArrive y, t0) → s.elapsed ≤ t0 + 16 →
      ∃ t, exec (.mkArrive p y k) s = .next t ∧
        (vget t.slt.ports p).arrived = (vget s.slt.ports p).arrived ∧ t.slt.open_ = s.slt.open_)

/-- 08 R258, R263, R271, R275: a first copy with a good check byte from a child: an arrival is kept at its slate time while
another port of the set is missing, a late one is counted as a race, answers of discovery are stored, a join waits for
its admission while a slate is open, and a departure lowers the root's N.
Rows that complete here: mkArrive, mkPing, mkCount, mkCountOver, mkReach, mkJoin, mkLeave. -/
def Obligations.MarkersFromChildrenComplete : Prop :=
  ∀ (p : SltPort) (y : BitVec 16) (a : BitVec 12) (s : State),
    (vget s.slt.ports p).st = 2 → s.faceChild p = true → (vget s.slt.ports p).last = none → Alone s →
    (∀ q : SltPort, q ≠ p → (vget s.slt.ports q).incl = true → (vget s.slt.ports q).arrived = none →
      s.slt.lastFwd ≤ s.elapsed →
      ∃ t, exec (.mkArrive p y (mkCheck kArrive y)) s = .next t ∧ t.slt.open_ = true ∧
        (vget t.slt.ports p).arrived = some (s.slate16 y.toNat) ∧
        (vget t.slt.ports p).last = some (mkWord kArrive y, s.elapsed)) ∧
    (s.elapsed < s.slt.lastFwd →
      ∃ t, exec (.mkArrive p y (mkCheck kArrive y)) s = .next t ∧ t.slt.raceCnt = satInc 6 s.slt.raceCnt ∧
        (vget t.slt.ports p).arrived = (vget s.slt.ports p).arrived) ∧
    (s.slt.disc ≠ 1 →
      (∃ t, exec (.mkCount p a (mkCheck kUp (ctrlPay 2 a.toNat))) s = .next t ∧
        (vget t.slt.ports p).sub = a.toNat ∧ (vget t.slt.ports p).counted = true ∧
        (vget t.slt.ports p).overrun = false) ∧
      (∃ t, exec (.mkCountOver p a (mkCheck kUp (ctrlPay 3 a.toNat))) s = .next t ∧
        (vget t.slt.ports p).counted = true ∧ (vget t.slt.ports p).overrun = true) ∧
      (∃ t, exec (.mkReach p a (mkCheck kUp (ctrlPay 4 a.toNat))) s = .next t ∧
        (vget t.slt.ports p).reach = some a.toNat)) ∧
    (s.slt.open_ = true →
      ∃ t, exec (.mkJoin p a (mkCheck kUp (ctrlPay 7 a.toNat))) s = .next t ∧
        (vget t.slt.ports p).joinWait = some ((vget s.slt.ports p).joinWait.getD 0 + a.toNat)) ∧
    (s.role = 2 → a.toNat ≠ 0 → s.slt.disc ≠ 1 →
      ∃ t, exec (.mkLeave p a (mkCheck kUp (ctrlPay 9 a.toNat))) s = .next t ∧
        (vget t.slt.ports p).sub = (vget s.slt.ports p).sub - a.toNat ∧
        t.slt.nPend = some (s.slt.nPend.getD (s.slt.nNext.getD s.slt.n) - a.toNat)) ∧
    (∀ ns : Nat, ns ≤ 351 →
      ∃ t, exec (.mkPing p y (mkCheck kPing y) ns) s = .next t ∧
        t.out = Out.marker p (mkWord kEcho (BitVec.ofNat 16 (fld y.toNat 0 8 + 256 * (ns - 96)))) :: s.out)

/-- 08 R254, R255, R258, R264 to R269, R271, R274, R275: a first copy with a good check byte from the parent: releases and
aborts close the slate, TIME moves the offset, an ECHO of the ping sent enters the mean, discovery takes its level, size
and start, and ADMIT, DETACH and DISSOLVE change the membership.
Rows that complete here: mkRelease, mkAbort, mkTime, mkEcho, mkEnum, mkSize, mkStart, mkAdmit, mkDetach, mkDissolve. -/
def Obligations.MarkersFromParentComplete : Prop :=
  ∀ (p : SltPort) (y : BitVec 16) (a : BitVec 12) (s : State),
    (vget s.slt.ports p).st = 2 → s.faceChild p = false → (vget s.slt.ports p).last = none → Alone s →
    (s.inTree = true →
      (∃ t, exec (.mkRelease p y (mkCheck kRelease y)) s = .next t ∧ t.slt.open_ = false ∧ t.slt.upSent = false ∧
        t.slt.lastFwd = s.toElapsed (s.slate16 y.toNat) ∧ t.slt.abortCnt = s.slt.abortCnt) ∧
      (∃ t, exec (.mkAbort p y (mkCheck kAbort y)) s = .next t ∧ t.slt.open_ = false ∧ t.slt.upSent = false ∧
        t.slt.lastFwd = s.toElapsed (s.slate16 y.toNat) ∧
        t.slt.abortCnt = (if s.slt.upSent then s.slt.abortCnt else satInc 8 s.slt.abortCnt))) ∧
    (∃ t, exec (.mkTime p y (mkCheck kTime y)) s = .next t ∧ t.slt.time.missing = 0 ∧
      t.slt.time.tickAt = s.elapsed ∧ t.elapsed = s.elapsed) ∧
    (∀ (q b rtt : Nat), s.slt.time.pingOut = some (q, b) → fld y.toNat 0 8 = q →
      ∃ t, exec (.mkEcho p y (mkCheck kEcho y) rtt) s = .next t ∧ t.slt.time.pingOut = none ∧
        t.slt.time.flights = ((rtt - (192 + 2 * fld y.toNat 8 8)) :: s.slt.time.flights).take 64) ∧
    (∃ t, exec (.mkEnum p a (mkCheck kDown (ctrlPay 1 a.toNat))) s = .next t ∧ t.slt.level = min 8 a.toNat) ∧
    (∃ t, exec (.mkSize p a (mkCheck kDown (ctrlPay 5 a.toNat))) s = .next t ∧ t.slt.nNext = some (a.toNat + 1)) ∧
    (∃ t, exec (.mkStart p a (mkCheck kDown (ctrlPay 6 a.toNat))) s = .next t ∧ t.slt.disc = 2 ∧
      t.slt.n = s.slt.nNext.getD s.slt.n ∧ t.slt.open_ = false ∧
      (s.slt.join.isSome = true → t.slt.joined = true ∧ t.slt.join = none) ∧
      (s.slt.join = none → t.slt.relay = true)) ∧
    (s.slt.join.isSome = true →
      ∃ t, exec (.mkAdmit p a (mkCheck kDown (ctrlPay 8 a.toNat))) s = .next t ∧ t.slt.joined = true ∧
        t.slt.join = none ∧ t.slt.relay = false) ∧
    (∃ t, exec (.mkDetach p a (mkCheck kDown (ctrlPay 10 a.toNat))) s = .next t ∧ t.slt.joined = false ∧
      t.slt.lost = true ∧ t.slt.relay = false ∧ ∀ q : SltPort, (vget t.slt.ports q).incl = false) ∧
    (∃ t, exec (.mkDissolve p a (mkCheck kDown (ctrlPay 11 a.toNat))) s = .next t ∧ t.slt.joined = false ∧
      t.slt.relay = false ∧ ∀ q : SltPort, (vget t.slt.ports q).incl = false)

/-- 08 R248, R249, R254, R255, R259, R261, R265, R269, R272: lanes come up and go down, pings and ticks are sent and time
out, and a slate is joined, arrived at, released and aborted at its instants.
Rows that complete here: laneUp, laneDown, pingInterval, pingTimeout, timeTick, tickMissing, arriveSend,
slateReleaseInstant, slateTimeout, localTimeout, joinTimeout. -/
def Obligations.SlateTimersComplete : Prop :=
  ∀ s : State, Alone s →
    (∀ (p : SltPort) (f : Nat), s.portOn p = true → s.pins.rdy = true → (vget s.slt.ports p).st ≠ 2 →
      64 ≤ (vget s.slt.ports p).exch →
      ∃ t, exec (.laneUp p ⟨f, true⟩) s = .next t ∧ (vget t.slt.ports p).st = 2 ∧
        (vget t.slt.ports p).child = s.faceChild p ∧
        (vget t.slt.ports p).flight = (if s.faceChild p then min 4095 f else (vget s.slt.ports p).flight) ∧
        (vget t.slt.ports p).incl = false ∧ (vget t.slt.ports p).excl = 0) ∧
    (∀ p : SltPort, (vget s.slt.ports p).st = 2 →
      ∃ t, exec (.laneDown p) s = .next t ∧ (vget t.slt.ports p).st = 1 ∧
        (s.faceChild p = false → t.slt.time.locked = false)) ∧
    (s.role = 1 → (vget s.slt.ports 0).st ≠ 0 →
      ∃ t, exec .pingInterval s = .next t ∧ t.elapsed = max s.elapsed s.slt.time.pingAt ∧
        t.slt.time.pingOut = some (s.slt.time.pingSeq, t.elapsed + 1000) ∧
        t.slt.time.pingSeq = (s.slt.time.pingSeq + 1) % 256 ∧
        t.out = Out.marker 0 (mkWord kPing (BitVec.ofNat 16 s.slt.time.pingSeq)) :: s.out) ∧
    (∀ q b : Nat, s.slt.time.pingOut = some (q, b) →
      ∃ t, exec .pingTimeout s = .next t ∧ t.slt.time.pingOut = none ∧ t.elapsed = max s.elapsed b) ∧
    (s.slateLocked = true →
      ∃ t, exec .timeTick s = .next t ∧
        t.elapsed = max s.elapsed (s.toElapsed (4096 * (fdivI (s.toSlate s.elapsed) 4096 + 1))) ∧
        (Config.freeNat s.freeCtr ≤ 255 → t.out.length = s.out.length + s.downPorts.length) ∧
        (255 < Config.freeNat s.freeCtr → t.out = s.out)) ∧
    (s.role = 1 → s.slt.time.tickAt ≠ 0 →
      ∃ t, exec .tickMissing s = .next t ∧ t.elapsed = max s.elapsed (s.slt.time.tickAt + 4096) ∧
        t.slt.time.missing = s.slt.time.missing + 1 ∧ t.slt.time.good = 0 ∧
        (4 ≤ s.slt.time.missing + 1 → t.slt.time.locked = false)) ∧
    (∀ q r b : Nat, s.slt.joined = true → s.slt.ready = none → s.slt.own = none → s.slateDue = some (q, r, b) → s.slt.skips = 0 →
      ∃ t, exec .arriveSend s = .next t ∧ t.slt.sentFor = some q ∧ t.slt.sentAt = t.elapsed) ∧
    (∀ q r b : Nat, s.slt.joined = true → s.slt.ready = none → s.slt.own = none → s.slateDue = some (q, r, b) → 0 < s.slt.skips →
      ∃ t, exec .arriveSend s = .next t ∧ t.slt.sentFor = some q ∧ t.slt.skips = s.slt.skips - 1 ∧
        t.slt.skipCnt = satInc 8 s.slt.skipCnt) ∧
    (∀ r : Nat, s.slt.rel = some r →
      ∃ t, exec .slateReleaseInstant s = .next t ∧ t.elapsed = max s.elapsed r ∧ t.slt.rel = s.slt.relNext ∧
        t.slt.n = s.slt.nNext.getD s.slt.n ∧ ∀ n : CluIx, (t.cl n).led.p = 0) ∧
    (∀ r : Nat, s.slt.ready = some r → s.role = 2 → s.slt.open_ = true → s.slt.upSent = false →
      ∃ t, exec .slateTimeout s = .next t ∧ t.elapsed = max s.elapsed (r + s.sheet.s9.sltTo * 1000) ∧
        t.slt.open_ = false ∧ t.slt.abortCnt = satInc 8 s.slt.abortCnt) ∧
    (∀ r : Nat, s.slt.ready = some r →
      ∃ t, exec .localTimeout s = .next t ∧ t.elapsed = max s.elapsed (r + s.localNs) ∧ t.slt.lost = true) ∧
    (∀ q b : Nat, s.slt.join = some (q, b) →
      ∃ t, exec .joinTimeout s = .next t ∧ t.slt.join = none ∧ t.elapsed = max s.elapsed b)

/-- 08 R276, with log entry 119 for what shares a word clock: the root's time-out, sent before an ARRIVE of the same word clock,
waits and is handled after it.
Rows that complete here: slateTimeout. -/
def Obligations.SlateEventsInOrder : Prop :=
  ∀ (p : SltPort) (y : BitVec 16) (k : BitVec 8) (s : State) (t0 : Nat), s.abortAt = some t0 →
    s.pending = [.mkArrive p y k] → s.slt.defer = [] →
    ∃ t, exec .slateTimeout s = .next t ∧ t.slt.defer = [.slateTimeout] ∧ t.elapsed = max s.elapsed t0 ∧
      exec (.mkArrive p y k) { t with pending := [] } =
        .next (({ s.advanceTo t0 with pending := [] } : State).mkArrive p y k).slateTimeout

/-! ## Domains, supply, faults and records (chapters 11, 14 and 15) -/

/-- 04 R131, 11 R353, R357, R359, R361: settling ends the command's part, header stages close and open one at a time, a
stage held for its neighbours goes on when its wait ends, waves start and settle, an on that times out is held off, and
cells go to mode off 1 us after the last stage opened.
Rows that complete here: setpointSettled, waveStart, headerStage, nbWaitExpiry, waveSettleExpiry, domainOnTimeout,
cellsModeOff. -/
def Obligations.DomainStagesComplete : Prop :=
  ∀ (d : DomIx) (s : State),
    (∀ (q : Nat) (c : Cmd), s.domSettled d = true → (s.dm d).cmd = some q → s.cmd? q = some c → c.parts = [d.val] →
      c.ends = [] → c.stage = .dispatched →
      ∃ t, exec (.setpointSettled d) s = .next t ∧ (t.dm d).cmd = none ∧
        ∃ r ∈ t.host.cpls, r.slot = some q ∧ r.status = .done ∧ r.time = s.elapsed) ∧
    (∀ (g : Staging) (t0 : Nat), (s.dm d).stg = some g → s.trip = false → g.waitRun = false → g.nextAt = some t0 →
      (g.closing = true →
        ∃ t, exec (.headerStage d) s = .next t ∧ (t.dm d).stages = min 8 ((s.dm d).stages + 1) ∧
          t.elapsed = max s.elapsed t0) ∧
      (g.closing = false → s.vin.dip = false →
        ∃ t, exec (.headerStage d) s = .next t ∧ (t.dm d).stages = (s.dm d).stages - 1 ∧
          t.elapsed = max s.elapsed t0)) ∧
    (∀ (g : Staging) (t0 : Nat), (s.dm d).stg = some g → g.waitBy = some t0 → s.trip = false → g.paused = false →
      ∃ t, exec (.nbWaitExpiry d) s = .next t ∧ t.elapsed = max s.elapsed t0 ∧ (t.dm d).nbWait = false ∧
        ∃ g', (t.dm d).stg = some g' ∧ g'.nextAt.isSome = true ∧ g'.waitBy = none) ∧
    (∀ (w : List Nat) (rest : List (List Nat)), s.boot.waves = w :: rest → s.boot.step = 7 → s.boot.waitVin = false →
      s.boot.inWave = [] → s.trip = false → w.all s.allRun = true →
      ∃ t, exec .waveStart s = .next t ∧ t.boot.wave = s.boot.wave + 1 ∧ t.boot.inWave = w ∧ t.boot.waves = rest) ∧
    (∀ (g : Staging) (t0 : Nat), (s.dm d).stg = some g → g.settleBy = some t0 → g.closing = true →
      ∃ t, exec (.waveSettleExpiry d) s = .next t ∧ (t.dm d).stg = none ∧ t.elapsed = max s.elapsed t0 ∧
        (g.cmd = none → t.boot.inWave = s.boot.inWave.filter (fun x => x != d.val))) ∧
    (∀ g : Staging, (s.dm d).stg = some g → g.waitRun = true → g.closing = true → s.allRun d = false →
      ∃ t, exec (.domainOnTimeout d) s = .next t ∧ (t.dm d).stg = none ∧ t.elapsed = max s.elapsed g.runBy ∧
        (g.cmd = none → (t.dm d).heldOff = true)) ∧
    (∀ (g : Staging) (t0 : Nat), (s.dm d).stg = some g → g.settleBy = some t0 → g.closing = false →
      ∃ t, exec (.cellsModeOff d) s = .next t ∧ (t.dm d).on = false ∧ (t.dm d).modeOff = true ∧ (t.dm d).stg = none ∧
        t.elapsed = max s.elapsed t0 ∧
        ∀ (n : CluIx) (k : CellIx), (n.val, k.val) ∈ s.sheet.domCells d →
          (t.cell n k).mode = .off ∧ (t.cell n k).st.switching = false ∧ (t.cell n k).safeValid = false)

/-- 11 R345 to R348: a VIN dip freezes the credits and opens its trigger, recovery ends it, a long dip cuts the voltage until
VIN has been good for 1 ms, and VIN below its reset threshold requests reset and parks every cell.
Rows that complete here: vinWarning, vinRecovery, longDip, vcutRestore, vinReset. -/
def Obligations.VinRowsComplete : Prop :=
  ∀ (mv : Nat) (s : State),
    (s.vinWarnMv ≤ mv → exec (.vinWarning mv) s = .next (s.vinRead mv)) ∧
    (mv < s.vinWarnMv → s.vinResetMv ≤ mv → s.vin.dip = false →
      ∃ t, exec (.vinWarning mv) s = .next t ∧ t.vin.dip = true ∧ t.vin.frozen = true ∧ t.vin.warn = true ∧
        t.vin.minMv = mv ∧ t.vin.dips = satInc 12 s.vin.dips ∧ t.vin.dipBy = some (s.elapsed + s.vinWinNs)) ∧
    (mv < s.vinResetMv → s.vin.rstreq = false → s.pins.rstN = true →
      (∃ t, exec (.vinReset mv) s = .next t ∧ t.vin.rstreq = true ∧ t.pins.rstreqN = false ∧ t.pins.rdy = false ∧
        t.pins.park = true ∧ AllParked t) ∧
      (mv < s.vinWarnMv → ∃ t, exec (.vinWarning mv) s = .next t ∧ t.vin.rstreq = true ∧ t.pins.rstreqN = false ∧
        t.pins.rdy = false ∧ t.pins.park = true ∧ AllParked t)) ∧
    (s.vinOkMv < mv →
      ∃ t, exec (.vinRecovery mv) s = .next t ∧ t.vin.dip = false ∧ t.vin.dipBy = none ∧ t.vin.frozen = false ∧
        t.vin.okBy = (if s.vin.long then some (s.vin.okBy.getD (s.elapsed + 1000000)) else none)) ∧
    (∀ t0 mv : Nat, s.vin.dipBy = some t0 → s.pending.head? = some (.vinRecovery mv) → s.vinOkMv < mv →
      exec .longDip s = .next (s.advanceTo t0)) ∧
    (∀ t0 : Nat, s.vin.dipBy = some t0 → (∀ mv, s.pending.head? = some (.vinRecovery mv) → mv ≤ s.vinOkMv) →
      ∃ t, exec .longDip s = .next t ∧ t.vin.long = true ∧ t.vin.vcut = s.sheet.s7.vcutDip ∧ t.vin.dipBy = none ∧
        t.vin.frozen = false ∧ t.elapsed = max s.elapsed t0) ∧
    (∀ t0 : Nat, s.vin.okBy = some t0 →
      ∃ t, exec .vcutRestore s = .next t ∧ t.vin.long = false ∧ t.vin.vcut = 256 ∧ t.vin.okBy = none ∧
        t.elapsed = max s.elapsed t0)

/-- 14 R429, R432, R433, 11 R233 and R368, 14 R445: the fault at the head of the queue is recorded or merged, merges end and
CORRECTED faults close after their window, a cluster leaves reset with an empty ledger and ends its quiet time, and a sector
is erased ahead of the log.
Rows that complete here: quietEnd, faultRecord, mergeExpiry, sectorErase, clusterResetRelease, correctedFaultClose,
sectorEraseDone. -/
def Obligations.FaultAndResetRowsComplete : Prop :=
  ∀ (n : CluIx) (c : Nat) (sc : Scope) (s : State),
    (∀ (r : Raise) (rest : List Raise), s.flt.queue = r :: rest → r.cls ≠ 4 →
      s.flt.merges.find? (fun m => m.code == r.code && m.sc == r.sc) = none →
      ∃ t, exec .faultRecord s = .next t ∧ t.flt.queue = rest ∧ t.flt.fseq = (s.flt.fseq + 1) % 2 ^ 32) ∧
    (∀ (r : Raise) (rest : List Raise) (m : Merge), s.flt.queue = r :: rest → r.cls ≤ 2 →
      s.flt.merges.find? (fun m => m.code == r.code && m.sc == r.sc) = some m → s.elapsed < m.at_ + s.mergeNs →
      ∃ t, exec .faultRecord s = .next t ∧ t.flt.queue = rest ∧ t.flt.fseq = s.flt.fseq ∧
        ∃ m' ∈ t.flt.merges, m'.code = r.code ∧ m'.sc = r.sc ∧ m'.count = m.count + 1 ∧ m'.last = r) ∧
    (∀ m : Merge, s.flt.merges.find? (fun m => m.code == c && m.sc == sc) = some m → m.count ≠ 0 →
      ∃ t, exec (.mergeExpiry c sc) s = .next t ∧ t.flt.fseq = (s.flt.fseq + 1) % 2 ^ 32 ∧
        t.elapsed = max s.elapsed (m.at_ + s.mergeNs)) ∧
    (∀ f : Flt, s.flt.opens.find? (fun f => f.code == c && f.sc == sc && f.cls == 2) = some f →
      ∃ t, exec (.correctedFaultClose c sc) s = .next t ∧ t.elapsed = max s.elapsed (f.last + s.mergeNs) ∧
        ∀ g ∈ t.flt.opens, ¬ (g.code = c ∧ g.sc = sc ∧ g.cls = 2)) ∧
    (∀ t0 : Nat, (s.cl n).inReset = some t0 → (s.cl n).resetRel = false →
      ∃ t, exec (.clusterResetRelease n) s = .next t ∧ (t.cl n).resetRel = true ∧ (t.cl n).clock = .waking ∧
        (t.cl n).led.pend = [] ∧ (t.cl n).led.grants = [] ∧ (t.cl n).led.heldLo = [] ∧ (t.cl n).led.heldHi = [] ∧
        t.elapsed = max s.elapsed (t0 + 3000)) ∧
    (∀ t0 : Nat, (s.cl n).led.quietBy = some t0 →
      ∃ t, exec (.quietEnd n) s = .next t ∧ (t.cl n).led.quietBy = none ∧ (t.cl n).resetRel = false ∧
        t.elapsed = max s.elapsed t0) ∧
    (s.nv.ready = true → s.nv.erasing = false → 24 ≤ s.nv.pos % 32 →
      s.nv.flash.any (fun q => q.1 / 32 == (s.nv.pos / 32 + 1) % 16) = true →
      ∃ t, exec .sectorErase s = .next t ∧ t.nv.erasing = true ∧ t.nv.sector = (s.nv.pos / 32 + 1) % 16 ∧
        t.nv.flash = s.nv.flash) ∧
    (s.nv.erasing = true →
      ∃ t, exec .sectorEraseDone s = .next t ∧ t.nv.erasing = false ∧
        t.nv.flash = s.nv.flash.filter (fun q => q.1 / 32 != s.nv.sector))

/-! ## Bring-up, resets and sleep (chapter 11) -/

/-- 11 R350, R354, R355, 15 R469, 02 R56, R60, 14 R448: the steps of bring-up one after the other, and where each halts.
Rows that complete here: bringupVinReady, nvReplay, securePageFill, callSheetAccepted, clusterWakeReport,
treeAssembly, upperDieClear, ready. -/
def Obligations.BringupRowsComplete : Prop :=
  ∀ s : State,
    (∀ l : List Nat, s.atStep 1 = true →
      (s.trip = false → ∃ t, exec (.bringupVinReady l) s = .next t ∧ t.boot.step = 2) ∧
      (s.trip = true → ∃ t, exec (.bringupVinReady l) s = .next t ∧ t.boot.halt = true ∧ t.boot.step = 1)) ∧
    (∀ r : NvDiscovery, s.atStep 2 = true → ∃ t, exec (.nvReplay r) s = .next t ∧ t.boot.step = 3) ∧
    (∀ (bytes : Nat) (erase : BitVec 8), s.atStep 2 = true →
      ∃ t, exec (.nvReplay (.found bytes erase)) s = .next t ∧ t.nv.ready = true ∧ t.nv.addr4 = decide (2 ^ 24 < bytes) ∧
        t.nv.base = BitVec.ofNat 32 (bytes - 65536) ∧ t.nv.eraseOp = erase.toNat ∧ t.nv.flash = s.nv.flash) ∧
    (∀ st : SecStore, s.atStep 3 = true → s.pins.tamperBy ≤ s.elapsed → s.sec.page = none →
      (st.readable = true → st.crcOk = true → secLimitsOk st = true →
        ∃ t, exec (.securePageFill st false) s = .next t ∧ t.boot.step = 4 ∧ t.boot.waitGo = true ∧
          t.sec.page = some st ∧ t.sec.filled = true ∧ t.sec.tCrit = st.tCrit ∧ t.sec.lc = st.lc) ∧
      (st.readable = false ∨ st.crcOk = false ∨ secLimitsOk st = false →
        ∃ t, exec (.securePageFill st false) s = .next t ∧ t.boot.halt = true ∧ t.boot.step = 3)) ∧
    (s.atStep 4 = true → s.boot.cshState = 1 → s.cshReading = false → s.boot.cshImg.isSome = true →
      (∀ cs : CallSheet, s.cshJudge = .ok cs →
        ∃ t, exec .callSheetAccepted s = .next t ∧ t.csh = some cs ∧ t.boot.step = 5 ∧ t.boot.cshState = 2 ∧
          t.boot.waitGo = false ∧
          ∀ (n : CluIx) (k : CellIx), n.val ∈ cs.cluIxs → k.val ∈ cs.allCells n → (s.cell n k).st = .idle →
            (t.cell n k).st = .test) ∧
      (∀ k : Nat, s.cshJudge = .error k →
        ∃ t, exec .callSheetAccepted s = .next t ∧ t.boot.halt = true ∧ t.boot.cshCheck = k ∧ t.boot.cshState = 3 ∧
          t.csh = s.csh)) ∧
    (∀ (n : CluIx) (m : WakeMeas), s.atStep 5 = true → (s.sheet.cluRec n).isSome = true → (s.cl n).woke = false →
      (s.sheet.allCells n).any (fun k => (s.cell n k).st == .test) = false →
      ∃ t, exec (.clusterWakeReport n m) s = .next t ∧ (t.cl n).woke = true ∧ (t.cl n).clock = .running ∧
        (t.cl n).ctl.bankA.valid = true ∧ (t.cl n).ctl.bankB.valid = true) ∧
    (s.atStep 6 = true →
      ∃ t, exec .treeAssembly s = .next t ∧ t.assembled = true ∧ t.busAt = nextBoundary 1000 s.elapsed ∧
        7 ≤ t.boot.step ∧ (s.vin.mv ≤ s.vinOkMv → t.boot.step = 7 ∧ t.boot.waitVin = true)) ∧
    (∀ k : Fin 65, s.supply = true → s.pins.rstN = true → s.csh.isSome = true → s.up.cleared.getLsbD k = false →
      s.chanOff k = false →
      ∃ t, exec (.upperDieClear k) s = .next t ∧ t.up.cleared.getLsbD k = true ∧
        (k.val < 64 → vget t.up.prof k = [] ∧ vget t.up.archPoison k = 0) ∧ (k.val = 64 → t.up.shots = [])) ∧
    (s.atStep 8 = true → s.allCleared = true → s.mayBeReady = true → s.host.reset = false →
      ∃ t, exec .ready s = .next t ∧ t.pins.rdy = true ∧ t.boot.step = 9)

/-- 02 R34, 11 R341, R350, R365, 15 R471: power-up, power loss, block reset and its release, and tamper; the flash keeps its
records, and the epoch, the counter and the trip latch live through a block reset.
Rows that complete here: powerUp, blockReset, blockResetRelease, tamper, powerLoss. -/
def Obligations.ResetRowsComplete : Prop :=
  ∀ s : State,
    (s.vaon = true → ∃ t, exec (.powerUp false) s = .next t ∧ t.supply = true ∧ t.elapsed = s.elapsed ∧
      t.trip = s.trip ∧ t.boot.relAt = s.elapsed ∧ t.csh = none ∧ t.nv.flash = s.nv.flash) ∧
    (∃ t, exec (.powerLoss false) s = .next t ∧ t.supply = false ∧ t.vaon = s.vaon ∧ t.elapsed = s.elapsed ∧
      t.trip = s.trip ∧ t.csh = none ∧ t.nv.flash = s.nv.flash) ∧
    (∃ t, exec (.powerLoss true) s = .next t ∧ t.supply = false ∧ t.vaon = false ∧ t.trip = false ∧ t.csh = none ∧
      t.nv.flash = s.nv.flash) ∧
    (s.supply = true → s.pins.rstN = true →
      ∃ t, exec .blockReset s = .next t ∧ t.pins.rstN = false ∧ t.pins.park = true ∧ t.pins.rdy = false ∧ t.csh = none ∧
        t.elapsed = s.elapsed ∧ t.epoch = s.epoch ∧ t.trip = s.trip ∧ t.nv.flash = s.nv.flash ∧
        t.flt.first = s.flt.first ∧ t.flt.fseq = s.flt.fseq ∧ t.flt.opens = [] ∧ t.host.cmds = [] ∧ t.boot.pin = true ∧
        t.ctx = State.reset.ctx ∧ t.up = State.reset.up) ∧
    (∀ b : Bool, s.supply = true → s.pins.rstN = false →
      ∃ t, exec (.blockResetRelease b) s = .next t ∧ t.pins.rstN = true ∧ t.pins.park = false ∧ t.boot.step = 1 ∧
        t.boot.relAt = s.elapsed ∧ t.trip = (s.trip && !b)) ∧
    (∀ ns : Nat, s.supply = true → 100 ≤ ns →
      ∃ t, exec (.tamper ns) s = .next t ∧ t.sec.tamper = true ∧ t.sec.page = none ∧ t.sec.wiped = true ∧
        t.sec.filled = false ∧ t.pins.tamperBy = s.elapsed + ns) ∧
    (∀ ns : Nat, ns < 100 → ∃ t, exec (.tamper ns) s = .next t ∧ t.sec = s.sec)

/-- 01 R23, R25, R26, R28, 11 R368: clusters and the Gaffer go to sleep when they have been idle, wake in 2 us, and run again.
A register access to a stopped clock wakes it and stalls, without effect, and is made when the clock runs; one that comes
while another stalls waits behind it.
Rows that complete here: pairLoRead, registerWrite, clusterSleep, gafferSleep, wake, clockRunning, wakeFailure. -/
def Obligations.SleepRowsComplete : Prop :=
  ∀ (n : CluIx) (s : State),
    (∀ t0 : Nat, (s.cl n).idleSince = some t0 → s.samples n = true → s.cluIdle n = true →
      ∃ t, exec (.clusterSleep n) s = .next t ∧ (t.cl n).clock = .asleep ∧ (t.cl n).idleSince = none ∧
        t.elapsed = max s.elapsed (t0 + 1000 * s.sheet.hdr.cluSleep) ∧
        ∀ k : CellIx, (t.cell n k).st.running = false) ∧
    (∀ t0 : Nat, s.gafIdle = some t0 → s.gafClock = .running → s.accessible = true → s.gafQuiet = true →
      ∃ t, exec .gafferSleep s = .next t ∧ t.gafClock = .asleep ∧ t.gafIdle = none ∧
        t.elapsed = max s.elapsed (t0 + 1000 * s.sheet.hdr.gafSleep)) ∧
    ((s.cl n).clock = .asleep →
      ∃ t, exec (.wake (.clu n)) s = .next t ∧ (t.cl n).clock = .waking ∧ (t.cl n).wakeBy = s.elapsed + 2000 ∧
        t.gafClock ≠ .asleep) ∧
    (s.gafClock = .asleep → ∃ t, exec (.wake .gaf) s = .next t ∧ t.gafClock = .waking) ∧
    ((s.cl n).clock = .waking → (s.cl n).inReset = none →
      ∃ t, exec (.clockRunning (.clu n)) s = .next t ∧ (t.cl n).clock = .running ∧ (t.cl n).wakeFails = 0 ∧
        (t.cl n).sense.frameAt = nextBoundary 32 (s.elapsed + 39) ∧ (s.stalled = [] → t.stalled = [])) ∧
    (s.gafClock = .waking →
      ∃ t, exec (.clockRunning .gaf) s = .next t ∧ t.gafClock = .running ∧ t.cueQ = [] ∧ t.busDue = none ∧
        t.busAt = nextBoundary 1000 s.elapsed) ∧
    (∀ (id : AccId) (off : BitVec 20) (r : Reg) (v : Word32) (be : BitVec 4), s.accessible = true →
      off.toNat % 4 = 0 → s.stalled = [] →
      regAt off.toNat = some r → s.regAbsent r = false → s.regAwake r = false →
      (s.permits id off.toNat true = true → s.lockedReg r = false → exec (.registerWrite id off v be) s =
        .next { s.wakeReg r with stalled := [.registerWrite id off v be] }) ∧
      (s.permits id off.toNat false = true → exec (.pairLoRead id off) s =
        .next { s.wakeReg r with stalled := [.pairLoRead id off] })) ∧
    (∀ (id : AccId) (off : BitVec 20) (v : Word32) (be : BitVec 4), s.accessible = true → off.toNat % 4 = 0 →
      s.stalled ≠ [] →
      exec (.registerWrite id off v be) s = .next { s with stalled := s.stalled ++ [.registerWrite id off v be] } ∧
      exec (.pairLoRead id off) s = .next { s with stalled := s.stalled ++ [.pairLoRead id off] }) ∧
    (∀ id : AccId, s.gafClock = .waking → s.cueQ = [] → s.stalled = [.pairLoRead id 0x00000] → s.accessible = true →
      s.permits id 0x00000 false = true →
      ∃ (t : State) (v : Word32), exec (.clockRunning .gaf) s = .next t ∧ t.stalled = [] ∧
        t.out = Out.regData id v :: s.out ∧ v.setWidth 16 = (0x0301 : BitVec 16)) ∧
    ((s.cl n).clock = .waking →
      ∃ t, exec (.wakeFailure n) s = .next t ∧ t.elapsed = max s.elapsed (s.cl n).wakeBy ∧
        (t.cl n).wakeFails = (if (s.cl n).wakeFails = 0 then 1 else 0) ∧
        (t.cl n).wakeBy = t.elapsed + 2000)

/-! ## What rows leave unchanged -/

/-- 01 R17, 02 R55, R58, 05 R150, 09 R302, 14 R451, R456, 15 R465, 16 R480, R484, 17 R495: besides power-up, block reset and
power loss, each of these parts of the block is changed only by the commands named for it: the call sheet in force and the
one that waits, the assembly, the self-test, the march, the stamp regions, the board-facing sense, the regulator buses, the
channels' set-up, the staged and latched halves, the held cues, what was seen of ZN_SYNC_IN, the stalled accesses, the
broadcast's number and instants, the trip, the reclaim counter, the bring-up and the upper die. The accesses that stalled
act when a clock runs again, and the samples that wait for a ledger's cycle with the cycle's last event. -/
def Obligations.EachUnitKeepsItsOwnState : Prop :=
  ∀ (i : Instr) (s t : State), exec i s = .next t →
    (match i with
      | .powerUp _ | .blockReset | .powerLoss _ | .shareBusBroadcast | .shareBusRecord _ _ | .callSheetAccepted => True
      | _ => t.csh = s.csh) ∧
    (match i with
      | .powerUp _ | .blockReset | .powerLoss _ | .readData _ _ _ | .hostFunctionalReset | .shareBusBroadcast
      | .shareBusRecord _ _ => True
      | _ => t.cshNew = s.cshNew) ∧
    (match i with
      | .powerUp _ | .blockReset | .powerLoss _ | .treeAssembly => True
      | _ => t.assembled = s.assembled) ∧
    (match i with
      | .powerUp _ | .blockReset | .powerLoss _ => True
      | _ => t.oscPhase = s.oscPhase) ∧
    (match i with
      | .powerUp _ | .blockReset | .powerLoss _ | .selfTest _ | .unitEnable _ | .hostFunctionalReset
      | .controlSample _ _ | .faultRecord | .give _ | .call _ | .recall _ | .returnW _ _ | .admissionRound _
      | .brollRelease _ _ | .preparationStart _ _ | .stepWinExpiry _ _ | .shareBusRecord _ _ => True
      | _ => t.selft = s.selft) ∧
    (match i with
      | .powerUp _ | .blockReset | .powerLoss _ | .march _ | .marchComplete _ _ | .unitEnable _
      | .hostFunctionalReset | .faultRecord => True
      | _ => t.march = s.march) ∧
    (match i with
      | .powerUp _ | .blockReset | .powerLoss _ | .stampConfig _ | .hostFunctionalReset | .controlSample _ _
      | .give _ | .call _ | .recall _ | .returnW _ _ | .admissionRound _ | .brollRelease _ _ | .preparationStart _ _
      | .stepWinExpiry _ _ | .shareBusRecord _ _ => True
      | _ => t.stamps = s.stamps) ∧
    (match i with
      | .powerUp _ | .blockReset | .powerLoss _ | .boardSenseCheck _ _ | .boardSenseReading _ _
      | .shareBusBroadcast | .shareBusRecord _ _ => True
      | _ => t.board = s.board) ∧
    (match i with
      | .powerUp _ | .blockReset | .powerLoss _ | .criticalTrip _ _ | .faultInjection _ _ _
      | .registerWrite _ _ _ _ | .callSheetAccepted | .avsStatusPoll _ | .avsCurrentPoll _ | .pmbusPoll _
      | .clockRunning _ => True
      | _ => t.buses = s.buses) ∧
    (match i with
      | .powerUp _ | .blockReset | .powerLoss _ | .registerWrite _ _ _ _ | .clockRunning _ => True
      | _ => t.vrtCfg = s.vrtCfg) ∧
    (match i with
      | .powerUp _ | .blockReset | .powerLoss _ | .registerWrite _ _ _ _ | .clockRunning _ => True
      | _ => t.vrtCap = s.vrtCap) ∧
    (match i with
      | .powerUp _ | .blockReset | .powerLoss _ | .registerWrite _ _ _ _ | .clockRunning _ => True
      | _ => t.epochLo = s.epochLo) ∧
    (match i with
      | .powerUp _ | .blockReset | .powerLoss _ | .pairLoRead _ _ | .queueHeadRead _ _ | .legacyDataRead _
      | .clockRunning _ => True
      | _ => t.latches = s.latches) ∧
    (match i with
      | .powerUp _ | .blockReset | .powerLoss _ | .syncQualified _ _ | .syncLock _ _ => True
      | _ => t.sync = s.sync) ∧
    (match i with
      | .powerUp _ | .blockReset | .powerLoss _ => True
      | _ => t.edgeKey = s.edgeKey) ∧
    (match i with
      | .powerUp _ | .blockReset | .powerLoss _ | .bootLock _ _ _ | .callSheetGo _ _ _ | .clockRunning _
      | .epochWrite _ _ _ | .eventRingDisable _ _ _ | .eventRingEnable _ _ _ | .faultInjection _ _ _
      | .firstErrorClear _ _ _ | .irqAck _ _ _ _ | .irqFack _ _ _ _ | .irqFvecRead _ _ | .irqMaskClr _ _ _ _
      | .irqMaskSet _ _ _ _ | .irqPendClr _ _ _ _ | .irqPendSet _ _ _ _ | .irqVecRead _ _ | .lcRequest _ _ _
      | .legacyDataRead _ | .legacySelectWrite _ _ _ | .pairLoRead _ _ | .queueHeadRead _ _
      | .registerWrite _ _ _ _ | .ringDisable _ _ _ | .ringEnable _ _ _ | .singleShot _ _ _ _ => True
      | _ => t.stalled = s.stalled) ∧
    (match i with
      | .powerUp _ | .blockReset | .powerLoss _ | .cue _ | .clockRunning _ => True
      | _ => t.cueQ = s.cueQ) ∧
    (match i with
      | .powerUp _ | .blockReset | .powerLoss _ | .shareBusBroadcast => True
      | _ => t.busSeq = s.busSeq) ∧
    (match i with
      | .powerUp _ | .blockReset | .powerLoss _ | .shareBusBroadcast | .shareBusRecord _ _ | .treeAssembly
      | .clockRunning _ => True
      | _ => t.busDue = s.busDue) ∧
    (match i with
      | .powerUp _ | .blockReset | .powerLoss _ | .shareBusBroadcast | .treeAssembly | .clockRunning _ => True
      | _ => t.busAt = s.busAt) ∧
    (match i with
      | .powerUp _ | .blockReset | .powerLoss _ | .faultInjection _ _ _ | .registerWrite _ _ _ _
      | .blockResetRelease _ | .criticalTrip _ _ | .clockRunning _ => True
      | _ => t.trip = s.trip) ∧
    (match i with
      | .powerUp _ | .blockReset | .powerLoss _ | .faultInjection _ _ _ | .registerWrite _ _ _ _
      | .criticalTrip _ _ | .clockRunning _ => True
      | _ => t.tripClu = s.tripClu) ∧
    (match i with
      | .powerUp _ | .blockReset | .powerLoss _ | .readData _ _ _ | .registerWrite _ _ _ _
      | .hostFunctionalReset | .clockRunning _ => True
      | _ => t.reclaim = s.reclaim) ∧
    (match i with
      | .powerUp _ | .blockReset | .powerLoss _ | .unitEnable _ | .readData _ _ _ | .callSheetGo _ _ _
      | .registerWrite _ _ _ _ | .blockResetRelease _ | .hostFunctionalReset | .vinRecovery _ | .faultRecord
      | .bringupVinReady _ | .nvReplay _ | .securePageFill _ _ | .callSheetAccepted | .clusterWakeReport _ _
      | .treeAssembly | .waveStart | .waveSettleExpiry _ | .domainOnTimeout _ | .ready | .clockRunning _ => True
      | _ => t.boot = s.boot) ∧
    (match i with
      | .powerUp _ | .blockReset | .powerLoss _ | .readData _ _ _ | .scrub _ _ _ | .channelRead _ _
      | .upperDieClear _ => True
      | _ => t.up = s.up)

/-- 03 R64 to R93, R103, 06 R208, 07 R238, 09 R296: an event of one cell or of one cluster's carrier, and the timers of one
cluster, change that cluster alone: nothing else in the block changes but elapsed time, what is counted with it, and what has
been seen of ZN_SYNC_IN; an event of one cell leaves the other cells of its cluster as they were. -/
def Obligations.CellRowsStayInTheirCluster : Prop :=
  ∀ (n : CluIx) (k : CellIx) (x y : Nat) (m : PeriodMeas) (h : HalfIx) (i : Instr) (s t : State), exec i s = .next t →
    (i ∈ [Instr.cellVinStop n k x, .cellVinResume n k x y, .syncLoss n, .ditherStep n,
        .truncation n k x, .truncationEnd n k x, .shunt n k x, .startDone n k x] →
      t = { s with clu := t.clu } ∧ ∀ j : CluIx, j ≠ n → t.cl j = s.cl j) ∧
    (i ∈ [Instr.syncQualified n x, .syncLock n x] →
      t = { s with clu := t.clu, sync := t.sync, freeCtr := t.freeCtr, elapsed := t.elapsed, pow := t.pow } ∧
        ∀ j : CluIx, j ≠ n → t.cl j = s.cl j) ∧
    (i ∈ [Instr.kickEnd n k x, .kickRearm n k, .shuntEnd n k x, .overloadTimer n k, .hiccupHold n k m, .retryReset n k,
        .shuntRearm n k, .openWireTest n, .sliceBoundary n] →
      t = { s with clu := t.clu, elapsed := t.elapsed, pow := t.pow } ∧ ∀ j : CluIx, j ≠ n → t.cl j = s.cl j) ∧
    (i = .stepWinExpiry n h → (s.cl n).led.defer = [] →
      t = { s with clu := t.clu, elapsed := t.elapsed, pow := t.pow } ∧ ∀ j : CluIx, j ≠ n → t.cl j = s.cl j) ∧
    (i ∈ [Instr.cellVinStop n k x, .cellVinResume n k x y, .truncation n k x, .truncationEnd n k x, .shunt n k x,
        .startDone n k x, .kickEnd n k x, .kickRearm n k, .shuntEnd n k x, .overloadTimer n k, .hiccupHold n k m,
        .retryReset n k, .shuntRearm n k] →
      ∀ j : CellIx, j ≠ k → t.cell n j = s.cell n j)

/-- 07 R220 to R234, 08 R248 to R275, 14 R437 to R442, 13 R412, R417, R424, 14 R445, 17 R501, R502: credit messages leave the
tree of commands, the slate and the supply as they were; the slate's exchange of times and sizes changes the slate port
alone; a processor's registers and timers change the interrupt controller alone; the pipeline's rows change the host
interface alone; and so for the NV store's erase and the regulator buses. -/
def Obligations.OtherRowsStayInTheirUnit : Prop :=
  ∀ (w : Word64) (id : AccId) (p : ProcIx) (v : Word32) (be : BitVec 4) (b : Fin 8) (pri : BitVec 5) (q : SltPort)
      (pay : BitVec 16) (arg : BitVec 12) (chk : BitVec 8) (x : Nat) (lt : LaneTrain) (slot : Slot) (c : Fin 16) (j : Fin 4)
      (off : BitVec 12) (data : Word64) (en : BitVec 8) (st : List (BitVec 16)) (cur : BitVec 16) (r : PmbusPoll)
      (i : Instr) (s t : State), exec i s = .next t →
    (i ∈ [Instr.borrow w, .call w, .lend w, .recall w, .give w] → (∀ n : CluIx, (s.cl n).led.defer = []) →
      t = { s with clu := t.clu, dom := t.dom, msgs := t.msgs, bal := t.bal }) ∧
    (i ∈ [Instr.bank w, .withhold w] → t = { s with dom := t.dom, msgs := t.msgs }) ∧
    (i = .mkEcho q pay chk x → t = { s with slt := t.slt }) ∧
    (i ∈ [Instr.laneUp q lt, .mkPing q pay chk x] → t = { s with slt := t.slt, out := t.out }) ∧
    (i ∈ [Instr.mkSize q arg chk, .mkJoin q arg chk, .mkLeave q arg chk] → Alone s →
      t = { s with slt := t.slt, out := t.out }) ∧
    (i ∈ [Instr.irqAck id p v be, .irqFack id p v be, .irqPendSet id b v be, .irqPendClr id b v be, .irqMaskSet id b v be,
        .irqMaskClr id b v be] →
      t = { s with irq := t.irq, sec := t.sec, gafClock := t.gafClock, gafIdle := t.gafIdle, stalled := t.stalled } ∧
        (s.permits id 0x31000 true = true → t.sec = s.sec)) ∧
    (i = .processorIdle p pri → t = { s with irq := t.irq }) ∧
    (i = .moderationTimer p → t = { s with irq := t.irq, elapsed := t.elapsed, pow := t.pow }) ∧
    (i = .doorbell off data en → t = { s with host := t.host, gafClock := t.gafClock, gafIdle := t.gafIdle } ∧
      t.host.cmds = s.host.cmds ∧ t.host.cpls = s.host.cpls) ∧
    (i ∈ [Instr.descriptorDecode, .commandDispatch slot, .completionRecord c] →
      t = { s with host := t.host, out := t.out }) ∧
    (i = .eventRecordWrite j → t = { s with host := t.host, out := t.out, irq := t.irq, ctx := t.ctx } ∧
      ((∀ c : CluIx, vget s.host.ovf c = []) → t.irq = s.irq ∧ t.ctx = s.ctx)) ∧
    (i = .sectorErase → t = { s with nv := t.nv, out := t.out }) ∧
    (i ∈ [Instr.avsStatusPoll st, .avsCurrentPoll cur, .pmbusPoll r] →
      t = { s with buses := t.buses, out := t.out, elapsed := t.elapsed, pow := t.pow })

/-- 13 R411, R415, 04 R126, R136, 06 R175, R182, 07 R245, 10 R331, 14 R449, R451: what the dispatch of each of these commands
leaves as it was: every kind of state that the command does not act on, and of the kinds it acts on every cluster, domain,
context, channel and stamp region beyond the unit it is addressed to, the rings, and the commands in the other slots. -/
def Obligations.DispatchLeavesOtherUnitsAlone : Prop :=
  ∀ (slot : Slot) (c : Cmd) (s t : State), let ds := s.sheet.reach c.unit; let mine := fun q : Slot => q = slot
    (Chosen s slot 0x01 c → exec (.fence slot) s = .next t → t = { s with host := t.host } ∧ OtherSlots s t mine) ∧
    (Chosen s slot 0x02 c → exec (.setTarget slot) s = .next t →
      t = { s with clu := t.clu, host := t.host, gafClock := t.gafClock, gafIdle := t.gafIdle } ∧ Beyond s t ds ∧
      OtherSlots s t mine) ∧
    (Chosen s slot 0x03 c → exec (.ramp slot) s = .next t →
      t = { s with clu := t.clu, host := t.host, gafClock := t.gafClock, gafIdle := t.gafIdle } ∧ Beyond s t ds ∧
      OtherSlots s t mine) ∧
    (Chosen s slot 0x04 c → exec (.domainOn slot) s = .next t →
      t = { s with clu := t.clu, dom := t.dom, host := t.host, gafClock := t.gafClock, gafIdle := t.gafIdle } ∧
      Beyond s t ds ∧ OtherSlots s t mine) ∧
    (Chosen s slot 0x05 c → exec (.domainOff slot) s = .next t →
      t = { s with clu := t.clu, dom := t.dom, host := t.host, out := t.out, gafClock := t.gafClock,
                   gafIdle := t.gafIdle } ∧ Beyond s t ds ∧
      OtherSlots s t (fun q => q = slot ∨ ∃ d ∈ ds, (s.dm d).cmd = some q.val ∨ ∃ p ∈ s.sheet.domHalves d,
        ∃ x ∈ (s.half p.1 p.2).ramp.chg, x.cmd = some q.val)) ∧
    (Chosen s slot 0x06 c → exec (.loadBank slot) s = .next t →
      t = { s with clu := t.clu, ch := t.ch, host := t.host, out := t.out, gafClock := t.gafClock,
                   gafIdle := t.gafIdle } ∧ OtherClus s t (s.sheet.bankClus c.unit) ∧ OtherSlots s t mine ∧
      ∀ k : Nat, k ∉ s.sheet.bankClus c.unit → t.chan k = s.chan k) ∧
    (Chosen s slot 0x07 c → exec (.swapBank slot) s = .next t →
      t = { s with clu := t.clu, host := t.host, gafClock := t.gafClock, gafIdle := t.gafIdle } ∧
      OtherClus s t (s.sheet.bankClus c.unit) ∧ OtherSlots s t mine) ∧
    (Chosen s slot 0x08 c → exec (.callSheetLoad slot) s = .next t →
      t = { s with host := t.host, out := t.out } ∧ OtherSlots s t mine) ∧
    (Chosen s slot 0x09 c → exec (.contextOpen slot) s = .next t →
      t = { s with host := t.host, out := t.out } ∧ OtherSlots s t mine) ∧
    (Chosen s slot 0x0B c → exec (.reelLoad slot) s = .next t →
      t = { s with ctx := t.ctx, host := t.host, out := t.out } ∧ OtherCtxs s t c.ctx ∧ OtherSlots s t mine) ∧
    (Chosen s slot 0x0C c → exec (.planArm slot) s = .next t →
      t = { s with ctx := t.ctx, clu := t.clu, ch := t.ch, host := t.host, gafClock := t.gafClock,
                   gafIdle := t.gafIdle } ∧
      OtherCtxs s t c.ctx ∧ OtherClus s t (s.ctxClus c.ctx) ∧ OtherSlots s t mine ∧
      ∀ k : Nat, k < 64 → k ∉ s.ctxClus c.ctx → t.chan k = s.chan k) ∧
    (Chosen s slot 0x0D c → exec (.planDisarm slot) s = .next t →
      t = { s with ctx := t.ctx, host := t.host } ∧ OtherCtxs s t c.ctx ∧
      OtherSlots s t (fun q => q = slot ∨ ∃ l ∈ (s.cx c.ctx).loads, l.slot = q.val)) ∧
    (Chosen s slot 0x0E c → exec (.creditConfig slot) s = .next t →
      t = { s with dom := t.dom, host := t.host } ∧ Beyond s t ds ∧ OtherSlots s t mine) ∧
    (Chosen s slot 0x0F c → exec (.capSet slot) s = .next t →
      t = { s with dom := t.dom, pow := t.pow, host := t.host } ∧ Beyond s t ds ∧ OtherSlots s t mine) ∧
    (Chosen s slot 0x12 c → exec (.marginProbe slot) s = .next t →
      t = { s with clu := t.clu, dom := t.dom, probes := t.probes, host := t.host, gafClock := t.gafClock,
                   gafIdle := t.gafIdle } ∧ OtherSlots s t mine ∧
      ∀ d : DomIx, uKind c.unit = .domain d → Beyond s t [d.val]) ∧
    (Chosen s slot 0x13 c → exec (.selfTest slot) s = .next t →
      t = { s with clu := t.clu, selft := t.selft, host := t.host, gafClock := t.gafClock, gafIdle := t.gafIdle } ∧
      OtherClus s t [c.selfOps.1, c.selfOps.2.1] ∧ OtherSlots s t mine) ∧
    (Chosen s slot 0x14 c → exec (.march slot) s = .next t → c.marchOps.2.2 = false ∨ s.flt.injects = [] →
      t = { s with clu := t.clu, dom := t.dom, msgs := t.msgs, bal := t.bal, march := t.march, sec := t.sec, host := t.host,
                   gafClock := t.gafClock, gafIdle := t.gafIdle } ∧ OtherClus s t [c.marchOps.2.1] ∧ OtherSlots s t mine) ∧
    (Chosen s slot 0x15 c → exec (.telemetryRead slot) s = .next t →
      t = { s with host := t.host, out := t.out } ∧ OtherSlots s t mine) ∧
    (Chosen s slot 0x16 c → exec (.nvRead slot) s = .next t → t = { s with host := t.host, out := t.out } ∧
      OtherSlots s t (fun q => q = slot ∨ ∃ x, s.cmd? q = some x ∧ x.opc = 0x16)) ∧
    (Chosen s slot 0x17 c → exec (.stampConfig slot) s = .next t →
      t = { s with stamps := t.stamps, host := t.host } ∧ OtherSlots s t mine ∧
      ∀ i : Fin 64, i.val ≠ c.opnd 2 0 6 → vget t.stamps i = vget s.stamps i)

/-- 06 R188, R207, R210, 07 R220, R225, 08 R254, R269, 10 R307, R318, 11 R350, R368, 12 R376, 14 R432, R445: the frames of the rows
of one unit that are timers, wakings, arrivals or steps of bring-up: each leaves every kind of state that it does not name as it
was, and a row of one cluster leaves the other clusters. -/
def Obligations.TimerRowsStayInTheirUnit : Prop :=
  ∀ (n : CluIx) (k : CellIx) (h : HalfIx) (d : DomIx) (c : CtxIx) (sl : Fin 65) (x y : Nat) (w : Word64) (sc : Scope)
      (l r : List Nat) (slot : Slot) (pid : PortId) (st : SecStore) (b : Bool) (id : AccId) (v : Word32) (be : BitVec 4)
      (z : SleepDom) (i : Instr) (s t : State), exec i s = .next t →
    (i ∈ [Instr.kick n k x, .gafferLoss n] → t = { s with clu := t.clu } ∧ OtherClus s t [n]) ∧
    (i = .kick n k x → ∀ j : CellIx, j ≠ k → t.cell n j = s.cell n j) ∧
    (i = .senseImplausible n k x → t = { s with clu := t.clu, ctx := t.ctx, host := t.host, irq := t.irq } ∧
      OtherClus s t [n]) ∧
    (i = .thermalSample n →
      t = { s with clu := t.clu, gafClock := t.gafClock, gafIdle := t.gafIdle, elapsed := t.elapsed,
                   pow := t.pow } ∧ OtherClus s t [n]) ∧
    (i ∈ [Instr.request n w, .digest n w] →
      t = { s with clu := t.clu, dom := t.dom, msgs := t.msgs, bal := t.bal, freeCtr := t.freeCtr,
                   gafClock := t.gafClock, gafIdle := t.gafIdle } ∧ OtherClus s t [n]) ∧
    (i = .borrowRetry n h → t = { s with clu := t.clu, dom := t.dom, msgs := t.msgs, elapsed := t.elapsed, pow := t.pow } ∧
      OtherClus s t [n]) ∧
    (i ∈ [Instr.swapEffect n, .swapTimeout n] →
      t = { s with clu := t.clu, host := t.host, elapsed := t.elapsed, pow := t.pow } ∧ ∀ q a : Nat,
                   (s.cl n).ctl.swap = some (q, a) → OtherClus s t (s.swapMates q)) ∧
    (i = .shotEndEvaluation c →
      t = { s with clu := t.clu, ctx := t.ctx, trigs := t.trigs, host := t.host, irq := t.irq, elapsed := t.elapsed,
                   pow := t.pow }) ∧
    (i ∈ [Instr.shotOnset c, .watermarkWrite c] →
      t = { s with clu := t.clu, ctx := t.ctx, host := t.host, irq := t.irq, out := t.out, elapsed := t.elapsed,
                   pow := t.pow }) ∧
    (i = .pingInterval → t = { s with slt := t.slt, out := t.out, elapsed := t.elapsed, pow := t.pow }) ∧
    (i = .pingTimeout → t = { s with slt := t.slt, elapsed := t.elapsed, pow := t.pow }) ∧
    (i = .timeTick → t = { s with out := t.out, freeCtr := t.freeCtr, elapsed := t.elapsed, pow := t.pow }) ∧
    (i = .joinTimeout → t = { s with slt := t.slt, host := t.host, elapsed := t.elapsed, pow := t.pow }) ∧
    (i = .slateReleaseInstant →
      t = { s with slt := t.slt, clu := t.clu, ctx := t.ctx, host := t.host, elapsed := t.elapsed, pow := t.pow }) ∧
    (i ∈ [Instr.externalThrottle x, .externalThrottleEnd, .ageingMeasurement n x y, .vfStepDown d] →
      t = { s with clu := t.clu, dom := t.dom, irq := t.irq, pins := t.pins, freeCtr := t.freeCtr, elapsed := t.elapsed,
                   pow := t.pow }) ∧
    (i ∈ [Instr.setpointSettled d, .settleTimeout d] →
      t = { s with clu := t.clu, dom := t.dom, host := t.host, probes := t.probes, out := t.out, elapsed := t.elapsed,
                   pow := t.pow }) ∧
    (i = .cellsModeOff d →
      t = { s with clu := t.clu, dom := t.dom, ctx := t.ctx, trigs := t.trigs, host := t.host, flt := t.flt,
                   irq := t.irq, probes := t.probes, elapsed := t.elapsed, pow := t.pow }) ∧
    (i = .waveSettleExpiry d →
      t = { s with dom := t.dom, host := t.host, boot := t.boot, elapsed := t.elapsed, pow := t.pow }) ∧
    (i = .scrub sl l r →
      t = { s with up := t.up, ch := t.ch, host := t.host, out := t.out, elapsed := t.elapsed, pow := t.pow }) ∧
    (i = .mergeExpiry x sc →
      t = { s with flt := t.flt, host := t.host, ctx := t.ctx, irq := t.irq, nv := t.nv, elapsed := t.elapsed,
                   pow := t.pow }) ∧
    (i = .correctedFaultClose x sc → t = { s with flt := t.flt, elapsed := t.elapsed, pow := t.pow }) ∧
    (i = .vcutRestore → t = { s with flt := t.flt, vin := t.vin, elapsed := t.elapsed, pow := t.pow }) ∧
    (i = .bringupVinReady l → t = { s with nv := t.nv, boot := t.boot }) ∧
    (i = .securePageFill st b → t = { s with clu := t.clu, sec := t.sec, boot := t.boot }) ∧
    (i = .ready → t = { s with slt := t.slt, boot := t.boot, pins := t.pins }) ∧
    (i = .blockResetRelease b → t = { s with boot := t.boot, trip := t.trip, pins := t.pins }) ∧
    (i = .hostResetRelease → t = { s with ch := t.ch, host := t.host, pins := t.pins }) ∧
    (i = .gafferSleep → t = { s with gafClock := t.gafClock, gafIdle := t.gafIdle, elapsed := t.elapsed, pow := t.pow }) ∧
    (i = .wake z → t = { s with clu := t.clu, gafClock := t.gafClock, gafIdle := t.gafIdle }) ∧
    (i = .wake (.clu n) → OtherClus s t [n]) ∧
    (i = .marginProbeDwell slot →
      t = { s with probes := t.probes, host := t.host, out := t.out, elapsed := t.elapsed, pow := t.pow }) ∧
    (i = .sectorEraseDone → t = { s with nv := t.nv, host := t.host, out := t.out }) ∧
    (i = .descriptorFetch → t = { s with host := t.host, out := t.out }) ∧
    (i = .writeReissue pid → t = { s with host := t.host, out := t.out, elapsed := t.elapsed, pow := t.pow }) ∧
    (i = .callSheetGo id v be →
      t = { s with host := t.host, sec := t.sec, out := t.out, boot := t.boot, gafClock := t.gafClock,
                   gafIdle := t.gafIdle, stalled := t.stalled }) ∧
    (i ∈ [Instr.ringEnable id v be, .ringDisable id v be, .eventRingEnable id v be, .eventRingDisable id v be] →
      t = { s with host := t.host, sec := t.sec, out := t.out, pins := t.pins, gafClock := t.gafClock,
                   gafIdle := t.gafIdle, stalled := t.stalled })
end

