-- ==== Sys2Proof/Laws/Access.lean ====
section
/-! SUPPORT. Containers and access paths: what is read back after a change, and what stays as it was. -/

namespace Sys2Proof.Machine
open Sys2Proof

/-! ## Vectors -/

theorem vget_eq {α : Type} [Inhabited α] {n : Nat} (v : Vector α n) {i : Nat} (h : i < n) : vget v i = v[i] := by
  unfold vget
  simp [List.getD_eq_getElem?_getD, h]

@[simp] theorem vget_vset_same {α : Type} [Inhabited α] {n : Nat} (v : Vector α n) (i : Nat) (x : α) (h : i < n) :
    vget (vset v i x) i = x := by
  rw [vget_eq _ h]; simp [vset]

@[simp] theorem vget_vset_ne {α : Type} [Inhabited α] {n : Nat} (v : Vector α n) (i j : Nat) (x : α) (h : i ≠ j) :
    vget (vset v i x) j = vget v j := by
  by_cases hj : j < n
  · rw [vget_eq _ hj, vget_eq _ hj]; simp [vset, h]
  · unfold vget
    simp [List.getD_eq_getElem?_getD, hj]

@[simp] theorem vget_vmod_same {α : Type} [Inhabited α] {n : Nat} (v : Vector α n) (i : Nat) (f : α → α) (h : i < n) :
    vget (vmod v i f) i = f (vget v i) := vget_vset_same v i _ h

@[simp] theorem vget_vmod_ne {α : Type} [Inhabited α] {n : Nat} (v : Vector α n) (i j : Nat) (f : α → α) (h : i ≠ j) :
    vget (vmod v i f) j = vget v j := vget_vset_ne v i j _ h

theorem vget_vmod_ge {α : Type} [Inhabited α] {n : Nat} (v : Vector α n) (i j : Nat) (f : α → α) (h : ¬ i < n) :
    vget (vmod v i f) j = vget v j := by
  by_cases e : i = j
  · subst e; unfold vmod vset vget; simp [h]
  · exact vget_vmod_ne v i j f e

@[simp] theorem vget_vmap {α β : Type} [Inhabited α] [Inhabited β] {n : Nat} (f : Nat → α → β) (v : Vector α n)
    (i : Nat) (h : i < n) : vget (vmap f v) i = f i (vget v i) := by
  rw [vget_eq _ h, vget_eq _ h]; simp [vmap]

@[simp] theorem vget_vrep {α : Type} [Inhabited α] (n : Nat) (x : α) (i : Nat) (h : i < n) : vget (vrep n x) i = x := by
  rw [vget_eq _ h]; simp [vrep]

/-! ## Sparse tables -/

theorem Tab.get?_put_same {α : Type} (t : Tab α) (i : Nat) (x : α) : Tab.get? (Tab.put t i x) i = some x := by
  induction t with
  | nil => simp [Tab.put, Tab.get?]
  | cons p t ih =>
    obtain ⟨k, y⟩ := p
    unfold Tab.put
    split
    · simp [Tab.get?]
    · split
      · simp [Tab.get?]
      · rename_i h1 h2
        have : k ≠ i := fun e => h2 e.symm
        simp [Tab.get?, this, ih]

theorem Tab.get?_put_ne {α : Type} (t : Tab α) (i j : Nat) (x : α) (h : i ≠ j) :
    Tab.get? (Tab.put t i x) j = Tab.get? t j := by
  induction t with
  | nil => simp [Tab.put, Tab.get?, h]
  | cons p t ih =>
    obtain ⟨k, y⟩ := p
    unfold Tab.put
    split
    · simp [Tab.get?, h]
    · split
      · rename_i _ h2
        subst h2
        simp [Tab.get?, h]
      · simp only [Tab.get?, ih]

theorem Tab.get?_del_ne {α : Type} (t : Tab α) (i j : Nat) (h : i ≠ j) : Tab.get? (Tab.del t i) j = Tab.get? t j := by
  induction t with
  | nil => rfl
  | cons p t ih =>
    obtain ⟨k, y⟩ := p
    unfold Tab.del
    split
    · rename_i h2; subst h2; simp [Tab.get?, h]
    · simp only [Tab.get?, ih]

theorem Tab.wfFrom_put {α : Type} (t : Tab α) (lo i : Nat) (x : α) (h : Tab.wfFrom lo t = true) (hl : lo ≤ i) :
    Tab.wfFrom lo (Tab.put t i x) = true := by
  induction t generalizing lo with
  | nil => simp [Tab.put, Tab.wfFrom, hl]
  | cons p t ih =>
    obtain ⟨k, y⟩ := p
    simp only [Tab.wfFrom, Bool.and_eq_true, decide_eq_true_eq] at h
    unfold Tab.put
    split
    · rename_i h1; simp [Tab.wfFrom, hl, h.2]; omega
    · split
      · rename_i h1 h2; subst h2; simp [Tab.wfFrom, h.1, h.2]
      · rename_i h1 h2
        have := ih (k + 1) h.2 (by omega)
        simp [Tab.wfFrom, h.1, this]

theorem Tab.wfFrom_mono {α : Type} (t : Tab α) (lo hi : Nat) (h : Tab.wfFrom hi t = true) (hl : lo ≤ hi) :
    Tab.wfFrom lo t = true := by
  cases t with
  | nil => rfl
  | cons p t =>
    obtain ⟨k, y⟩ := p
    simp only [Tab.wfFrom, Bool.and_eq_true, decide_eq_true_eq] at h ⊢
    exact ⟨by omega, h.2⟩

theorem Tab.wfFrom_del {α : Type} (t : Tab α) (lo i : Nat) (h : Tab.wfFrom lo t = true) :
    Tab.wfFrom lo (Tab.del t i) = true := by
  induction t generalizing lo with
  | nil => rfl
  | cons p t ih =>
    obtain ⟨k, y⟩ := p
    have h' := h
    simp only [Tab.wfFrom, Bool.and_eq_true, decide_eq_true_eq] at h
    unfold Tab.del
    split
    · exact Tab.wfFrom_mono t lo (k + 1) h.2 (by omega)
    · simp [Tab.wfFrom, h.1, ih (k + 1) h.2]

/-- Every operation on sparse tables keeps their canonical form. -/
theorem Tab.wf_put {α : Type} (t : Tab α) (i : Nat) (x : α) (h : t.wf = true) : Tab.wf (Tab.put t i x) = true :=
  Tab.wfFrom_put t 0 i x h (Nat.zero_le _)

theorem Tab.wf_del {α : Type} (t : Tab α) (i : Nat) (h : t.wf = true) : Tab.wf (Tab.del t i) = true :=
  Tab.wfFrom_del t 0 i h

theorem Tab.wf_mod {α : Type} (t : Tab α) (i : Nat) (f : α → α) (h : t.wf = true) : Tab.wf (Tab.mod t i f) = true := by
  unfold Tab.mod
  split
  · exact Tab.wf_put t i _ h
  · exact h

theorem Tab.wf_putN (t : Tab Nat) (i x : Nat) (h : t.wf = true) : Tab.wf (Tab.putN t i x) = true := by
  unfold Tab.putN
  split
  · exact Tab.wf_del t i h
  · exact Tab.wf_put t i x h

/-! ## Clusters, cells, halves, domains, contexts, channels -/

@[simp] theorem cl_modCl (s : State) (n : Nat) (f : Cluster → Cluster) (h : n < 64) : (s.modCl n f).cl n = f (s.cl n) :=
  vget_vmod_same _ _ _ h
@[simp] theorem cl_modCl_ne (s : State) (n m : Nat) (f : Cluster → Cluster) (h : n ≠ m) : (s.modCl n f).cl m = s.cl m :=
  vget_vmod_ne _ _ _ _ h
@[simp] theorem cell_modCell (s : State) (n k : Nat) (f : Cell → Cell) (h : n < 64) (hk : k < 16) :
    (s.modCell n k f).cell n k = f (s.cell n k) := by
  simp [State.modCell, State.cell, h, hk]
theorem cell_modCell_ne (s : State) (n k m j : Nat) (f : Cell → Cell) (h : n ≠ m ∨ k ≠ j) :
    (s.modCell n k f).cell m j = s.cell m j := by
  unfold State.modCell State.cell
  by_cases hn : n = m
  · subst hn
    have hk : k ≠ j := by simpa using h
    by_cases hl : n < 64
    · rw [cl_modCl _ _ _ hl]; exact vget_vmod_ne _ _ _ _ hk
    · have : (s.modCl n (fun c => { c with cells := vmod c.cells k f })).cl n = s.cl n := by
        unfold State.cl State.modCl vmod vset vget
        simp [hl]
      rw [this]
  · rw [cl_modCl_ne _ _ _ _ hn]
@[simp] theorem half_modHalf (s : State) (n h : Nat) (f : Half → Half) (hn : n < 64) (hh : h < 2) :
    (s.modHalf n h f).half n h = f (s.half n h) := by
  simp [State.modHalf, State.half, hn, hh]
@[simp] theorem dm_modDm (s : State) (d : Nat) (f : Domain → Domain) (h : d < 128) : (s.modDm d f).dm d = f (s.dm d) :=
  vget_vmod_same _ _ _ h
@[simp] theorem dm_modDm_ne (s : State) (d e : Nat) (f : Domain → Domain) (h : d ≠ e) : (s.modDm d f).dm e = s.dm e :=
  vget_vmod_ne _ _ _ _ h
@[simp] theorem cx_modCx (s : State) (c : Nat) (f : Context → Context) (h : c < 16) : (s.modCx c f).cx c = f (s.cx c) :=
  vget_vmod_same _ _ _ h
@[simp] theorem cx_modCx_ne (s : State) (c e : Nat) (f : Context → Context) (h : c ≠ e) : (s.modCx c f).cx e = s.cx e :=
  vget_vmod_ne _ _ _ _ h
@[simp] theorem chan_modChan (s : State) (c : Nat) (f : Channel → Channel) (h : c < 66) :
    (s.modChan c f).chan c = f (s.chan c) := vget_vmod_same _ _ _ h
@[simp] theorem chan_modChan_ne (s : State) (c e : Nat) (f : Channel → Channel) (h : c ≠ e) :
    (s.modChan c f).chan e = s.chan e := vget_vmod_ne _ _ _ _ h

end Sys2Proof.Machine
end

