-- ==== Sys2Proof/Laws/Calm.lean ====
section
/-! SUPPORT. The parts of State that only a few operations change: what every other operation leaves of them as it was. -/

namespace Sys2Proof.Machine
open Sys2Proof

/-- the parts of State that only a few operations change -/
structure Calm where
  pending : List Instr
  elapsed : Nat
  oscPhase : Nat
  vaon : Bool
  supply : Bool
  epoch : Word64
  csh : Option CallSheet
  assembled : Bool
  busAt : Nat
  trip : Bool
  tripClu : Nat
  thermtripN : Bool

/-- The parts of State that only a few operations change -/
def State.calm (s : State) : Calm := ⟨s.pending, s.elapsed, s.oscPhase, s.vaon, s.supply, s.epoch, s.csh,
  s.assembled, s.busAt, s.trip, s.tripClu, s.pins.thermtripN⟩

theorem State.calm_eta (s : State) : (⟨s.pending, s.elapsed, s.oscPhase, s.vaon, s.supply, s.epoch, s.csh,
  s.assembled, s.busAt, s.trip, s.tripClu, s.pins.thermtripN⟩ : Calm) = s.calm := rfl

theorem State.calm_mk x_pending x_out x_freeCtr x_elapsed x_oscPhase x_vaon x_supply x_epoch x_sync x_edgeKey x_clu
  x_dom x_csh x_cshNew x_assembled x_ctx x_cueQ x_cueDrop x_cueSkip x_up x_msgs x_reclaim x_ledgerErr x_bal x_busSeq
  x_busAt x_busDue x_trigs x_slt x_ch x_vrtCfg x_vrtCap x_host x_flt x_irq x_nv x_stamps x_probes x_selft x_march
  x_sec x_latches x_epochLo x_board x_buses x_legacy x_boot x_vin x_trip x_tripClu x_pins x_pow x_gafClock x_gafIdle
  x_stalled x_sramCorr x_secCorr x_retCorr : State.calm ⟨x_pending, x_out, x_freeCtr, x_elapsed, x_oscPhase, x_vaon,
  x_supply, x_epoch, x_sync, x_edgeKey, x_clu, x_dom, x_csh, x_cshNew, x_assembled, x_ctx, x_cueQ, x_cueDrop,
  x_cueSkip, x_up, x_msgs, x_reclaim, x_ledgerErr, x_bal, x_busSeq, x_busAt, x_busDue, x_trigs, x_slt, x_ch,
  x_vrtCfg, x_vrtCap, x_host, x_flt, x_irq, x_nv, x_stamps, x_probes, x_selft, x_march, x_sec, x_latches, x_epochLo,
  x_board, x_buses, x_legacy, x_boot, x_vin, x_trip, x_tripClu, x_pins, x_pow, x_gafClock, x_gafIdle, x_stalled,
  x_sramCorr, x_secCorr, x_retCorr⟩ = ⟨x_pending, x_elapsed, x_oscPhase, x_vaon, x_supply, x_epoch, x_csh,
  x_assembled, x_busAt, x_trip, x_tripClu, x_pins.thermtripN⟩ := rfl

theorem ite_calm (c : Prop) [Decidable c] (a b x : State) (ha : a.calm = x.calm) (hb : b.calm = x.calm) :
    (if c then a else b).calm = x.calm := by
  split <;> assumption

theorem each_calm {α : Type} (l : List α) (f : α → State → State) (h : ∀ a s, (f a s).calm = s.calm)
    (s : State) : (each l f s).calm = s.calm := by
  unfold each
  induction l generalizing s with
  | nil => rfl
  | cons a l ih => simp only [List.foldl_cons]; rw [ih, h]

theorem foldl_calm {α : Type} (l : List α) (f : State → α → State) (h : ∀ s a, (f s a).calm = s.calm)
    (s : State) : (l.foldl f s).calm = s.calm := by
  induction l generalizing s with
  | nil => rfl
  | cons a l ih => simp only [List.foldl_cons]; rw [ih, h]

theorem foldl2_calm {α β : Type} (l : List α) (f : β × State → α → β × State)
    (h : ∀ s a, (f s a).2.calm = s.2.calm) (s : β × State) : (l.foldl f s).2.calm = s.2.calm := by
  induction l generalizing s with
  | nil => rfl
  | cons a l ih => simp only [List.foldl_cons]; rw [ih, h]

/-! ## Operands -/

@[simp] theorem State.modCl_calm (s : State) (n : Nat) (f : Cluster → Cluster) : (State.modCl s n f).calm = s.calm
    := by
  unfold State.modCl
  repeat' (first
    | with_reducible rfl
    | (simp only [State.calm_mk, State.calm_eta])
    | split)

@[simp] theorem State.modCell_calm (s : State) (n : Nat) (k : Nat) (f : Cell → Cell) : (State.modCell s n k f).calm
    = s.calm := by
  unfold State.modCell
  repeat' (first
    | with_reducible rfl
    | (simp only [State.modCl_calm, State.calm_mk, State.calm_eta])
    | split)

@[simp] theorem State.modHalf_calm (s : State) (n : Nat) (h : Nat) (f : Half → Half) : (State.modHalf s n h f).calm
    = s.calm := by
  unfold State.modHalf
  repeat' (first
    | with_reducible rfl
    | (simp only [State.modCl_calm, State.calm_mk, State.calm_eta])
    | split)

@[simp] theorem State.modDm_calm (s : State) (d : Nat) (f : Domain → Domain) : (State.modDm s d f).calm = s.calm :=
    by
  unfold State.modDm
  repeat' (first
    | with_reducible rfl
    | (simp only [State.calm_mk, State.calm_eta])
    | split)

@[simp] theorem State.modCx_calm (s : State) (c : Nat) (f : Context → Context) : (State.modCx s c f).calm = s.calm
    := by
  unfold State.modCx
  repeat' (first
    | with_reducible rfl
    | (simp only [State.calm_mk, State.calm_eta])
    | split)

@[simp] theorem State.modChan_calm (s : State) (c : Nat) (f : Channel → Channel) : (State.modChan s c f).calm =
    s.calm := by
  unfold State.modChan
  repeat' (first
    | with_reducible rfl
    | (simp only [State.calm_mk, State.calm_eta])
    | split)

/-! ## Ops -/

@[simp] theorem State.put_calm (o : Out) (s : State) : (State.put o s).calm = s.calm := by
  unfold State.put
  repeat' (first
    | with_reducible rfl
    | (simp only [State.calm_mk, State.calm_eta])
    | split)

@[simp] theorem State.drawNat_calm (s : State) : (State.drawNat s).2.calm = s.calm := by
  unfold State.drawNat
  repeat' (first
    | with_reducible rfl
    | (simp only [State.calm_mk, State.calm_eta])
    | split)

@[simp] theorem State.drawInt_calm (s : State) : (State.drawInt s).2.calm = s.calm := by
  unfold State.drawInt
  repeat' (first
    | with_reducible rfl
    | (simp only [State.calm_mk, State.calm_eta])
    | split)

@[simp] theorem State.irqDo_calm (f : Irq → Irq) (s : State) : (State.irqDo f s).calm = s.calm := by
  unfold State.irqDo
  repeat' (first
    | with_reducible rfl
    | (simp only [State.calm_mk, State.calm_eta])
    | split)

@[simp] theorem State.fire_calm (i : Nat) (s : State) : (State.fire i s).calm = s.calm := by
  unfold State.fire
  repeat' (first
    | with_reducible rfl
    | (simp only [State.irqDo_calm, State.calm_mk, State.calm_eta])
    | split)

@[simp] theorem State.noticeLost_calm (n : Option (Nat × Nat)) (s : State) : (State.noticeLost n s).calm = s.calm :=
    by
  unfold State.noticeLost
  repeat' (first
    | with_reducible rfl
    | (simp only [State.modCx_calm, State.calm_mk, State.calm_eta])
    | with_reducible refine ite_calm _ _ _ _ ?_ ?_
    | split)

@[simp] theorem State.noticeAcked_calm (n : Option (Nat × Nat)) (s : State) : (State.noticeAcked n s).calm = s.calm
    := by
  unfold State.noticeAcked
  repeat' (first
    | with_reducible rfl
    | (simp only [State.modCx_calm, State.calm_mk, State.calm_eta])
    | with_reducible refine ite_calm _ _ _ _ ?_ ?_
    | split)

@[simp] theorem State.evLost_calm (j : Nat) (n : Option (Nat × Nat)) (s : State) : (State.evLost j n s).calm =
    s.calm := by
  unfold State.evLost
  repeat' (first
    | with_reducible rfl
    | (simp only [State.fire_calm, State.noticeLost_calm, State.calm_mk, State.calm_eta])
    | with_reducible refine ite_calm _ _ _ _ ?_ ?_
    | split)

@[simp] theorem State.ovfWrite_calm (c : Nat) (e : EvRec) (s : State) : (State.ovfWrite c e s).calm = s.calm := by
  unfold State.ovfWrite
  repeat' (first
    | with_reducible rfl
    | (simp only [State.calm_mk, State.calm_eta])
    | with_reducible refine ite_calm _ _ _ _ ?_ ?_
    | split)

@[simp] theorem State.freeHeld_calm (s : State) : (State.freeHeld s).calm = s.calm := by
  unfold State.freeHeld
  repeat' (first
    | with_reducible rfl
    | intro _
    | (simp only [State.calm_mk, State.calm_eta])
    | with_reducible refine (each_calm _ _ ?_ _).trans ?_
    | split)

@[simp] theorem State.postEvent_calm (ctx : Option Nat) (words : List Word64) (clu : Option Nat) (n : Option (Nat ×
    Nat)) (s : State) : (State.postEvent ctx words clu n s).calm = s.calm := by
  unfold State.postEvent
  repeat' (first
    | with_reducible rfl
    | (simp only [State.evLost_calm, State.fire_calm, State.noticeLost_calm, State.ovfWrite_calm, State.calm_mk,
      State.calm_eta])
    | with_reducible refine ite_calm _ _ _ _ ?_ ?_
    | split)

theorem State.refillBuf_calm : ∀ (f : Nat) (s : State), (State.refillBuf f s).calm = s.calm
  | 0, _ => rfl
  | f + 1, s => by
    unfold State.refillBuf
    split
    · dsimp only
      split
      · rfl
      · refine (State.refillBuf_calm f _).trans ?_
        split
        · exact State.evLost_calm _ _ _
        · rfl
    · rfl

@[simp] theorem State.parkAll_calm (s : State) : (State.parkAll s).calm = s.calm := by
  unfold State.parkAll
  repeat' (first
    | with_reducible rfl
    | (simp only [State.calm_mk, State.calm_eta])
    | split)

@[simp] theorem State.enterFatal_calm (s : State) : (State.enterFatal s).calm = s.calm := by
  unfold State.enterFatal
  repeat' (first
    | with_reducible rfl
    | intro _
    | (simp only [State.noticeLost_calm, State.parkAll_calm, State.calm_mk, State.calm_eta])
    | with_reducible refine ite_calm _ _ _ _ ?_ ?_
    | with_reducible refine (foldl_calm _ _ ?_ _).trans ?_
    | with_reducible refine (foldl2_calm _ _ ?_ _).trans ?_
    | split)

@[simp] theorem State.wakeGaf_calm (s : State) : (State.wakeGaf s).calm = s.calm := by
  unfold State.wakeGaf
  repeat' (first
    | with_reducible rfl
    | (simp only [State.calm_mk, State.calm_eta])
    | with_reducible refine ite_calm _ _ _ _ ?_ ?_
    | split)

@[simp] theorem State.wakeClu_calm (n : Nat) (s : State) : (State.wakeClu n s).calm = s.calm := by
  unfold State.wakeClu
  repeat' (first
    | with_reducible rfl
    | (simp only [State.modCl_calm, State.wakeGaf_calm, State.calm_mk, State.calm_eta])
    | with_reducible refine ite_calm _ _ _ _ ?_ ?_
    | split)

@[simp] theorem State.wakeAll_calm (s : State) : (State.wakeAll s).calm = s.calm := by
  unfold State.wakeAll
  repeat' (first
    | with_reducible rfl
    | intro _
    | (simp only [State.wakeClu_calm, State.wakeGaf_calm, State.calm_mk, State.calm_eta])
    | with_reducible refine (each_calm _ _ ?_ _).trans ?_
    | split)

@[simp] theorem State.collect_calm (r0 : Raise) (s : State) : (State.collect r0 s).calm = s.calm := by
  unfold State.collect
  repeat' (first
    | with_reducible rfl
    | (simp only [State.enterFatal_calm, State.fire_calm, State.wakeClu_calm, State.wakeGaf_calm, State.calm_mk,
      State.calm_eta])
    | with_reducible refine ite_calm _ _ _ _ ?_ ?_
    | split)

@[simp] theorem State.raise_calm (code : Nat) (sc : Scope) (detail : Nat) (s : State) : (State.raise code sc detail
    s).calm = s.calm := by
  unfold State.raise
  repeat' (first
    | with_reducible rfl
    | (simp only [State.collect_calm, State.calm_mk, State.calm_eta])
    | split)

@[simp] theorem State.raiseAcc_calm (code : Nat) (sc : Scope) (detail : Nat) (addr : Nat) (master : Nat) (acc : Nat)
    (inj : Bool) (s : State) : (State.raiseAcc code sc detail addr master acc inj s).calm = s.calm := by
  unfold State.raiseAcc
  repeat' (first
    | with_reducible rfl
    | (simp only [State.collect_calm, State.calm_mk, State.calm_eta])
    | split)

@[simp] theorem State.injected_calm (b : Bool) (f : State → State) (s : State) (hf : ∀ s, (f s).calm = s.calm) :
    (State.injected b f s).calm = s.calm := by
  unfold State.injected
  repeat' (first
    | with_reducible rfl
    | (simp only [hf, State.calm_mk, State.calm_eta])
    | with_reducible refine ite_calm _ _ _ _ ?_ ?_
    | split)

@[simp] theorem State.closeFlt_calm (p : Flt → Bool) (s : State) : (State.closeFlt p s).calm = s.calm := by
  unfold State.closeFlt
  repeat' (first
    | with_reducible rfl
    | (simp only [State.calm_mk, State.calm_eta])
    | split)

@[simp] theorem State.closeUnit_calm (u : Nat) (codes : List Nat) (s : State) : (State.closeUnit u codes s).calm =
    s.calm := by
  unfold State.closeUnit
  repeat' (first
    | with_reducible rfl
    | (simp only [State.closeFlt_calm, State.calm_mk, State.calm_eta])
    | split)

@[simp] theorem State.modCmd_calm (slot : Nat) (f : Cmd → Cmd) (s : State) : (State.modCmd slot f s).calm = s.calm
    := by
  unfold State.modCmd
  repeat' (first
    | with_reducible rfl
    | (simp only [State.calm_mk, State.calm_eta])
    | split)

@[simp] theorem State.completeAfter_calm (slot : Nat) (st : Status) (res : Nat) (after : List Nat) (s : State) :
    (State.completeAfter slot st res after s).calm = s.calm := by
  unfold State.completeAfter
  conv => zeta
  repeat' (first
    | with_reducible rfl
    | (simp only [State.put_calm, State.calm_mk, State.calm_eta])
    | with_reducible refine ite_calm _ _ _ _ ?_ ?_
    | split)

@[simp] theorem State.complete_calm (slot : Nat) (st : Status) (res : Nat) (s : State) : (State.complete slot st res
    s).calm = s.calm := by
  unfold State.complete
  repeat' (first
    | with_reducible rfl
    | (simp only [State.completeAfter_calm, State.calm_mk, State.calm_eta])
    | split)

@[simp] theorem State.completeOpt_calm (slot : Option Nat) (st : Status) (res : Nat) (s : State) :
    (State.completeOpt slot st res s).calm = s.calm := by
  unfold State.completeOpt
  repeat' (first
    | with_reducible rfl
    | (simp only [State.complete_calm, State.calm_mk, State.calm_eta])
    | split)

@[simp] theorem State.startRead_calm (addr : Nat) (bytes : Nat) (use : RdUse) (src : Nat) (s : State) :
    (State.startRead addr bytes use src s).calm = s.calm := by
  unfold State.startRead
  conv => zeta
  repeat' (first
    | with_reducible rfl
    | (simp only [State.put_calm, State.calm_mk, State.calm_eta])
    | split)

@[simp] theorem State.endRead_calm (id : Nat) (s : State) : (State.endRead id s).calm = s.calm := by
  unfold State.endRead
  conv => zeta
  repeat' (first
    | with_reducible rfl
    | (simp only [State.put_calm, State.calm_mk, State.calm_eta])
    | split)

@[simp] theorem State.startWrite_calm (addr : Nat) (words : List Word64) (use : WrUse) (s : State) :
    (State.startWrite addr words use s).calm = s.calm := by
  unfold State.startWrite
  repeat' (first
    | with_reducible rfl
    | (simp only [State.put_calm, State.calm_mk, State.calm_eta])
    | split)

theorem State.writeLong_calm : ∀ (f a : Nat) (w : List Word64) (u : Bool → WrUse) (s : State), (State.writeLong f a w u s).calm = s.calm
  | 0, _, _, _, _ => rfl
  | f + 1, a, w, u, s => by
    unfold State.writeLong
    dsimp only
    split
    · exact State.startWrite_calm _ _ _ _
    · exact (State.writeLong_calm f _ _ u _).trans (State.startWrite_calm _ _ _ _)

@[simp] theorem State.endWrite_calm (id : Nat) (s : State) : (State.endWrite id s).calm = s.calm := by
  unfold State.endWrite
  repeat' (first
    | with_reducible rfl
    | (simp only [State.put_calm, State.calm_mk, State.calm_eta])
    | split)

@[simp] theorem State.writeIndex_calm (ring : Nat) (v : Word32) (s : State) : (State.writeIndex ring v s).calm =
    s.calm := by
  unfold State.writeIndex
  repeat' (first
    | with_reducible rfl
    | (simp only [State.startWrite_calm, State.calm_mk, State.calm_eta])
    | with_reducible refine ite_calm _ _ _ _ ?_ ?_
    | split)

/-! ## Throttle -/

@[simp] theorem State.retarget_calm (d : Nat) (s : State) : (State.retarget d s).calm = s.calm := by
  unfold State.retarget
  repeat' (first
    | with_reducible rfl
    | intro _
    | (simp only [State.modHalf_calm, State.calm_mk, State.calm_eta])
    | with_reducible refine (each_calm _ _ ?_ _).trans ?_
    | split)

@[simp] theorem State.thrDom_calm (d : Nat) (s : State) : (State.thrDom d s).calm = s.calm := by
  unfold State.thrDom
  repeat' (first
    | with_reducible rfl
    | intro _
    | (simp only [State.fire_calm, State.modDm_calm, State.retarget_calm, State.calm_mk, State.calm_eta])
    | with_reducible refine ite_calm _ _ _ _ ?_ ?_
    | with_reducible refine (foldl_calm _ _ ?_ _).trans ?_
    | with_reducible refine (foldl2_calm _ _ ?_ _).trans ?_
    | split)

@[simp] theorem State.driveBuses_calm (s : State) : (State.driveBuses s).calm = s.calm := by
  unfold State.driveBuses
  repeat' (first
    | with_reducible rfl
    | intro _
    | (simp only [State.calm_mk, State.calm_eta])
    | with_reducible refine ite_calm _ _ _ _ ?_ ?_
    | with_reducible refine (foldl_calm _ _ ?_ _).trans ?_
    | with_reducible refine (foldl2_calm _ _ ?_ _).trans ?_
    | split)

@[simp] theorem State.throttle_calm (ds : List Nat) (s : State) : (State.throttle ds s).calm = s.calm := by
  unfold State.throttle
  repeat' (first
    | with_reducible rfl
    | intro _
    | (simp only [State.driveBuses_calm, State.thrDom_calm, State.calm_mk, State.calm_eta])
    | with_reducible refine (each_calm _ _ ?_ _).trans ?_
    | split)

@[simp] theorem State.throttleAll_calm (s : State) : (State.throttleAll s).calm = s.calm := by
  unfold State.throttleAll
  repeat' (first
    | with_reducible rfl
    | (simp only [State.throttle_calm, State.calm_mk, State.calm_eta])
    | split)

@[simp] theorem State.vinRead_calm (mv : Nat) (s : State) : (State.vinRead mv s).calm = s.calm := by
  unfold State.vinRead
  repeat' (first
    | with_reducible rfl
    | (simp only [State.calm_mk, State.calm_eta])
    | with_reducible refine ite_calm _ _ _ _ ?_ ?_
    | split)

@[simp] theorem State.vinJudge_calm (s : State) : (State.vinJudge s).calm = s.calm := by
  unfold State.vinJudge
  repeat' (first
    | with_reducible rfl
    | (simp only [State.vinRead_calm, State.calm_mk, State.calm_eta])
    | split)

/-! ## Credits -/

@[simp] theorem State.balAdd_calm (n : Nat) (h : Nat) (x : Int) (s : State) : (State.balAdd n h x s).calm = s.calm
    := by
  unfold State.balAdd
  repeat' (first
    | with_reducible rfl
    | (simp only [State.calm_mk, State.calm_eta])
    | split)

@[simp] theorem State.send_calm (m : LMsg) (s : State) : (State.send m s).calm = s.calm := by
  unfold State.send
  repeat' (first
    | with_reducible rfl
    | (simp only [State.calm_mk, State.calm_eta])
    | with_reducible refine ite_calm _ _ _ _ ?_ ?_
    | split)

@[simp] theorem State.sendUp_calm (op : Nat) (n : Nat) (h : Nat) (d : Nat) (amt : Nat) (s : State) : (State.sendUp
    op n h d amt s).calm = s.calm := by
  unfold State.sendUp
  repeat' (first
    | with_reducible rfl
    | (simp only [State.balAdd_calm, State.calm_mk, State.calm_eta])
    | with_reducible refine ite_calm _ _ _ _ ?_ ?_
    | split)

@[simp] theorem State.accrue_calm (n : Nat) (s : State) : (State.accrue n s).calm = s.calm := by
  unfold State.accrue
  repeat' (first
    | with_reducible rfl
    | intro _
    | (simp only [State.modCl_calm, State.modHalf_calm, State.calm_mk, State.calm_eta])
    | with_reducible refine ite_calm _ _ _ _ ?_ ?_
    | with_reducible refine (each_calm _ _ ?_ _).trans ?_
    | split)

@[simp] theorem State.borrow_calm (n : Nat) (h : Nat) (s : State) : (State.borrow n h s).calm = s.calm := by
  unfold State.borrow
  repeat' (first
    | with_reducible rfl
    | (simp only [State.modHalf_calm, State.send_calm, State.calm_mk, State.calm_eta])
    | with_reducible refine ite_calm _ _ _ _ ?_ ?_
    | split)

@[simp] theorem State.examine_calm (n : Nat) (r : Nat) (s : State) : (State.examine n r s).2.calm = s.calm := by
  unfold State.examine
  repeat' (first
    | with_reducible rfl
    | (simp only [State.modCl_calm, State.put_calm, State.calm_mk, State.calm_eta])
    | with_reducible refine ite_calm _ _ _ _ ?_ ?_
    | split)

theorem State.examineAll_calm (n : Nat) : ∀ (k : Nat) (l : List Nat) (last : Option Nat) (s : State), (State.examineAll n k l last s).2.calm = s.calm
  | _, [], _, _ => by unfold State.examineAll; rfl
  | 0, _ :: _, _, _ => by unfold State.examineAll; rfl
  | k + 1, r :: t, last, s => by
    unfold State.examineAll
    dsimp only
    split
    · exact (State.examineAll_calm n k t _ _).trans (State.examine_calm n r s)
    · exact (State.examineAll_calm n (k + 1) t _ _).trans (State.examine_calm n r s)

@[simp] theorem State.round_calm (n : Nat) (s : State) : (State.round n s).calm = s.calm := by
  unfold State.round
  repeat' (first
    | with_reducible rfl
    | intro _
    | (simp only [State.examineAll_calm, State.accrue_calm, State.borrow_calm, State.modCl_calm, State.calm_mk,
      State.calm_eta])
    | with_reducible refine ite_calm _ _ _ _ ?_ ?_
    | with_reducible refine (each_calm _ _ ?_ _).trans ?_
    | split)

@[simp] theorem State.badWord_calm (n : Nat) (s : State) : (State.badWord n s).calm = s.calm := by
  unfold State.badWord
  repeat' (first
    | with_reducible rfl
    | (simp only [State.modCl_calm, State.calm_mk, State.calm_eta])
    | split)

@[simp] theorem State.request_calm (n : Nat) (r : Nat) (amt : Nat) (filler : Bool) (s : State) : (State.request n r
    amt filler s).calm = s.calm := by
  unfold State.request
  repeat' (first
    | with_reducible rfl
    | (simp only [State.badWord_calm, State.modCl_calm, State.put_calm, State.wakeClu_calm, State.calm_mk,
      State.calm_eta])
    | with_reducible refine ite_calm _ _ _ _ ?_ ?_
    | split)

@[simp] theorem State.applyReturn_calm (n : Nat) (h : Nat) (amt : Nat) (s : State) : (State.applyReturn n h amt
    s).calm = s.calm := by
  unfold State.applyReturn
  repeat' (first
    | with_reducible rfl
    | (simp only [State.modHalf_calm, State.sendUp_calm, State.calm_mk, State.calm_eta])
    | with_reducible refine ite_calm _ _ _ _ ?_ ?_
    | split)

@[simp] theorem State.returned_calm (n : Nat) (r : Nat) (amt : Nat) (slot : Nat) (gen : Nat) (s : State) :
    (State.returned n r amt slot gen s).calm = s.calm := by
  unfold State.returned
  repeat' (first
    | with_reducible rfl
    | (simp only [State.applyReturn_calm, State.modCl_calm, State.put_calm, State.calm_mk, State.calm_eta])
    | with_reducible refine ite_calm _ _ _ _ ?_ ?_
    | split)

@[simp] theorem State.digestIn_calm (n : Nat) (w : Word64) (s : State) : (State.digestIn n w s).calm = s.calm := by
  unfold State.digestIn
  repeat' (first
    | with_reducible rfl
    | (simp only [State.modCl_calm, State.calm_mk, State.calm_eta])
    | with_reducible refine ite_calm _ _ _ _ ?_ ?_
    | split)

@[simp] theorem State.upWord_calm (n : Nat) (w : Word64) (s : State) : (State.upWord n w s).calm = s.calm := by
  unfold State.upWord
  repeat' (first
    | with_reducible rfl
    | (simp only [State.badWord_calm, State.digestIn_calm, State.request_calm, State.returned_calm, State.calm_mk,
      State.calm_eta])
    | with_reducible refine ite_calm _ _ _ _ ?_ ?_
    | split)

@[simp] theorem State.reclaimHost_calm (n : Nat) (s : State) : (State.reclaimHost n s).calm = s.calm := by
  unfold State.reclaimHost
  repeat' (first
    | with_reducible rfl
    | intro _
    | (simp only [State.modCl_calm, State.modHalf_calm, State.calm_mk, State.calm_eta])
    | with_reducible refine (each_calm _ _ ?_ _).trans ?_
    | split)

@[simp] theorem State.revokeAll_calm (n : Nat) (s : State) : (State.revokeAll n s).calm = s.calm := by
  unfold State.revokeAll
  repeat' (first
    | with_reducible rfl
    | intro _
    | (simp only [State.put_calm, State.calm_mk, State.calm_eta])
    | with_reducible refine (each_calm _ _ ?_ _).trans ?_
    | split)

@[simp] theorem State.restoreLedger_calm (n : Nat) (s : State) : (State.restoreLedger n s).calm = s.calm := by
  unfold State.restoreLedger
  repeat' (first
    | with_reducible rfl
    | intro _
    | (simp only [State.modCl_calm, State.modHalf_calm, State.calm_mk, State.calm_eta])
    | with_reducible refine (each_calm _ _ ?_ _).trans ?_
    | split)

@[simp] theorem State.rezero_calm (n : Nat) (d : Nat) (s : State) : (State.rezero n d s).calm = s.calm := by
  unfold State.rezero
  repeat' (first
    | with_reducible rfl
    | intro _
    | (simp only [State.modCl_calm, State.modDm_calm, State.calm_mk, State.calm_eta])
    | with_reducible refine ite_calm _ _ _ _ ?_ ?_
    | with_reducible refine (foldl_calm _ _ ?_ _).trans ?_
    | with_reducible refine (foldl2_calm _ _ ?_ _).trans ?_
    | split)

@[simp] theorem State.rederive_calm (n : Nat) (d : Nat) (s : State) : (State.rederive n d s).calm = s.calm := by
  unfold State.rederive
  repeat' (first
    | with_reducible rfl
    | intro _
    | (simp only [State.put_calm, State.rezero_calm, State.calm_mk, State.calm_eta])
    | with_reducible refine (each_calm _ _ ?_ _).trans ?_
    | split)

@[simp] theorem State.fillZero_calm (n : Nat) (h : Nat) (s : State) : (State.fillZero n h s).calm = s.calm := by
  unfold State.fillZero
  repeat' (first
    | with_reducible rfl
    | intro _
    | (simp only [State.modCl_calm, State.put_calm, State.calm_mk, State.calm_eta])
    | with_reducible refine (each_calm _ _ ?_ _).trans ?_
    | split)

@[simp] theorem State.brollStop_calm (n : Nat) (h : Nat) (s : State) : (State.brollStop n h s).calm = s.calm := by
  unfold State.brollStop
  repeat' (first
    | with_reducible rfl
    | (simp only [State.fillZero_calm, State.modCl_calm, State.modHalf_calm, State.put_calm, State.calm_mk,
      State.calm_eta])
    | with_reducible refine ite_calm _ _ _ _ ?_ ?_
    | split)

@[simp] theorem State.brollEnd_calm (n : Nat) (h : Nat) (s : State) : (State.brollEnd n h s).calm = s.calm := by
  unfold State.brollEnd
  repeat' (first
    | with_reducible rfl
    | (simp only [State.brollStop_calm, State.modHalf_calm, State.calm_mk, State.calm_eta])
    | with_reducible refine ite_calm _ _ _ _ ?_ ?_
    | split)

@[simp] theorem State.ledgerLost_calm (n : Nat) (ds : List Nat) (s : State) : (State.ledgerLost n ds s).calm =
    s.calm := by
  unfold State.ledgerLost
  repeat' (first
    | with_reducible rfl
    | intro _
    | (simp only [State.rederive_calm, State.calm_mk, State.calm_eta])
    | with_reducible refine (each_calm _ _ ?_ _).trans ?_
    | split)

/-! ## Predictor -/

@[simp] theorem State.predHalf_calm (n : Nat) (h : Nat) (s : State) : (State.predHalf n h s).calm = s.calm := by
  unfold State.predHalf
  repeat' (first
    | with_reducible rfl
    | intro _
    | (simp only [State.modCl_calm, State.modHalf_calm, State.raise_calm, State.calm_mk, State.calm_eta])
    | with_reducible refine ite_calm _ _ _ _ ?_ ?_
    | with_reducible refine (each_calm _ _ ?_ _).trans ?_
    | with_reducible refine (foldl_calm _ _ ?_ _).trans ?_
    | with_reducible refine (foldl2_calm _ _ ?_ _).trans ?_
    | split)

@[simp] theorem State.forecastHalf_calm (n : Nat) (h : Nat) (s : State) : (State.forecastHalf n h s).calm = s.calm
    := by
  unfold State.forecastHalf
  repeat' (first
    | with_reducible rfl
    | (simp only [State.modCl_calm, State.modHalf_calm, State.calm_mk, State.calm_eta])
    | with_reducible refine ite_calm _ _ _ _ ?_ ?_
    | split)

@[simp] theorem State.predict_calm (n : Nat) (s : State) : (State.predict n s).calm = s.calm := by
  unfold State.predict
  repeat' (first
    | with_reducible rfl
    | intro _
    | (simp only [State.modCl_calm, State.predHalf_calm, State.calm_mk, State.calm_eta])
    | with_reducible refine (each_calm _ _ ?_ _).trans ?_
    | split)

/-! ## Control -/

@[simp] theorem State.endPart_calm (slot : Nat) (d : Nat) (st : Status) (s : State) : (State.endPart slot d st
    s).calm = s.calm := by
  unfold State.endPart
  repeat' (first
    | with_reducible rfl
    | (simp only [State.complete_calm, State.modCmd_calm, State.calm_mk, State.calm_eta])
    | with_reducible refine ite_calm _ _ _ _ ?_ ?_
    | split)

@[simp] theorem State.endPartWith_calm (slot : Nat) (d : Nat) (st : Status) (code : Nat) (s : State) :
    (State.endPartWith slot d st code s).calm = s.calm := by
  unfold State.endPartWith
  repeat' (first
    | with_reducible rfl
    | (simp only [State.endPart_calm, State.modCmd_calm, State.calm_mk, State.calm_eta])
    | split)

@[simp] theorem State.endParts_calm (slot : Nat) (st : Status) (s : State) : (State.endParts slot st s).calm =
    s.calm := by
  unfold State.endParts
  repeat' (first
    | with_reducible rfl
    | intro _
    | (simp only [State.endPart_calm, State.calm_mk, State.calm_eta])
    | with_reducible refine (each_calm _ _ ?_ _).trans ?_
    | split)

@[simp] theorem State.placeChange_calm (n : Nat) (h : Nat) (ch : Change) (s : State) : (State.placeChange n h ch
    s).calm = s.calm := by
  unfold State.placeChange
  repeat' (first
    | with_reducible rfl
    | (simp only [State.modHalf_calm, State.calm_mk, State.calm_eta])
    | split)

@[simp] theorem State.placeDom_calm (d : Nat) (ch : Change) (s : State) : (State.placeDom d ch s).calm = s.calm :=
    by
  unfold State.placeDom
  repeat' (first
    | with_reducible rfl
    | intro _
    | (simp only [State.placeChange_calm, State.calm_mk, State.calm_eta])
    | with_reducible refine (each_calm _ _ ?_ _).trans ?_
    | split)

@[simp] theorem State.supersedes_calm (old : Nat) (new : Option Nat) (s : State) : (State.supersedes old new s).calm
    = s.calm := by
  unfold State.supersedes
  repeat' (first
    | with_reducible rfl
    | (simp only [State.modCmd_calm, State.calm_mk, State.calm_eta])
    | with_reducible refine ite_calm _ _ _ _ ?_ ?_
    | split)

@[simp] theorem State.applyChange_calm (n : Nat) (h : Nat) (ch : Change) (s : State) : (State.applyChange n h ch
    s).calm = s.calm := by
  unfold State.applyChange
  repeat' (first
    | with_reducible rfl
    | (simp only [State.endPart_calm, State.modDm_calm, State.modHalf_calm, State.supersedes_calm, State.calm_mk,
      State.calm_eta])
    | with_reducible refine ite_calm _ _ _ _ ?_ ?_
    | split)

@[simp] theorem State.applyChanges_calm (n : Nat) (h : Nat) (s : State) : (State.applyChanges n h s).2.calm = s.calm
    := by
  unfold State.applyChanges
  repeat' (first
    | with_reducible rfl
    | intro _
    | (simp only [State.applyChange_calm, State.modHalf_calm, State.calm_mk, State.calm_eta])
    | with_reducible refine (each_calm _ _ ?_ _).trans ?_
    | split)

@[simp] theorem State.moveRamp_calm (n : Nat) (h : Nat) (s : State) : (State.moveRamp n h s).calm = s.calm := by
  unfold State.moveRamp
  repeat' (first
    | with_reducible rfl
    | (simp only [State.modHalf_calm, State.calm_mk, State.calm_eta])
    | with_reducible refine ite_calm _ _ _ _ ?_ ?_
    | split)

@[simp] theorem State.movePrep_calm (n : Nat) (h : Nat) (s : State) : (State.movePrep n h s).calm = s.calm := by
  unfold State.movePrep
  repeat' (first
    | with_reducible rfl
    | intro _
    | (simp only [State.accrue_calm, State.modHalf_calm, State.calm_mk, State.calm_eta])
    | with_reducible refine ite_calm _ _ _ _ ?_ ?_
    | with_reducible refine (foldl_calm _ _ ?_ _).trans ?_
    | with_reducible refine (foldl2_calm _ _ ?_ _).trans ?_
    | split)

@[simp] theorem State.withdraw_calm (n : Nat) (h : Nat) (s : State) : (State.withdraw n h s).calm = s.calm := by
  unfold State.withdraw
  repeat' (first
    | with_reducible rfl
    | (simp only [State.accrue_calm, State.modHalf_calm, State.calm_mk, State.calm_eta])
    | with_reducible refine ite_calm _ _ _ _ ?_ ?_
    | split)

@[simp] theorem State.moveBroll_calm (n : Nat) (h : Nat) (s : State) : (State.moveBroll n h s).calm = s.calm := by
  unfold State.moveBroll
  repeat' (first
    | with_reducible rfl
    | (simp only [State.accrue_calm, State.brollStop_calm, State.modCl_calm, State.modHalf_calm, State.calm_mk,
      State.calm_eta])
    | with_reducible refine ite_calm _ _ _ _ ?_ ?_
    | split)

@[simp] theorem State.moveFill_calm (n : Nat) (h : Nat) (s : State) : (State.moveFill n h s).calm = s.calm := by
  unfold State.moveFill
  repeat' (first
    | with_reducible rfl
    | intro _
    | (simp only [State.modCl_calm, State.put_calm, State.calm_mk, State.calm_eta])
    | with_reducible refine ite_calm _ _ _ _ ?_ ?_
    | with_reducible refine (each_calm _ _ ?_ _).trans ?_
    | split)

@[simp] theorem State.thErrs_calm (n : Nat) (s : State) : (State.thErrs n s).calm = s.calm := by
  unfold State.thErrs
  repeat' (first
    | with_reducible rfl
    | (simp only [State.modCl_calm, State.calm_mk, State.calm_eta])
    | with_reducible refine ite_calm _ _ _ _ ?_ ?_
    | split)

@[simp] theorem State.sampleHalf_calm (n : Nat) (h : Nat) (lcal : Nat) (moving : Bool) (mism : BitVec 16) (s :
    State) : (State.sampleHalf n h lcal moving mism s).calm = s.calm := by
  unfold State.sampleHalf
  repeat' (first
    | with_reducible rfl
    | intro _
    | (simp only [State.modCl_calm, State.modHalf_calm, State.put_calm, State.raise_calm, State.calm_mk, State.calm_eta])
    | with_reducible refine ite_calm _ _ _ _ ?_ ?_
    | with_reducible refine (each_calm _ _ ?_ _).trans ?_
    | with_reducible refine (foldl_calm _ _ ?_ _).trans ?_
    | with_reducible refine (foldl2_calm _ _ ?_ _).trans ?_
    | split)

@[simp] theorem State.cellsSample_calm (n : Nat) (s : State) : (State.cellsSample n s).calm = s.calm := by
  unfold State.cellsSample
  repeat' (first
    | with_reducible rfl
    | (simp only [State.modCl_calm, State.calm_mk, State.calm_eta])
    | with_reducible refine ite_calm _ _ _ _ ?_ ?_
    | split)

@[simp] theorem State.creditSamples_calm (n : Nat) (s : State) : (State.creditSamples n s).calm = s.calm := by
  unfold State.creditSamples
  repeat' (first
    | with_reducible rfl
    | intro _
    | (simp only [State.modCl_calm, State.calm_mk, State.calm_eta])
    | with_reducible refine (foldl_calm _ _ ?_ _).trans ?_
    | with_reducible refine (foldl2_calm _ _ ?_ _).trans ?_
    | split)

@[simp] theorem State.decayRc_calm (n : Nat) (s : State) : (State.decayRc n s).calm = s.calm := by
  unfold State.decayRc
  repeat' (first
    | with_reducible rfl
    | intro _
    | (simp only [State.modHalf_calm, State.calm_mk, State.calm_eta])
    | with_reducible refine (each_calm _ _ ?_ _).trans ?_
    | split)

@[simp] theorem State.sawSample_calm (n : Nat) (s : State) : (State.sawSample n s).calm = s.calm := by
  unfold State.sawSample
  repeat' (first
    | with_reducible rfl
    | intro _
    | (simp only [State.modDm_calm, State.calm_mk, State.calm_eta])
    | with_reducible refine (each_calm _ _ ?_ _).trans ?_
    | split)

@[simp] theorem State.halfSample_calm (n : Nat) (h : Nat) (mism : BitVec 16) (s : State) : (State.halfSample n h
    mism s).calm = s.calm := by
  unfold State.halfSample
  repeat' (first
    | with_reducible rfl
    | (simp only [State.applyChanges_calm, State.moveBroll_calm, State.moveFill_calm, State.movePrep_calm,
      State.moveRamp_calm, State.sampleHalf_calm, State.calm_mk, State.calm_eta])
    | with_reducible refine ite_calm _ _ _ _ ?_ ?_
    | split)

@[simp] theorem State.parkReports_calm (n : Nat) (s : State) : (State.parkReports n s).calm = s.calm := by
  unfold State.parkReports
  repeat' (first
    | with_reducible rfl
    | (simp only [State.modCl_calm, State.calm_mk, State.calm_eta])
    | with_reducible refine ite_calm _ _ _ _ ?_ ?_
    | split)

/-! ## Probe -/

@[simp] theorem State.probeRamp_calm (p : Probe) (code : Nat) (s : State) : (State.probeRamp p code s).calm = s.calm
    := by
  unfold State.probeRamp
  repeat' (first
    | with_reducible rfl
    | (simp only [State.placeDom_calm, State.put_calm, State.calm_mk, State.calm_eta])
    | split)

@[simp] theorem State.setProbe_calm (p : Probe) (s : State) : (State.setProbe p s).calm = s.calm := by
  unfold State.setProbe
  repeat' (first
    | with_reducible rfl
    | (simp only [State.put_calm, State.calm_mk, State.calm_eta])
    | split)

@[simp] theorem State.endProbe_calm (slot : Nat) (s : State) : (State.endProbe slot s).calm = s.calm := by
  unfold State.endProbe
  repeat' (first
    | with_reducible rfl
    | (simp only [State.modDm_calm, State.calm_mk, State.calm_eta])
    | split)

@[simp] theorem State.probeRestore_calm (slot : Nat) (stop : Nat) (s : State) : (State.probeRestore slot stop
    s).calm = s.calm := by
  unfold State.probeRestore
  repeat' (first
    | with_reducible rfl
    | (simp only [State.probeRamp_calm, State.calm_mk, State.calm_eta])
    | with_reducible refine ite_calm _ _ _ _ ?_ ?_
    | split)

@[simp] theorem State.probeStep_calm (slot : Nat) (k : Nat) (s : State) : (State.probeStep slot k s).calm = s.calm
    := by
  unfold State.probeStep
  repeat' (first
    | with_reducible rfl
    | (simp only [State.probeRamp_calm, State.probeRestore_calm, State.calm_mk, State.calm_eta])
    | with_reducible refine ite_calm _ _ _ _ ?_ ?_
    | split)

@[simp] theorem State.probeCheck_calm (s : State) : (State.probeCheck s).calm = s.calm := by
  unfold State.probeCheck
  repeat' (first
    | with_reducible rfl
    | intro _
    | (simp only [State.probeRestore_calm, State.setProbe_calm, State.calm_mk, State.calm_eta])
    | with_reducible refine ite_calm _ _ _ _ ?_ ?_
    | with_reducible refine (each_calm _ _ ?_ _).trans ?_
    | split)

@[simp] theorem State.probeSettled_calm (d : Nat) (s : State) : (State.probeSettled d s).calm = s.calm := by
  unfold State.probeSettled
  repeat' (first
    | with_reducible rfl
    | intro _
    | (simp only [State.setProbe_calm, State.startWrite_calm, State.calm_mk, State.calm_eta])
    | with_reducible refine ite_calm _ _ _ _ ?_ ?_
    | with_reducible refine (each_calm _ _ ?_ _).trans ?_
    | split)

@[simp] theorem State.probeTimeout_calm (d : Nat) (s : State) : (State.probeTimeout d s).calm = s.calm := by
  unfold State.probeTimeout
  repeat' (first
    | with_reducible rfl
    | intro _
    | (simp only [State.probeRestore_calm, State.calm_mk, State.calm_eta])
    | with_reducible refine ite_calm _ _ _ _ ?_ ?_
    | with_reducible refine (each_calm _ _ ?_ _).trans ?_
    | split)

@[simp] theorem State.probeAcked_calm (slot : Nat) (last : Bool) (s : State) : (State.probeAcked slot last s).calm =
    s.calm := by
  unfold State.probeAcked
  repeat' (first
    | with_reducible rfl
    | (simp only [State.complete_calm, State.endProbe_calm, State.setProbe_calm, State.calm_mk, State.calm_eta])
    | with_reducible refine ite_calm _ _ _ _ ?_ ?_
    | split)

@[simp] theorem State.probeVerdict_calm (slot : Nat) (w : Option Word64) (s : State) : (State.probeVerdict slot w
    s).calm = s.calm := by
  unfold State.probeVerdict
  repeat' (first
    | with_reducible rfl
    | (simp only [State.probeRestore_calm, State.probeStep_calm, State.setProbe_calm, State.calm_mk, State.calm_eta])
    | with_reducible refine ite_calm _ _ _ _ ?_ ?_
    | split)

/-! ## Retake -/

@[simp] theorem State.modPlayed_calm (c : Nat) (seq : Nat) (f : Played → Played) (s : State) : (State.modPlayed c
    seq f s).calm = s.calm := by
  unfold State.modPlayed
  repeat' (first
    | with_reducible rfl
    | (simp only [State.modCx_calm, State.calm_mk, State.calm_eta])
    | with_reducible refine ite_calm _ _ _ _ ?_ ?_
    | split)

@[simp] theorem State.issue_calm (c : Nat) (seq : Nat) (cause : Nat) (unit : Nat) (t0 : Nat) (t1 : Nat) (s : State)
    : (State.issue c seq cause unit t0 t1 s).calm = s.calm := by
  unfold State.issue
  repeat' (first
    | with_reducible rfl
    | (simp only [State.modCx_calm, State.modPlayed_calm, State.postEvent_calm, State.calm_mk, State.calm_eta])
    | with_reducible refine ite_calm _ _ _ _ ?_ ?_
    | split)

@[simp] theorem State.issueAll_calm (c : Nat) (cause : Nat) (unit : Nat) (t0 : Nat) (t1 : Nat) (s : State) :
    (State.issueAll c cause unit t0 t1 s).calm = s.calm := by
  unfold State.issueAll
  repeat' (first
    | with_reducible rfl
    | intro _
    | (simp only [State.issue_calm, State.calm_mk, State.calm_eta])
    | with_reducible refine (each_calm _ _ ?_ _).trans ?_
    | split)

@[simp] theorem State.trigOpen_calm (d : Option Nat) (cause : Nat) (unit : Nat) (t0 : Nat) (s : State) :
    (State.trigOpen d cause unit t0 s).calm = s.calm := by
  unfold State.trigOpen
  repeat' (first
    | with_reducible rfl
    | (simp only [State.calm_mk, State.calm_eta])
    | with_reducible refine ite_calm _ _ _ _ ?_ ?_
    | split)

@[simp] theorem State.trigClose_calm (cause : Nat) (unit : Nat) (t1 : Nat) (s : State) : (State.trigClose cause unit
    t1 s).calm = s.calm := by
  unfold State.trigClose
  repeat' (first
    | with_reducible rfl
    | intro _
    | (simp only [State.issue_calm, State.calm_mk, State.calm_eta])
    | with_reducible refine (each_calm _ _ ?_ _).trans ?_
    | split)

@[simp] theorem State.endPhases_calm (s : State) : (State.endPhases s).calm = s.calm := by
  unfold State.endPhases
  repeat' (first
    | with_reducible rfl
    | intro _
    | (simp only [State.trigClose_calm, State.calm_mk, State.calm_eta])
    | with_reducible refine ite_calm _ _ _ _ ?_ ?_
    | with_reducible refine (each_calm _ _ ?_ _).trans ?_
    | split)

@[simp] theorem State.trigAt_calm (d : Option Nat) (cause : Nat) (unit : Nat) (t0 : Nat) (t1 : Nat) (s : State) :
    (State.trigAt d cause unit t0 t1 s).calm = s.calm := by
  unfold State.trigAt
  repeat' (first
    | with_reducible rfl
    | intro _
    | (simp only [State.issueAll_calm, State.calm_mk, State.calm_eta])
    | with_reducible refine (each_calm _ _ ?_ _).trans ?_
    | split)

@[simp] theorem State.closeCell_calm (n : Nat) (k : Nat) (a : CellState) (b : CellState) (s : State) :
    (State.closeCell n k a b s).calm = s.calm := by
  unfold State.closeCell
  repeat' (first
    | with_reducible rfl
    | (simp only [State.closeUnit_calm, State.calm_mk, State.calm_eta])
    | with_reducible refine ite_calm _ _ _ _ ?_ ?_
    | split)

@[simp] theorem State.noteParks_calm (s : State) (old : State) : (State.noteParks s old).calm = s.calm := by
  unfold State.noteParks
  repeat' (first
    | with_reducible rfl
    | intro _
    | (simp only [State.closeCell_calm, State.probeCheck_calm, State.trigClose_calm, State.trigOpen_calm, State.calm_mk,
      State.calm_eta])
    | with_reducible refine ite_calm _ _ _ _ ?_ ?_
    | with_reducible refine (each_calm _ _ ?_ _).trans ?_
    | split)

@[simp] theorem State.shutCtx_calm (c : Nat) (s : State) : (State.shutCtx c s).calm = s.calm := by
  unfold State.shutCtx
  repeat' (first
    | with_reducible rfl
    | intro _
    | (simp only [State.modCl_calm, State.modCx_calm, State.modHalf_calm, State.calm_mk, State.calm_eta])
    | with_reducible refine (each_calm _ _ ?_ _).trans ?_
    | split)

@[simp] theorem State.closeDone_calm (c : Nat) (s : State) : (State.closeDone c s).calm = s.calm := by
  unfold State.closeDone
  repeat' (first
    | with_reducible rfl
    | (simp only [State.complete_calm, State.shutCtx_calm, State.calm_mk, State.calm_eta])
    | with_reducible refine ite_calm _ _ _ _ ?_ ?_
    | split)

@[simp] theorem State.wmAdvance_calm (c : Nat) (s : State) : (State.wmAdvance c s).calm = s.calm := by
  unfold State.wmAdvance
  repeat' (first
    | with_reducible rfl
    | (simp only [State.closeDone_calm, State.fire_calm, State.modCx_calm, State.calm_mk, State.calm_eta])
    | with_reducible refine ite_calm _ _ _ _ ?_ ?_
    | split)

@[simp] theorem State.endShot_calm (c : Nat) (seq : Nat) (t : Nat) (s : State) : (State.endShot c seq t s).calm =
    s.calm := by
  unfold State.endShot
  repeat' (first
    | with_reducible rfl
    | (simp only [State.issue_calm, State.modPlayed_calm, State.calm_mk, State.calm_eta])
    | with_reducible refine ite_calm _ _ _ _ ?_ ?_
    | split)

@[simp] theorem State.endPlay_calm (c : Nat) (s : State) : (State.endPlay c s).calm = s.calm := by
  unfold State.endPlay
  repeat' (first
    | with_reducible rfl
    | intro _
    | (simp only [State.endShot_calm, State.calm_mk, State.calm_eta])
    | with_reducible refine (each_calm _ _ ?_ _).trans ?_
    | split)

@[simp] theorem State.noticeAll_calm (c : Nat) (cause : Nat) (t0 : Nat) (s : State) : (State.noticeAll c cause t0
    s).calm = s.calm := by
  unfold State.noticeAll
  repeat' (first
    | with_reducible rfl
    | intro _
    | (simp only [State.issue_calm, State.calm_mk, State.calm_eta])
    | with_reducible refine (each_calm _ _ ?_ _).trans ?_
    | split)

@[simp] theorem State.evalShot_calm (c : Nat) (p : Played) (s : State) : (State.evalShot c p s).calm = s.calm := by
  unfold State.evalShot
  repeat' (first
    | with_reducible rfl
    | intro _
    | (simp only [State.issue_calm, State.modPlayed_calm, State.calm_mk, State.calm_eta])
    | with_reducible refine ite_calm _ _ _ _ ?_ ?_
    | with_reducible refine (each_calm _ _ ?_ _).trans ?_
    | split)

/-! ## Story -/

@[simp] theorem State.wakeCtx_calm (c : Nat) (s : State) : (State.wakeCtx c s).calm = s.calm := by
  unfold State.wakeCtx
  repeat' (first
    | with_reducible rfl
    | intro _
    | (simp only [State.wakeClu_calm, State.calm_mk, State.calm_eta])
    | with_reducible refine (each_calm _ _ ?_ _).trans ?_
    | split)

@[simp] theorem State.dropReel_calm (c : Nat) (i : Nat) (s : State) : (State.dropReel c i s).calm = s.calm := by
  unfold State.dropReel
  repeat' (first
    | with_reducible rfl
    | (simp only [State.modCx_calm, State.calm_mk, State.calm_eta])
    | split)

@[simp] theorem State.planRead_calm (ch : Nat) (j : ChJob) (s : State) : (State.planRead ch j s).calm = s.calm := by
  unfold State.planRead
  repeat' (first
    | with_reducible rfl
    | (simp only [State.modChan_calm, State.calm_mk, State.calm_eta])
    | with_reducible refine ite_calm _ _ _ _ ?_ ?_
    | split)

@[simp] theorem State.staleReel_calm (c : Nat) (e : Reel) (s : State) : (State.staleReel c e s).calm = s.calm := by
  unfold State.staleReel
  repeat' (first
    | with_reducible rfl
    | (simp only [State.modCx_calm, State.calm_mk, State.calm_eta])
    | split)

@[simp] theorem State.prefetch_calm (c : Nat) (s : State) : (State.prefetch c s).calm = s.calm := by
  unfold State.prefetch
  repeat' (first
    | with_reducible rfl
    | intro _
    | (simp only [State.modCx_calm, State.planRead_calm, State.calm_mk, State.calm_eta])
    | with_reducible refine ite_calm _ _ _ _ ?_ ?_
    | with_reducible refine (each_calm _ _ ?_ _).trans ?_
    | split)

@[simp] theorem State.startReel_calm (c : Nat) (l : Load) (s : State) : (State.startReel c l s).calm = s.calm := by
  unfold State.startReel
  repeat' (first
    | with_reducible rfl
    | (simp only [State.modCx_calm, State.startRead_calm, State.calm_mk, State.calm_eta])
    | with_reducible refine ite_calm _ _ _ _ ?_ ?_
    | split)

@[simp] theorem State.startLoads_calm (c : Nat) (s : State) : (State.startLoads c s).calm = s.calm := by
  unfold State.startLoads
  repeat' (first
    | with_reducible rfl
    | intro _
    | (simp only [State.startReel_calm, State.calm_mk, State.calm_eta])
    | with_reducible refine ite_calm _ _ _ _ ?_ ?_
    | with_reducible refine (each_calm _ _ ?_ _).trans ?_
    | split)

@[simp] theorem State.applyProf_calm (c : Nat) (n : Nat) (h : Nat) (x : Shot) (s : State) : (State.applyProf c n h x
    s).calm = s.calm := by
  unfold State.applyProf
  repeat' (first
    | with_reducible rfl
    | (simp only [State.modCl_calm, State.modHalf_calm, State.calm_mk, State.calm_eta])
    | with_reducible refine ite_calm _ _ _ _ ?_ ?_
    | split)

@[simp] theorem State.applyShotProf_calm (c : Nat) (x : Shot) (s : State) : (State.applyShotProf c x s).calm =
    s.calm := by
  unfold State.applyShotProf
  repeat' (first
    | with_reducible rfl
    | intro _
    | (simp only [State.applyProf_calm, State.planRead_calm, State.calm_mk, State.calm_eta])
    | with_reducible refine ite_calm _ _ _ _ ?_ ?_
    | with_reducible refine (each_calm _ _ ?_ _).trans ?_
    | split)

@[simp] theorem State.applyShotV_calm (c : Nat) (x : Shot) (s : State) : (State.applyShotV c x s).2.calm = s.calm :=
    by
  unfold State.applyShotV
  repeat' (first
    | with_reducible rfl
    | intro _
    | (simp only [State.placeDom_calm, State.calm_mk, State.calm_eta])
    | with_reducible refine ite_calm _ _ _ _ ?_ ?_
    | with_reducible refine (foldl_calm _ _ ?_ _).trans ?_
    | with_reducible refine (foldl2_calm _ _ ?_ _).trans ?_
    | split)

@[simp] theorem State.beginPrep_calm (n : Nat) (h : Nat) (shot : Nat) (onset : Nat) (rise : Nat) (s : State) :
    (State.beginPrep n h shot onset rise s).calm = s.calm := by
  unfold State.beginPrep
  repeat' (first
    | with_reducible rfl
    | intro _
    | (simp only [State.accrue_calm, State.borrow_calm, State.modHalf_calm, State.calm_mk, State.calm_eta])
    | with_reducible refine (foldl_calm _ _ ?_ _).trans ?_
    | with_reducible refine (foldl2_calm _ _ ?_ _).trans ?_
    | split)

@[simp] theorem State.withdrawCtx_calm (c : Nat) (s : State) : (State.withdrawCtx c s).calm = s.calm := by
  unfold State.withdrawCtx
  repeat' (first
    | with_reducible rfl
    | intro _
    | (simp only [State.withdraw_calm, State.calm_mk, State.calm_eta])
    | with_reducible refine (each_calm _ _ ?_ _).trans ?_
    | split)

@[simp] theorem State.forgetGone_calm (c : Nat) (shot : Option Nat) (s : State) : (State.forgetGone c shot s).calm =
    s.calm := by
  unfold State.forgetGone
  repeat' (first
    | with_reducible rfl
    | intro _
    | (simp only [State.modHalf_calm, State.calm_mk, State.calm_eta])
    | with_reducible refine ite_calm _ _ _ _ ?_ ?_
    | with_reducible refine (each_calm _ _ ?_ _).trans ?_
    | split)

@[simp] theorem State.movePreps_calm (c : Nat) (s : State) : (State.movePreps c s).calm = s.calm := by
  unfold State.movePreps
  repeat' (first
    | with_reducible rfl
    | intro _
    | (simp only [State.accrue_calm, State.modHalf_calm, State.calm_mk, State.calm_eta])
    | with_reducible refine ite_calm _ _ _ _ ?_ ?_
    | with_reducible refine (each_calm _ _ ?_ _).trans ?_
    | split)

@[simp] theorem State.takeFractions_calm (c : Nat) (e : Reel) (s : State) : (State.takeFractions c e s).calm =
    s.calm := by
  unfold State.takeFractions
  repeat' (first
    | with_reducible rfl
    | (simp only [State.modCx_calm, State.calm_mk, State.calm_eta])
    | split)

@[simp] theorem State.unfeed_calm (c : Nat) (s : State) : (State.unfeed c s).calm = s.calm := by
  unfold State.unfeed
  repeat' (first
    | with_reducible rfl
    | intro _
    | (simp only [State.modHalf_calm, State.calm_mk, State.calm_eta])
    | with_reducible refine (each_calm _ _ ?_ _).trans ?_
    | split)

@[simp] theorem State.endHolds_calm (c : Nat) (s : State) : (State.endHolds c s).calm = s.calm := by
  unfold State.endHolds
  repeat' (first
    | with_reducible rfl
    | intro _
    | (simp only [State.brollEnd_calm, State.calm_mk, State.calm_eta])
    | with_reducible refine (each_calm _ _ ?_ _).trans ?_
    | split)

@[simp] theorem State.coast_calm (c : Nat) (code : Nat) (s : State) : (State.coast c code s).calm = s.calm := by
  unfold State.coast
  repeat' (first
    | with_reducible rfl
    | (simp only [State.modCx_calm, State.raise_calm, State.unfeed_calm, State.withdrawCtx_calm, State.calm_mk,
      State.calm_eta])
    | with_reducible refine ite_calm _ _ _ _ ?_ ?_
    | split)

@[simp] theorem State.pageLate_calm (c : Nat) (s : State) : (State.pageLate c s).calm = s.calm := by
  unfold State.pageLate
  repeat' (first
    | with_reducible rfl
    | (simp only [State.coast_calm, State.modCx_calm, State.calm_mk, State.calm_eta])
    | with_reducible refine ite_calm _ _ _ _ ?_ ?_
    | split)

@[simp] theorem State.haltPlay_calm (c : Nat) (s : State) : (State.haltPlay c s).calm = s.calm := by
  unfold State.haltPlay
  repeat' (first
    | with_reducible rfl
    | (simp only [State.endPlay_calm, State.modCx_calm, State.calm_mk, State.calm_eta])
    | with_reducible refine ite_calm _ _ _ _ ?_ ?_
    | split)

@[simp] theorem State.disarmNow_calm (c : Nat) (s : State) : (State.disarmNow c s).calm = s.calm := by
  unfold State.disarmNow
  repeat' (first
    | with_reducible rfl
    | (simp only [State.endHolds_calm, State.haltPlay_calm, State.modCx_calm, State.unfeed_calm, State.withdrawCtx_calm,
      State.wmAdvance_calm, State.calm_mk, State.calm_eta])
    | split)

@[simp] theorem State.failNow_calm (c : Nat) (s : State) : (State.failNow c s).calm = s.calm := by
  unfold State.failNow
  repeat' (first
    | with_reducible rfl
    | (simp only [State.endHolds_calm, State.haltPlay_calm, State.modCx_calm, State.noticeAll_calm, State.raise_calm,
      State.startLoads_calm, State.unfeed_calm, State.withdrawCtx_calm, State.calm_mk, State.calm_eta])
    | with_reducible refine ite_calm _ _ _ _ ?_ ?_
    | split)

@[simp] theorem State.consume_calm (c : Nat) (s : State) : (State.consume c s).calm = s.calm := by
  unfold State.consume
  repeat' (first
    | with_reducible rfl
    | (simp only [State.modCx_calm, State.calm_mk, State.calm_eta])
    | split)

@[simp] theorem State.ctxBoundary_calm (s : State) : (State.ctxBoundary s).calm = s.calm := by
  unfold State.ctxBoundary
  repeat' (first
    | with_reducible rfl
    | intro _
    | (simp only [State.complete_calm, State.disarmNow_calm, State.failNow_calm, State.calm_mk, State.calm_eta])
    | with_reducible refine ite_calm _ _ _ _ ?_ ?_
    | with_reducible refine (each_calm _ _ ?_ _).trans ?_
    | split)

@[simp] theorem State.setRelease_calm (c : Nat) (t : Option Nat) (s : State) : (State.setRelease c t s).calm =
    s.calm := by
  unfold State.setRelease
  repeat' (first
    | with_reducible rfl
    | intro _
    | (simp only [State.modHalf_calm, State.calm_mk, State.calm_eta])
    | with_reducible refine ite_calm _ _ _ _ ?_ ?_
    | with_reducible refine (each_calm _ _ ?_ _).trans ?_
    | split)

@[simp] theorem State.moveRelease_calm (c : Nat) (t : Nat) (s : State) : (State.moveRelease c t s).calm = s.calm :=
    by
  unfold State.moveRelease
  repeat' (first
    | with_reducible rfl
    | intro _
    | (simp only [State.modHalf_calm, State.calm_mk, State.calm_eta])
    | with_reducible refine ite_calm _ _ _ _ ?_ ?_
    | with_reducible refine (each_calm _ _ ?_ _).trans ?_
    | split)

@[simp] theorem State.placeNext_calm (c : Nat) (onset : Option Nat) (cueAt : Option Nat) (late : Bool) (s : State) :
    (State.placeNext c onset cueAt late s).calm = s.calm := by
  unfold State.placeNext
  repeat' (first
    | with_reducible rfl
    | (simp only [State.modCx_calm, State.movePreps_calm, State.setRelease_calm, State.calm_mk, State.calm_eta])
    | with_reducible refine ite_calm _ _ _ _ ?_ ?_
    | split)

@[simp] theorem State.follow_calm (c : Nat) (i : Nat) (onset : Option Nat) (s : State) : (State.follow c i onset
    s).calm = s.calm := by
  unfold State.follow
  repeat' (first
    | with_reducible rfl
    | (simp only [State.modCx_calm, State.placeNext_calm, State.calm_mk, State.calm_eta])
    | split)

@[simp] theorem State.switchTo_calm (c : Nat) (i : Nat) (onset : Option Nat) (s : State) : (State.switchTo c i onset
    s).calm = s.calm := by
  unfold State.switchTo
  repeat' (first
    | with_reducible rfl
    | intro _
    | (simp only [State.applyShotProf_calm, State.applyShotV_calm, State.consume_calm, State.follow_calm,
      State.modCx_calm, State.modHalf_calm, State.modPlayed_calm, State.prefetch_calm, State.wakeCtx_calm,
      State.calm_mk, State.calm_eta])
    | with_reducible refine ite_calm _ _ _ _ ?_ ?_
    | with_reducible refine (each_calm _ _ ?_ _).trans ?_
    | split)

@[simp] theorem State.recue_calm (c : Nat) (onset : Nat) (s : State) : (State.recue c onset s).calm = s.calm := by
  unfold State.recue
  repeat' (first
    | with_reducible rfl
    | (simp only [State.modCx_calm, State.modPlayed_calm, State.movePreps_calm, State.moveRelease_calm,
      State.placeNext_calm, State.calm_mk, State.calm_eta])
    | with_reducible refine ite_calm _ _ _ _ ?_ ?_
    | split)

@[simp] theorem State.matchCue_calm (c : Nat) (w : Word64) (rcpt : Nat) (onset : Nat) (s : State) : (State.matchCue
    c w rcpt onset s).calm = s.calm := by
  unfold State.matchCue
  repeat' (first
    | with_reducible rfl
    | (simp only [State.applyShotProf_calm, State.coast_calm, State.consume_calm, State.forgetGone_calm, State.modCx_calm,
      State.pageLate_calm, State.placeNext_calm, State.prefetch_calm, State.recue_calm, State.withdrawCtx_calm,
      State.calm_mk, State.calm_eta])
    | with_reducible refine ite_calm _ _ _ _ ?_ ?_
    | split)

@[simp] theorem State.takeCue_calm (w : Word64) (rcpt : Nat) (s : State) : (State.takeCue w rcpt s).calm = s.calm :=
    by
  unfold State.takeCue
  repeat' (first
    | with_reducible rfl
    | (simp only [State.matchCue_calm, State.modCx_calm, State.wakeCtx_calm, State.calm_mk, State.calm_eta])
    | with_reducible refine ite_calm _ _ _ _ ?_ ?_
    | split)

@[simp] theorem State.armPlan_calm (c : Nat) (e : Reel) (s : State) : (State.armPlan c e s).calm = s.calm := by
  unfold State.armPlan
  repeat' (first
    | with_reducible rfl
    | intro _
    | (simp only [State.consume_calm, State.modCl_calm, State.modCx_calm, State.prefetch_calm, State.takeFractions_calm,
      State.wakeCtx_calm, State.calm_mk, State.calm_eta])
    | with_reducible refine ite_calm _ _ _ _ ?_ ?_
    | with_reducible refine (each_calm _ _ ?_ _).trans ?_
    | split)

@[simp] theorem State.reelReady_calm (c : Nat) (r : Nat) (s : State) : (State.reelReady c r s).calm = s.calm := by
  unfold State.reelReady
  repeat' (first
    | with_reducible rfl
    | (simp only [State.matchCue_calm, State.modCx_calm, State.calm_mk, State.calm_eta])
    | with_reducible refine ite_calm _ _ _ _ ?_ ?_
    | split)

/-! ## Cells -/

@[simp] theorem State.setCarr_calm (n : Nat) (c : Carrier) (s : State) : (State.setCarr n c s).calm = s.calm := by
  unfold State.setCarr
  repeat' (first
    | with_reducible rfl
    | (simp only [State.modCl_calm, State.calm_mk, State.calm_eta])
    | split)

@[simp] theorem State.syncSeen_calm (hz : Nat) (s : State) : (State.syncSeen hz s).calm = s.calm := by
  unfold State.syncSeen
  repeat' (first
    | with_reducible rfl
    | (simp only [State.drawNat_calm, State.calm_mk, State.calm_eta])
    | with_reducible refine ite_calm _ _ _ _ ?_ ?_
    | split)

@[simp] theorem State.follow__calm (n : Nat) (hz : Nat) (s : State) : (State.follow_ n hz s).calm = s.calm := by
  unfold State.follow_
  repeat' (first
    | with_reducible rfl
    | (simp only [State.setCarr_calm, State.syncSeen_calm, State.calm_mk, State.calm_eta])
    | with_reducible refine ite_calm _ _ _ _ ?_ ?_
    | split)

@[simp] theorem State.syncLost_calm (n : Nat) (s : State) : (State.syncLost n s).calm = s.calm := by
  unfold State.syncLost
  repeat' (first
    | with_reducible rfl
    | (simp only [State.setCarr_calm, State.calm_mk, State.calm_eta])
    | with_reducible refine ite_calm _ _ _ _ ?_ ?_
    | split)

@[simp] theorem State.cellEvent_calm (n : Nat) (k : Nat) (f : Cell → Cell) (s : State) : (State.cellEvent n k f
    s).calm = s.calm := by
  unfold State.cellEvent
  repeat' (first
    | with_reducible rfl
    | (simp only [State.modCell_calm, State.noteParks_calm, State.calm_mk, State.calm_eta])
    | split)

@[simp] theorem State.phaseTrig_calm (n : Nat) (k : Nat) (t0 : Nat) (s : State) : (State.phaseTrig n k t0 s).calm =
    s.calm := by
  unfold State.phaseTrig
  repeat' (first
    | with_reducible rfl
    | (simp only [State.trigOpen_calm, State.calm_mk, State.calm_eta])
    | with_reducible refine ite_calm _ _ _ _ ?_ ?_
    | split)

@[simp] theorem State.carrierStart_calm (n : Nat) (k : Nat) (s : State) : (State.carrierStart n k s).calm = s.calm
    := by
  unfold State.carrierStart
  repeat' (first
    | with_reducible rfl
    | (simp only [State.cellEvent_calm, State.phaseTrig_calm, State.calm_mk, State.calm_eta])
    | with_reducible refine ite_calm _ _ _ _ ?_ ?_
    | split)

@[simp] theorem State.parkReport_calm (n : Nat) (k : Nat) (s : State) : (State.parkReport n k s).calm = s.calm := by
  unfold State.parkReport
  repeat' (first
    | with_reducible rfl
    | (simp only [State.drawNat_calm, State.modCell_calm, State.calm_mk, State.calm_eta])
    | with_reducible refine ite_calm _ _ _ _ ?_ ?_
    | split)

@[simp] theorem State.truncNow_calm (n : Nat) (k : Nat) (vout : Nat) (s : State) : (State.truncNow n k vout s).calm
    = s.calm := by
  unfold State.truncNow
  repeat' (first
    | with_reducible rfl
    | (simp only [State.modCell_calm, State.calm_mk, State.calm_eta])
    | with_reducible refine ite_calm _ _ _ _ ?_ ?_
    | split)

@[simp] theorem State.shuntNow_calm (n : Nat) (k : Nat) (vout : Nat) (s : State) : (State.shuntNow n k vout s).calm
    = s.calm := by
  unfold State.shuntNow
  repeat' (first
    | with_reducible rfl
    | (simp only [State.modCell_calm, State.calm_mk, State.calm_eta])
    | with_reducible refine ite_calm _ _ _ _ ?_ ?_
    | split)

@[simp] theorem State.openPhase_calm (n : Nat) (k : Nat) (detail : Nat) (t0 : Nat) (s : State) : (State.openPhase n
    k detail t0 s).calm = s.calm := by
  unfold State.openPhase
  repeat' (first
    | with_reducible rfl
    | (simp only [State.cellEvent_calm, State.phaseTrig_calm, State.raise_calm, State.calm_mk, State.calm_eta])
    | split)

/-! ## Sense -/

@[simp] theorem State.modLane_calm (n : Nat) (k : Nat) (f : Lane → Lane) (s : State) : (State.modLane n k f s).calm
    = s.calm := by
  unfold State.modLane
  repeat' (first
    | with_reducible rfl
    | (simp only [State.modCl_calm, State.calm_mk, State.calm_eta])
    | split)

@[simp] theorem State.shadowJudge_calm (n : Nat) (h : Nat) (k : Nat) (s : State) : (State.shadowJudge n h k s).calm
    = s.calm := by
  unfold State.shadowJudge
  repeat' (first
    | with_reducible rfl
    | (simp only [State.modLane_calm, State.raise_calm, State.calm_mk, State.calm_eta])
    | with_reducible refine ite_calm _ _ _ _ ?_ ?_
    | split)

@[simp] theorem State.shadowCheck_calm (n : Nat) (h : Nat) (s : State) : (State.shadowCheck n h s).calm = s.calm :=
    by
  unfold State.shadowCheck
  repeat' (first
    | with_reducible rfl
    | intro _
    | (simp only [State.modLane_calm, State.raise_calm, State.shadowJudge_calm, State.calm_mk, State.calm_eta])
    | with_reducible refine ite_calm _ _ _ _ ?_ ?_
    | with_reducible refine (each_calm _ _ ?_ _).trans ?_
    | split)

@[simp] theorem State.iConfirm_calm (n : Nat) (k : Nat) (s : State) : (State.iConfirm n k s).calm = s.calm := by
  unfold State.iConfirm
  repeat' (first
    | with_reducible rfl
    | (simp only [State.modLane_calm, State.shadowCheck_calm, State.calm_mk, State.calm_eta])
    | split)

@[simp] theorem State.vConfirm_calm (n : Nat) (k : Nat) (s : State) : (State.vConfirm n k s).calm = s.calm := by
  unfold State.vConfirm
  repeat' (first
    | with_reducible rfl
    | (simp only [State.modLane_calm, State.raise_calm, State.calm_mk, State.calm_eta])
    | with_reducible refine ite_calm _ _ _ _ ?_ ?_
    | split)

@[simp] theorem State.modSense_calm (n : Nat) (f : Sense → Sense) (s : State) : (State.modSense n f s).calm = s.calm
    := by
  unfold State.modSense
  repeat' (first
    | with_reducible rfl
    | (simp only [State.modCl_calm, State.calm_mk, State.calm_eta])
    | split)

@[simp] theorem State.vinSusp_calm (n : Nat) (s : State) : (State.vinSusp n s).calm = s.calm := by
  unfold State.vinSusp
  repeat' (first
    | with_reducible rfl
    | (simp only [State.modSense_calm, State.raise_calm, State.calm_mk, State.calm_eta])
    | with_reducible refine ite_calm _ _ _ _ ?_ ?_
    | split)

@[simp] theorem State.markSusp_calm (n : Nat) (ch : Nat) (t0 : Nat) (t1 : Nat) (s : State) : (State.markSusp n ch t0
    t1 s).calm = s.calm := by
  unfold State.markSusp
  repeat' (first
    | with_reducible rfl
    | (simp only [State.iConfirm_calm, State.modSense_calm, State.trigAt_calm, State.vConfirm_calm, State.vinSusp_calm,
      State.calm_mk, State.calm_eta])
    | with_reducible refine ite_calm _ _ _ _ ?_ ?_
    | split)

@[simp] theorem State.senseClear_calm (n : Nat) (k : Nat) (s : State) : (State.senseClear n k s).calm = s.calm := by
  unfold State.senseClear
  repeat' (first
    | with_reducible rfl
    | (simp only [State.closeUnit_calm, State.modLane_calm, State.modSense_calm, State.calm_mk, State.calm_eta])
    | with_reducible refine ite_calm _ _ _ _ ?_ ?_
    | split)

@[simp] theorem State.widespread_calm (n : Nat) (t : Nat) (sl : Nat) (inj : Bool) (s : State) : (State.widespread n
    t sl inj s).calm = s.calm := by
  unfold State.widespread
  repeat' (first
    | with_reducible rfl
    | intro _
    | (simp only [State.injected_calm, State.markSusp_calm, State.modSense_calm, State.raise_calm, implies_true,
      State.calm_mk, State.calm_eta])
    | with_reducible refine ite_calm _ _ _ _ ?_ ?_
    | with_reducible refine (each_calm _ _ ?_ _).trans ?_
    | split)

@[simp] theorem State.compare_calm (n : Nat) (ch : Nat) (t : Nat) (c3 : Sec3) (r : SRes) (prev : SRes) (vb : Int)
    (inj : Bool) (s : State) : (State.compare n ch t c3 r prev vb inj s).calm = s.calm := by
  unfold State.compare
  repeat' (first
    | with_reducible rfl
    | (simp only [State.injected_calm, State.markSusp_calm, State.modSense_calm, State.widespread_calm, implies_true,
      State.calm_mk, State.calm_eta])
    | with_reducible refine ite_calm _ _ _ _ ?_ ?_
    | split)

@[simp] theorem State.settleVolt_calm (n : Nat) (s : State) : (State.settleVolt n s).calm = s.calm := by
  unfold State.settleVolt
  repeat' (first
    | with_reducible rfl
    | (simp only [State.compare_calm, State.modSense_calm, State.calm_mk, State.calm_eta])
    | split)

@[simp] theorem State.endVolt_calm (n : Nat) (s : State) : (State.endVolt n s).calm = s.calm := by
  unfold State.endVolt
  repeat' (first
    | with_reducible rfl
    | (simp only [State.modSense_calm, State.settleVolt_calm, State.calm_mk, State.calm_eta])
    | with_reducible refine ite_calm _ _ _ _ ?_ ?_
    | split)

@[simp] theorem State.guardCheck_calm (n : Nat) (k : Nat) (t : Nat) (code : Int) (s : State) : (State.guardCheck n k
    t code s).calm = s.calm := by
  unfold State.guardCheck
  repeat' (first
    | with_reducible rfl
    | intro _
    | (simp only [State.issue_calm, State.calm_mk, State.calm_eta])
    | with_reducible refine ite_calm _ _ _ _ ?_ ?_
    | with_reducible refine (each_calm _ _ ?_ _).trans ?_
    | split)

@[simp] theorem State.frame_calm (n : Nat) (b : Nat) (m : FrameMeas) (s : State) : (State.frame n b m s).calm =
    s.calm := by
  unfold State.frame
  repeat' (first
    | with_reducible rfl
    | intro _
    | (simp only [State.compare_calm, State.guardCheck_calm, State.modSense_calm, State.settleVolt_calm, State.calm_mk,
      State.calm_eta])
    | with_reducible refine ite_calm _ _ _ _ ?_ ?_
    | with_reducible refine (each_calm _ _ ?_ _).trans ?_
    | with_reducible refine (foldl_calm _ _ ?_ _).trans ?_
    | with_reducible refine (foldl2_calm _ _ ?_ _).trans ?_
    | split)

@[simp] theorem State.windowFrame_calm (n : Nat) (s : State) : (State.windowFrame n s).calm = s.calm := by
  unfold State.windowFrame
  repeat' (first
    | with_reducible rfl
    | (simp only [State.modCl_calm, State.calm_mk, State.calm_eta])
    | split)

@[simp] theorem State.markOpen_calm (n : Nat) (ch : Nat) (t0 : Nat) (t1 : Nat) (s : State) : (State.markOpen n ch t0
    t1 s).calm = s.calm := by
  unfold State.markOpen
  repeat' (first
    | with_reducible rfl
    | (simp only [State.markSusp_calm, State.modSense_calm, State.calm_mk, State.calm_eta])
    | split)

@[simp] theorem State.singleShot_calm (n : Nat) (ch : Nat) (s : State) : (State.singleShot n ch s).calm = s.calm :=
    by
  unfold State.singleShot
  repeat' (first
    | with_reducible rfl
    | (simp only [State.modSense_calm, State.calm_mk, State.calm_eta])
    | with_reducible refine ite_calm _ _ _ _ ?_ ?_
    | split)

@[simp] theorem State.queuePop_calm (n : Nat) (s : State) : (State.queuePop n s).calm = s.calm := by
  unfold State.queuePop
  repeat' (first
    | with_reducible rfl
    | (simp only [State.modSense_calm, State.calm_mk, State.calm_eta])
    | split)

@[simp] theorem State.capture_calm (n : Nat) (k : Nat) (s : State) : (State.capture n k s).calm = s.calm := by
  unfold State.capture
  repeat' (first
    | with_reducible rfl
    | (simp only [State.modSense_calm, State.calm_mk, State.calm_eta])
    | with_reducible refine ite_calm _ _ _ _ ?_ ?_
    | split)

@[simp] theorem State.pairBad_calm (b : Nat) (st : Nat) (s : State) : (State.pairBad b st s).calm = s.calm := by
  unfold State.pairBad
  repeat' (first
    | with_reducible rfl
    | (simp only [State.raise_calm, State.calm_mk, State.calm_eta])
    | with_reducible refine ite_calm _ _ _ _ ?_ ?_
    | split)

@[simp] theorem State.kickNow_calm (n : Nat) (k : Nat) (vout : Nat) (s : State) : (State.kickNow n k vout s).calm =
    s.calm := by
  unfold State.kickNow
  repeat' (first
    | with_reducible rfl
    | (simp only [State.capture_calm, State.modCell_calm, State.calm_mk, State.calm_eta])
    | with_reducible refine ite_calm _ _ _ _ ?_ ?_
    | split)

/-! ## Sharing -/

@[simp] theorem State.guardAll_calm (n : Nat) (s : State) : (State.guardAll n s).calm = s.calm := by
  unfold State.guardAll
  repeat' (first
    | with_reducible rfl
    | intro _
    | (simp only [State.guardCheck_calm, State.calm_mk, State.calm_eta])
    | with_reducible refine (each_calm _ _ ?_ _).trans ?_
    | split)

@[simp] theorem State.clearCmd_calm (d : Nat) (s : State) : (State.clearCmd d s).calm = s.calm := by
  unfold State.clearCmd
  repeat' (first
    | with_reducible rfl
    | intro _
    | (simp only [State.modDm_calm, State.modHalf_calm, State.calm_mk, State.calm_eta])
    | with_reducible refine (each_calm _ _ ?_ _).trans ?_
    | split)

@[simp] theorem State.swapNow_calm (n : Nat) (s : State) : (State.swapNow n s).calm = s.calm := by
  unfold State.swapNow
  repeat' (first
    | with_reducible rfl
    | (simp only [State.modCl_calm, State.calm_mk, State.calm_eta])
    | split)

@[simp] theorem State.confirm_calm (n : Nat) (k : Nat) (cls : Nat) (t0 : Nat) (s : State) : (State.confirm n k cls
    t0 s).calm = s.calm := by
  unfold State.confirm
  repeat' (first
    | with_reducible rfl
    | (simp only [State.iConfirm_calm, State.openPhase_calm, State.trigAt_calm, State.vConfirm_calm, State.vinSusp_calm,
      State.calm_mk, State.calm_eta])
    | with_reducible refine ite_calm _ _ _ _ ?_ ?_
    | split)

@[simp] theorem State.countClass_calm (n : Nat) (start : Nat) (cmN : Nat) (all : List Judged) (j : Judged) (s :
    State) : (State.countClass n start cmN all j s).calm = s.calm := by
  unfold State.countClass
  repeat' (first
    | with_reducible rfl
    | (simp only [State.confirm_calm, State.modLane_calm, State.calm_mk, State.calm_eta])
    | with_reducible refine ite_calm _ _ _ _ ?_ ?_
    | split)

@[simp] theorem State.loseGaffer_calm (n : Nat) (s : State) : (State.loseGaffer n s).calm = s.calm := by
  unfold State.loseGaffer
  repeat' (first
    | with_reducible rfl
    | intro _
    | (simp only [State.fillZero_calm, State.modCl_calm, State.modHalf_calm, State.withdraw_calm, State.calm_mk,
      State.calm_eta])
    | with_reducible refine (each_calm _ _ ?_ _).trans ?_
    | split)

@[simp] theorem State.missRecord_calm (n : Nat) (k : Nat) (s : State) : (State.missRecord n k s).calm = s.calm := by
  unfold State.missRecord
  repeat' (first
    | with_reducible rfl
    | (simp only [State.loseGaffer_calm, State.modCl_calm, State.calm_mk, State.calm_eta])
    | with_reducible refine ite_calm _ _ _ _ ?_ ?_
    | split)

@[simp] theorem State.oddRecord_calm (n : Nat) (k : Nat) (s : State) : (State.oddRecord n k s).calm = s.calm := by
  unfold State.oddRecord
  repeat' (first
    | with_reducible rfl
    | (simp only [State.missRecord_calm, State.modCl_calm, State.calm_mk, State.calm_eta])
    | with_reducible refine ite_calm _ _ _ _ ?_ ?_
    | split)

@[simp] theorem State.missLast_calm (s : State) : (State.missLast s).calm = s.calm := by
  unfold State.missLast
  repeat' (first
    | with_reducible rfl
    | intro _
    | (simp only [State.missRecord_calm, State.modCl_calm, State.calm_mk, State.calm_eta])
    | with_reducible refine ite_calm _ _ _ _ ?_ ?_
    | with_reducible refine (each_calm _ _ ?_ _).trans ?_
    | split)

@[simp] theorem State.applyRec_calm (n : Nat) (h : Nat) (s : State) : (State.applyRec n h s).calm = s.calm := by
  unfold State.applyRec
  repeat' (first
    | with_reducible rfl
    | (simp only [State.accrue_calm, State.modHalf_calm, State.sendUp_calm, State.calm_mk, State.calm_eta])
    | with_reducible refine ite_calm _ _ _ _ ?_ ?_
    | split)

@[simp] theorem State.vinRecord_calm (n : Nat) (s : State) : (State.vinRecord n s).calm = s.calm := by
  unfold State.vinRecord
  repeat' (first
    | with_reducible rfl
    | (simp only [State.modSense_calm, State.vinSusp_calm, State.calm_mk, State.calm_eta])
    | with_reducible refine ite_calm _ _ _ _ ?_ ?_
    | split)

/-! ## Thermal -/

@[simp] theorem State.modTherm_calm (n : Nat) (f : Therm → Therm) (s : State) : (State.modTherm n f s).calm = s.calm
    := by
  unfold State.modTherm
  repeat' (first
    | with_reducible rfl
    | (simp only [State.modCl_calm, State.calm_mk, State.calm_eta])
    | split)

@[simp] theorem State.judgeSensor_calm (n : Nat) (t : List Int) (k : Nat) (s : State) : (State.judgeSensor n t k
    s).calm = s.calm := by
  unfold State.judgeSensor
  repeat' (first
    | with_reducible rfl
    | (simp only [State.modTherm_calm, State.raise_calm, State.calm_mk, State.calm_eta])
    | with_reducible refine ite_calm _ _ _ _ ?_ ?_
    | split)

@[simp] theorem State.limits_calm (n : Nat) (s : State) : (State.limits n s).calm = s.calm := by
  unfold State.limits
  repeat' (first
    | with_reducible rfl
    | (simp only [State.closeUnit_calm, State.modTherm_calm, State.raise_calm, State.calm_mk, State.calm_eta])
    | with_reducible refine ite_calm _ _ _ _ ?_ ?_
    | split)

@[simp] theorem State.thDemand_calm (d : Nat) (s : State) : (State.thDemand d s).calm = s.calm := by
  unfold State.thDemand
  repeat' (first
    | with_reducible rfl
    | intro _
    | (simp only [State.modDm_calm, State.calm_mk, State.calm_eta])
    | with_reducible refine ite_calm _ _ _ _ ?_ ?_
    | with_reducible refine (foldl_calm _ _ ?_ _).trans ?_
    | with_reducible refine (foldl2_calm _ _ ?_ _).trans ?_
    | split)

@[simp] theorem State.thDeliver_calm (n : Nat) (t : List Int) (s : State) : (State.thDeliver n t s).calm = s.calm :=
    by
  unfold State.thDeliver
  repeat' (first
    | with_reducible rfl
    | intro _
    | (simp only [State.judgeSensor_calm, State.limits_calm, State.modTherm_calm, State.raise_calm, State.thDemand_calm,
      State.thErrs_calm, State.throttle_calm, State.calm_mk, State.calm_eta])
    | with_reducible refine ite_calm _ _ _ _ ?_ ?_
    | with_reducible refine (each_calm _ _ ?_ _).trans ?_
    | with_reducible refine (foldl_calm _ _ ?_ _).trans ?_
    | with_reducible refine (foldl2_calm _ _ ?_ _).trans ?_
    | split)

@[simp] theorem State.capOf_calm (n : Nat) (k : Nat) (dv : Nat) (s : State) : (State.capOf n k dv s).2.calm = s.calm
    := by
  unfold State.capOf
  repeat' (first
    | with_reducible rfl
    | (simp only [State.drawNat_calm, State.calm_mk, State.calm_eta])
    | with_reducible refine ite_calm _ _ _ _ ?_ ?_
    | split)

@[simp] theorem State.capInfo_calm (n : Nat) (s : State) : (State.capInfo n s).calm = s.calm := by
  unfold State.capInfo
  repeat' (first
    | with_reducible rfl
    | (simp only [State.collect_calm, State.calm_mk, State.calm_eta])
    | split)

/-! ## Slate -/

@[simp] theorem State.modSlt_calm (f : Slate → Slate) (s : State) : (State.modSlt f s).calm = s.calm := by
  unfold State.modSlt
  repeat' (first
    | with_reducible rfl
    | (simp only [State.calm_mk, State.calm_eta])
    | split)

@[simp] theorem State.modPort_calm (p : Nat) (f : SPort → SPort) (s : State) : (State.modPort p f s).calm = s.calm
    := by
  unfold State.modPort
  repeat' (first
    | with_reducible rfl
    | (simp only [State.modSlt_calm, State.calm_mk, State.calm_eta])
    | split)

@[simp] theorem State.sendMk_calm (p : Nat) (k : Nat) (pay : BitVec 16) (s : State) : (State.sendMk p k pay s).calm
    = s.calm := by
  unfold State.sendMk
  repeat' (first
    | with_reducible rfl
    | (simp only [State.put_calm, State.calm_mk, State.calm_eta])
    | split)

@[simp] theorem State.sendPair_calm (p : Nat) (k : Nat) (pay : BitVec 16) (s : State) : (State.sendPair p k pay
    s).calm = s.calm := by
  unfold State.sendPair
  repeat' (first
    | with_reducible rfl
    | (simp only [State.sendMk_calm, State.calm_mk, State.calm_eta])
    | split)

@[simp] theorem State.sendDown_calm (k : Nat) (pay : BitVec 16) (s : State) : (State.sendDown k pay s).calm = s.calm
    := by
  unfold State.sendDown
  repeat' (first
    | with_reducible rfl
    | intro _
    | (simp only [State.sendPair_calm, State.calm_mk, State.calm_eta])
    | with_reducible refine (each_calm _ _ ?_ _).trans ?_
    | split)

@[simp] theorem State.ctrlUp_calm (op : Nat) (arg : Nat) (s : State) : (State.ctrlUp op arg s).calm = s.calm := by
  unfold State.ctrlUp
  repeat' (first
    | with_reducible rfl
    | (simp only [State.sendPair_calm, State.calm_mk, State.calm_eta])
    | with_reducible refine ite_calm _ _ _ _ ?_ ?_
    | split)

@[simp] theorem State.slateLost_calm (s : State) : (State.slateLost s).calm = s.calm := by
  unfold State.slateLost
  repeat' (first
    | with_reducible rfl
    | (simp only [State.fire_calm, State.modSlt_calm, State.raise_calm, State.calm_mk, State.calm_eta])
    | with_reducible refine ite_calm _ _ _ _ ?_ ?_
    | split)

@[simp] theorem State.releaseAt_calm (t : Nat) (s : State) : (State.releaseAt t s).calm = s.calm := by
  unfold State.releaseAt
  repeat' (first
    | with_reducible rfl
    | (simp only [State.modSlt_calm, State.placeNext_calm, State.recue_calm, State.calm_mk, State.calm_eta])
    | with_reducible refine ite_calm _ _ _ _ ?_ ?_
    | split)

@[simp] theorem State.releaseNow_calm (s : State) : (State.releaseNow s).calm = s.calm := by
  unfold State.releaseNow
  repeat' (first
    | with_reducible rfl
    | (simp only [State.releaseAt_calm, State.calm_mk, State.calm_eta])
    | with_reducible refine ite_calm _ _ _ _ ?_ ?_
    | split)

@[simp] theorem State.unjoin_calm (s : State) : (State.unjoin s).calm = s.calm := by
  unfold State.unjoin
  repeat' (first
    | with_reducible rfl
    | (simp only [State.complete_calm, State.modSlt_calm, State.placeNext_calm, State.calm_mk, State.calm_eta])
    | with_reducible refine ite_calm _ _ _ _ ?_ ?_
    | split)

@[simp] theorem State.detached_calm (s : State) : (State.detached s).calm = s.calm := by
  unfold State.detached
  repeat' (first
    | with_reducible rfl
    | (simp only [State.modSlt_calm, State.sendDown_calm, State.slateLost_calm, State.unjoin_calm, State.calm_mk,
      State.calm_eta])
    | split)

@[simp] theorem State.changeN_calm (d : Int) (s : State) : (State.changeN d s).calm = s.calm := by
  unfold State.changeN
  repeat' (first
    | with_reducible rfl
    | (simp only [State.modSlt_calm, State.calm_mk, State.calm_eta])
    | split)

@[simp] theorem State.leaveUp_calm (k : Nat) (s : State) : (State.leaveUp k s).calm = s.calm := by
  unfold State.leaveUp
  repeat' (first
    | with_reducible rfl
    | (simp only [State.changeN_calm, State.ctrlUp_calm, State.calm_mk, State.calm_eta])
    | with_reducible refine ite_calm _ _ _ _ ?_ ?_
    | split)

@[simp] theorem State.joinUp_calm (k : Nat) (s : State) : (State.joinUp k s).calm = s.calm := by
  unfold State.joinUp
  repeat' (first
    | with_reducible rfl
    | (simp only [State.changeN_calm, State.ctrlUp_calm, State.calm_mk, State.calm_eta])
    | with_reducible refine ite_calm _ _ _ _ ?_ ?_
    | split)

@[simp] theorem State.admitPort_calm (p : Nat) (s : State) : (State.admitPort p s).calm = s.calm := by
  unfold State.admitPort
  repeat' (first
    | with_reducible rfl
    | (simp only [State.joinUp_calm, State.modPort_calm, State.sendPair_calm, State.calm_mk, State.calm_eta])
    | split)

@[simp] theorem State.admitAll_calm (s : State) : (State.admitAll s).calm = s.calm := by
  unfold State.admitAll
  repeat' (first
    | with_reducible rfl
    | intro _
    | (simp only [State.admitPort_calm, State.calm_mk, State.calm_eta])
    | with_reducible refine (each_calm _ _ ?_ _).trans ?_
    | split)

@[simp] theorem State.dropPort_calm (p : Nat) (s : State) : (State.dropPort p s).calm = s.calm := by
  unfold State.dropPort
  repeat' (first
    | with_reducible rfl
    | (simp only [State.leaveUp_calm, State.modPort_calm, State.calm_mk, State.calm_eta])
    | split)

@[simp] theorem State.ownRelease_calm (t : Nat) (s : State) : (State.ownRelease t s).calm = s.calm := by
  unfold State.ownRelease
  repeat' (first
    | with_reducible rfl
    | (simp only [State.modSlt_calm, State.releaseAt_calm, State.calm_mk, State.calm_eta])
    | with_reducible refine ite_calm _ _ _ _ ?_ ?_
    | split)

@[simp] theorem State.detachPorts_calm (s : State) : (State.detachPorts s).calm = s.calm := by
  unfold State.detachPorts
  repeat' (first
    | with_reducible rfl
    | intro _
    | (simp only [State.dropPort_calm, State.sendPair_calm, State.calm_mk, State.calm_eta])
    | with_reducible refine (each_calm _ _ ?_ _).trans ?_
    | split)

@[simp] theorem State.reachChanged_calm (s : State) : (State.reachChanged s).calm = s.calm := by
  unfold State.reachChanged
  repeat' (first
    | with_reducible rfl
    | (simp only [State.ctrlUp_calm, State.modSlt_calm, State.calm_mk, State.calm_eta])
    | with_reducible refine ite_calm _ _ _ _ ?_ ?_
    | split)

@[simp] theorem State.passRelease_calm (k : Nat) (tr : Int) (s : State) : (State.passRelease k tr s).calm = s.calm
    := by
  unfold State.passRelease
  repeat' (first
    | with_reducible rfl
    | (simp only [State.admitAll_calm, State.detachPorts_calm, State.modSlt_calm, State.ownRelease_calm,
      State.reachChanged_calm, State.sendDown_calm, State.calm_mk, State.calm_eta])
    | with_reducible refine ite_calm _ _ _ _ ?_ ?_
    | split)

@[simp] theorem State.dissolveNow_calm (s : State) : (State.dissolveNow s).calm = s.calm := by
  unfold State.dissolveNow
  repeat' (first
    | with_reducible rfl
    | (simp only [State.modSlt_calm, State.sendDown_calm, State.unjoin_calm, State.calm_mk, State.calm_eta])
    | split)

@[simp] theorem State.rootRelease_calm (k : Nat) (tr : Int) (s : State) : (State.rootRelease k tr s).calm = s.calm
    := by
  unfold State.rootRelease
  repeat' (first
    | with_reducible rfl
    | (simp only [State.dissolveNow_calm, State.passRelease_calm, State.calm_mk, State.calm_eta])
    | with_reducible refine ite_calm _ _ _ _ ?_ ?_
    | split)

@[simp] theorem State.tryCombine_calm (s : State) : (State.tryCombine s).calm = s.calm := by
  unfold State.tryCombine
  repeat' (first
    | with_reducible rfl
    | intro _
    | (simp only [State.modSlt_calm, State.rootRelease_calm, State.sendPair_calm, State.calm_mk, State.calm_eta])
    | with_reducible refine ite_calm _ _ _ _ ?_ ?_
    | with_reducible refine (foldl_calm _ _ ?_ _).trans ?_
    | with_reducible refine (foldl2_calm _ _ ?_ _).trans ?_
    | split)

@[simp] theorem State.arrive_calm (ready : Nat) (s : State) : (State.arrive ready s).calm = s.calm := by
  unfold State.arrive
  repeat' (first
    | with_reducible rfl
    | (simp only [State.modSlt_calm, State.tryCombine_calm, State.calm_mk, State.calm_eta])
    | split)

@[simp] theorem State.leaveTree_calm (s : State) : (State.leaveTree s).calm = s.calm := by
  unfold State.leaveTree
  repeat' (first
    | with_reducible rfl
    | (simp only [State.arrive_calm, State.ctrlUp_calm, State.dissolveNow_calm, State.modSlt_calm, State.calm_mk,
      State.calm_eta])
    | with_reducible refine ite_calm _ _ _ _ ?_ ?_
    | split)

@[simp] theorem State.slateCtxLeft_calm (s : State) (old : State) : (State.slateCtxLeft s old).calm = s.calm := by
  unfold State.slateCtxLeft
  repeat' (first
    | with_reducible rfl
    | (simp only [State.leaveTree_calm, State.raise_calm, State.calm_mk, State.calm_eta])
    | with_reducible refine ite_calm _ _ _ _ ?_ ?_
    | split)

@[simp] theorem State.started_calm (s : State) : (State.started s).calm = s.calm := by
  unfold State.started
  repeat' (first
    | with_reducible rfl
    | (simp only [State.closeUnit_calm, State.complete_calm, State.modSlt_calm, State.calm_mk, State.calm_eta])
    | with_reducible refine ite_calm _ _ _ _ ?_ ?_
    | split)

@[simp] theorem State.tryAnswer_calm (s : State) : (State.tryAnswer s).calm = s.calm := by
  unfold State.tryAnswer
  repeat' (first
    | with_reducible rfl
    | (simp only [State.complete_calm, State.ctrlUp_calm, State.dissolveNow_calm, State.modSlt_calm, State.sendDown_calm,
      State.started_calm, State.calm_mk, State.calm_eta])
    | with_reducible refine ite_calm _ _ _ _ ?_ ?_
    | split)

@[simp] theorem State.enumerate_calm (level : Nat) (s : State) : (State.enumerate level s).calm = s.calm := by
  unfold State.enumerate
  repeat' (first
    | with_reducible rfl
    | intro _
    | (simp only [State.modSlt_calm, State.sendPair_calm, State.tryAnswer_calm, State.calm_mk, State.calm_eta])
    | with_reducible refine ite_calm _ _ _ _ ?_ ?_
    | with_reducible refine (each_calm _ _ ?_ _).trans ?_
    | split)

@[simp] theorem State.slateJoin_calm (slot : Nat) (c : Nat) (s : State) : (State.slateJoin slot c s).calm = s.calm
    := by
  unfold State.slateJoin
  repeat' (first
    | with_reducible rfl
    | (simp only [State.ctrlUp_calm, State.enumerate_calm, State.modSlt_calm, State.calm_mk, State.calm_eta])
    | with_reducible refine ite_calm _ _ _ _ ?_ ?_
    | split)

@[simp] theorem State.train_calm (p : Nat) (s : State) : (State.train p s).calm = s.calm := by
  unfold State.train
  repeat' (first
    | with_reducible rfl
    | (simp only [State.modPort_calm, State.modSlt_calm, State.calm_mk, State.calm_eta])
    | with_reducible refine ite_calm _ _ _ _ ?_ ?_
    | split)

@[simp] theorem State.linkLost_calm (p : Nat) (s : State) : (State.linkLost p s).calm = s.calm := by
  unfold State.linkLost
  repeat' (first
    | with_reducible rfl
    | (simp only [State.detached_calm, State.leaveUp_calm, State.modPort_calm, State.raise_calm, State.reachChanged_calm,
      State.releaseNow_calm, State.tryAnswer_calm, State.tryCombine_calm, State.calm_mk, State.calm_eta])
    | with_reducible refine ite_calm _ _ _ _ ?_ ?_
    | split)

@[simp] theorem State.laneDown_calm (p : Nat) (s : State) : (State.laneDown p s).calm = s.calm := by
  unfold State.laneDown
  repeat' (first
    | with_reducible rfl
    | (simp only [State.linkLost_calm, State.train_calm, State.calm_mk, State.calm_eta])
    | with_reducible refine ite_calm _ _ _ _ ?_ ?_
    | split)

@[simp] theorem State.mkBad_calm (p : Nat) (s : State) : (State.mkBad p s).calm = s.calm := by
  unfold State.mkBad
  repeat' (first
    | with_reducible rfl
    | (simp only [State.modPort_calm, State.modSlt_calm, State.calm_mk, State.calm_eta])
    | split)

@[simp] theorem State.recvMk_calm (p : Nat) (k : Nat) (pay : BitVec 16) (chk : BitVec 8) (up : Bool) (pair : Bool)
    (act : State → State) (s : State) (hf : ∀ s, (act s).calm = s.calm) : (State.recvMk p k pay chk up pair act
    s).calm = s.calm := by
  unfold State.recvMk
  repeat' (first
    | with_reducible rfl
    | (simp only [State.mkBad_calm, State.modPort_calm, hf, State.calm_mk, State.calm_eta])
    | with_reducible refine ite_calm _ _ _ _ ?_ ?_
    | split)

@[simp] theorem State.recvCtrl_calm (p : Nat) (op : Nat) (arg : BitVec 12) (chk : BitVec 8) (up : Bool) (act : State
    → State) (s : State) (hf : ∀ s, (act s).calm = s.calm) : (State.recvCtrl p op arg chk up act s).calm = s.calm :=
    by
  unfold State.recvCtrl
  repeat' (first
    | with_reducible rfl
    | (simp only [State.recvMk_calm, hf, implies_true, State.calm_mk, State.calm_eta])
    | with_reducible refine ite_calm _ _ _ _ ?_ ?_
    | split)

@[simp] theorem State.lockLost_calm (s : State) : (State.lockLost s).calm = s.calm := by
  unfold State.lockLost
  repeat' (first
    | with_reducible rfl
    | (simp only [State.linkLost_calm, State.modSlt_calm, State.calm_mk, State.calm_eta])
    | split)

@[simp] theorem State.takeTime_calm (pay : BitVec 16) (s : State) : (State.takeTime pay s).calm = s.calm := by
  unfold State.takeTime
  repeat' (first
    | with_reducible rfl
    | (simp only [State.ctrlUp_calm, State.lockLost_calm, State.modSlt_calm, State.tryAnswer_calm, State.calm_mk,
      State.calm_eta])
    | with_reducible refine ite_calm _ _ _ _ ?_ ?_
    | split)

@[simp] theorem State.mkEnum_calm (p : SltPort) (arg : BitVec 12) (chk : BitVec 8) (s : State) : (State.mkEnum p arg
    chk s).calm = s.calm := by
  unfold State.mkEnum
  repeat' (first
    | with_reducible rfl
    | (simp only [State.enumerate_calm, State.recvCtrl_calm, implies_true, State.calm_mk, State.calm_eta])
    | split)

@[simp] theorem State.mkCount_calm (p : SltPort) (arg : BitVec 12) (chk : BitVec 8) (s : State) : (State.mkCount p
    arg chk s).calm = s.calm := by
  unfold State.mkCount
  repeat' (first
    | with_reducible rfl
    | (simp only [State.modPort_calm, State.recvCtrl_calm, State.tryAnswer_calm, implies_true, State.calm_mk,
      State.calm_eta])
    | split)

@[simp] theorem State.mkCountOver_calm (p : SltPort) (arg : BitVec 12) (chk : BitVec 8) (s : State) :
    (State.mkCountOver p arg chk s).calm = s.calm := by
  unfold State.mkCountOver
  repeat' (first
    | with_reducible rfl
    | (simp only [State.modPort_calm, State.recvCtrl_calm, State.tryAnswer_calm, implies_true, State.calm_mk,
      State.calm_eta])
    | split)

@[simp] theorem State.mkReach_calm (p : SltPort) (arg : BitVec 12) (chk : BitVec 8) (s : State) : (State.mkReach p
    arg chk s).calm = s.calm := by
  unfold State.mkReach
  repeat' (first
    | with_reducible rfl
    | (simp only [State.modPort_calm, State.reachChanged_calm, State.recvCtrl_calm, State.tryAnswer_calm, implies_true,
      State.calm_mk, State.calm_eta])
    | split)

@[simp] theorem State.mkSize_calm (p : SltPort) (arg : BitVec 12) (chk : BitVec 8) (s : State) : (State.mkSize p arg
    chk s).calm = s.calm := by
  unfold State.mkSize
  repeat' (first
    | with_reducible rfl
    | (simp only [State.modSlt_calm, State.recvCtrl_calm, State.sendDown_calm, implies_true, State.calm_mk,
      State.calm_eta])
    | split)

@[simp] theorem State.mkStart_calm (p : SltPort) (arg : BitVec 12) (chk : BitVec 8) (s : State) : (State.mkStart p
    arg chk s).calm = s.calm := by
  unfold State.mkStart
  repeat' (first
    | with_reducible rfl
    | (simp only [State.recvCtrl_calm, State.sendDown_calm, State.started_calm, implies_true, State.calm_mk,
      State.calm_eta])
    | split)

@[simp] theorem State.mkLeave_calm (p : SltPort) (arg : BitVec 12) (chk : BitVec 8) (s : State) : (State.mkLeave p
    arg chk s).calm = s.calm := by
  unfold State.mkLeave
  repeat' (first
    | with_reducible rfl
    | (simp only [State.leaveUp_calm, State.modPort_calm, State.recvCtrl_calm, implies_true, State.calm_mk,
      State.calm_eta])
    | split)

@[simp] theorem State.mkDetach_calm (p : SltPort) (arg : BitVec 12) (chk : BitVec 8) (s : State) : (State.mkDetach p
    arg chk s).calm = s.calm := by
  unfold State.mkDetach
  repeat' (first
    | with_reducible rfl
    | (simp only [State.detached_calm, State.recvCtrl_calm, implies_true, State.calm_mk, State.calm_eta])
    | split)

@[simp] theorem State.mkDissolve_calm (p : SltPort) (arg : BitVec 12) (chk : BitVec 8) (s : State) :
    (State.mkDissolve p arg chk s).calm = s.calm := by
  unfold State.mkDissolve
  repeat' (first
    | with_reducible rfl
    | (simp only [State.dissolveNow_calm, State.recvCtrl_calm, implies_true, State.calm_mk, State.calm_eta])
    | split)

/-! ## Banks -/

@[simp] theorem State.bankLoaded_calm (slot : Nat) (n : Nat) (b : Bank) (bad : Option (Nat × Status)) (s : State) :
    (State.bankLoaded slot n b bad s).calm = s.calm := by
  unfold State.bankLoaded
  repeat' (first
    | with_reducible rfl
    | (simp only [State.endPartWith_calm, State.endPart_calm, State.modCl_calm, State.calm_mk, State.calm_eta])
    | split)

@[simp] theorem State.archLoaded_calm (slot : Nat) (n : Nat) (a : Nat) (poison : Bool) (s : State) :
    (State.archLoaded slot n a poison s).calm = s.calm := by
  unfold State.archLoaded
  repeat' (first
    | with_reducible rfl
    | (simp only [State.bankLoaded_calm, State.calm_mk, State.calm_eta])
    | with_reducible refine ite_calm _ _ _ _ ?_ ?_
    | split)

@[simp] theorem State.archFailed_calm (slot : Nat) (n : Nat) (s : State) : (State.archFailed slot n s).calm = s.calm
    := by
  unfold State.archFailed
  repeat' (first
    | with_reducible rfl
    | (simp only [State.bankLoaded_calm, State.calm_mk, State.calm_eta])
    | split)

/-! ## Channels -/

@[simp] theorem State.chRaise_calm (code : Nat) (c : Nat) (detail : Nat) (s : State) : (State.chRaise code c detail
    s).calm = s.calm := by
  unfold State.chRaise
  repeat' (first
    | with_reducible rfl
    | (simp only [State.raiseAcc_calm, State.calm_mk, State.calm_eta])
    | split)

@[simp] theorem State.offEffects_calm (c : Nat) (jobs : List ChJob) (s : State) : (State.offEffects c jobs s).calm =
    s.calm := by
  unfold State.offEffects
  repeat' (first
    | with_reducible rfl
    | intro _
    | (simp only [State.archFailed_calm, State.consume_calm, State.evLost_calm, State.modCx_calm, State.modHalf_calm,
      State.planRead_calm, State.withdraw_calm, State.calm_mk, State.calm_eta])
    | with_reducible refine ite_calm _ _ _ _ ?_ ?_
    | with_reducible refine (each_calm _ _ ?_ _).trans ?_
    | split)

@[simp] theorem State.goOffline_calm (c : Nat) (vudc : Bool) (s : State) : (State.goOffline c vudc s).calm = s.calm
    := by
  unfold State.goOffline
  repeat' (first
    | with_reducible rfl
    | (simp only [State.chRaise_calm, State.modChan_calm, State.offEffects_calm, State.calm_mk, State.calm_eta])
    | with_reducible refine ite_calm _ _ _ _ ?_ ?_
    | split)

@[simp] theorem State.goHalf_calm (c : Nat) (s : State) : (State.goHalf c s).calm = s.calm := by
  unfold State.goHalf
  repeat' (first
    | with_reducible rfl
    | (simp only [State.modChan_calm, State.calm_mk, State.calm_eta])
    | split)

@[simp] theorem State.dqFailed_calm (c : Nat) (lane : Nat) (s : State) : (State.dqFailed c lane s).calm = s.calm :=
    by
  unfold State.dqFailed
  repeat' (first
    | with_reducible rfl
    | (simp only [State.chRaise_calm, State.goHalf_calm, State.goOffline_calm, State.modChan_calm, State.calm_mk,
      State.calm_eta])
    | with_reducible refine ite_calm _ _ _ _ ?_ ?_
    | split)

@[simp] theorem State.caFailed_calm (c : Nat) (lane : Nat) (s : State) : (State.caFailed c lane s).calm = s.calm :=
    by
  unfold State.caFailed
  repeat' (first
    | with_reducible rfl
    | (simp only [State.chRaise_calm, State.goOffline_calm, State.modChan_calm, State.calm_mk, State.calm_eta])
    | with_reducible refine ite_calm _ _ _ _ ?_ ?_
    | split)

@[simp] theorem State.laneFail_calm (c : Nat) (lane : Nat) (s : State) : (State.laneFail c lane s).calm = s.calm :=
    by
  unfold State.laneFail
  repeat' (first
    | with_reducible rfl
    | (simp only [State.caFailed_calm, State.dqFailed_calm, State.modChan_calm, State.calm_mk, State.calm_eta])
    | with_reducible refine ite_calm _ _ _ _ ?_ ?_
    | split)

@[simp] theorem State.ckFail_calm (c : Nat) (b : Nat) (s : State) : (State.ckFail c b s).calm = s.calm := by
  unfold State.ckFail
  repeat' (first
    | with_reducible rfl
    | (simp only [State.chRaise_calm, State.goOffline_calm, State.modChan_calm, State.calm_mk, State.calm_eta])
    | with_reducible refine ite_calm _ _ _ _ ?_ ?_
    | split)

@[simp] theorem State.correct_calm (c : Nat) (lanes : List Nat) (s : State) : (State.correct c lanes s).calm =
    s.calm := by
  unfold State.correct
  repeat' (first
    | with_reducible rfl
    | intro _
    | (simp only [State.laneFail_calm, State.modChan_calm, State.calm_mk, State.calm_eta])
    | with_reducible refine (each_calm _ _ ?_ _).trans ?_
    | split)

@[simp] theorem State.profRead_calm (c : Nat) (ctx : Nat) (p : Nat) (bad : Bool) (s : State) : (State.profRead c ctx
    p bad s).calm = s.calm := by
  unfold State.profRead
  repeat' (first
    | with_reducible rfl
    | intro _
    | (simp only [State.applyProf_calm, State.consume_calm, State.modChan_calm, State.modCx_calm, State.calm_mk,
      State.calm_eta])
    | with_reducible refine ite_calm _ _ _ _ ?_ ?_
    | with_reducible refine (each_calm _ _ ?_ _).trans ?_
    | split)

@[simp] theorem State.fillRead_calm (c : Nat) (ctx : Nat) (p : Nat) (bad : Bool) (s : State) : (State.fillRead c ctx
    p bad s).calm = s.calm := by
  unfold State.fillRead
  repeat' (first
    | with_reducible rfl
    | (simp only [State.consume_calm, State.modChan_calm, State.modCx_calm, State.calm_mk, State.calm_eta])
    | with_reducible refine ite_calm _ _ _ _ ?_ ?_
    | split)

@[simp] theorem State.shotsRead_calm (c : Nat) (ctx : Nat) (line : Nat) (bad : Bool) (s : State) : (State.shotsRead
    c ctx line bad s).calm = s.calm := by
  unfold State.shotsRead
  repeat' (first
    | with_reducible rfl
    | (simp only [State.modChan_calm, State.modCx_calm, State.calm_mk, State.calm_eta])
    | with_reducible refine ite_calm _ _ _ _ ?_ ?_
    | split)

@[simp] theorem State.archBurst_calm (c : Nat) (slot : Nat) (a : Nat) (bad : Bool) (s : State) : (State.archBurst c
    slot a bad s).calm = s.calm := by
  unfold State.archBurst
  repeat' (first
    | with_reducible rfl
    | (simp only [State.archLoaded_calm, State.modChan_calm, State.calm_mk, State.calm_eta])
    | with_reducible refine ite_calm _ _ _ _ ?_ ?_
    | split)

@[simp] theorem State.poisonShots_calm (line : Nat) (s : State) : (State.poisonShots line s).calm = s.calm := by
  unfold State.poisonShots
  repeat' (first
    | with_reducible rfl
    | intro _
    | (simp only [State.put_calm, State.calm_mk, State.calm_eta])
    | with_reducible refine (foldl_calm _ _ ?_ _).trans ?_
    | with_reducible refine (foldl2_calm _ _ ?_ _).trans ?_
    | split)

@[simp] theorem State.poisonLine_calm (c : Nat) (line : Nat) (s : State) : (State.poisonLine c line s).calm = s.calm
    := by
  unfold State.poisonLine
  repeat' (first
    | with_reducible rfl
    | intro _
    | (simp only [State.put_calm, State.calm_mk, State.calm_eta])
    | with_reducible refine ite_calm _ _ _ _ ?_ ?_
    | with_reducible refine (foldl_calm _ _ ?_ _).trans ?_
    | with_reducible refine (foldl2_calm _ _ ?_ _).trans ?_
    | split)

@[simp] theorem State.poisonJob_calm (c : Nat) (j : ChJob) (s : State) : (State.poisonJob c j s).calm = s.calm := by
  unfold State.poisonJob
  repeat' (first
    | with_reducible rfl
    | (simp only [State.poisonLine_calm, State.poisonShots_calm, State.calm_mk, State.calm_eta])
    | split)

/-! ## ShareBus -/

@[simp] theorem State.recallBy_calm (d : Nat) (amt : Nat) (ws : List (Nat × Nat)) (s : State) : (State.recallBy d
    amt ws s).calm = s.calm := by
  unfold State.recallBy
  repeat' (first
    | with_reducible rfl
    | intro _
    | (simp only [State.send_calm, State.calm_mk, State.calm_eta])
    | with_reducible refine (each_calm _ _ ?_ _).trans ?_
    | split)

@[simp] theorem State.changePool_calm (d : Nat) (new : Nat) (s : State) : (State.changePool d new s).calm = s.calm
    := by
  unfold State.changePool
  repeat' (first
    | with_reducible rfl
    | (simp only [State.modDm_calm, State.recallBy_calm, State.calm_mk, State.calm_eta])
    | with_reducible refine ite_calm _ _ _ _ ?_ ?_
    | split)

@[simp] theorem State.newFsw_calm (n : Nat) (old : Sec1) (new : Sec1) (s : State) : (State.newFsw n old new s).calm
    = s.calm := by
  unfold State.newFsw
  repeat' (first
    | with_reducible rfl
    | (simp only [State.setCarr_calm, State.calm_mk, State.calm_eta])
    | with_reducible refine ite_calm _ _ _ _ ?_ ?_
    | split)

@[simp] theorem State.slatePorts_calm (s : State) : (State.slatePorts s).calm = s.calm := by
  unfold State.slatePorts
  repeat' (first
    | with_reducible rfl
    | intro _
    | (simp only [State.linkLost_calm, State.modPort_calm, State.train_calm, State.calm_mk, State.calm_eta])
    | with_reducible refine ite_calm _ _ _ _ ?_ ?_
    | with_reducible refine (each_calm _ _ ?_ _).trans ?_
    | split)

@[simp] theorem State.takeFsw_calm (n : Nat) (old : Sec1) (new : Sec1) (s : State) : (State.takeFsw n old new
    s).calm = s.calm := by
  unfold State.takeFsw
  repeat' (first
    | with_reducible rfl
    | (simp only [State.newFsw_calm, State.setCarr_calm, State.calm_mk, State.calm_eta])
    | with_reducible refine ite_calm _ _ _ _ ?_ ?_
    | split)

@[simp] theorem State.keepS3_calm (old : Sec3) (s : State) : (State.keepS3 old s).calm = s.calm := by
  unfold State.keepS3
  repeat' (first
    | with_reducible rfl
    | (simp only [State.calm_mk, State.calm_eta])
    | split)

@[simp] theorem State.queueShares_calm (n : Nat) (h : Nat) (s : State) : (State.queueShares n h s).calm = s.calm :=
    by
  unfold State.queueShares
  repeat' (first
    | with_reducible rfl
    | intro _
    | (simp only [State.calm_mk, State.calm_eta])
    | with_reducible refine ite_calm _ _ _ _ ?_ ?_
    | with_reducible refine (foldl_calm _ _ ?_ _).trans ?_
    | with_reducible refine (foldl2_calm _ _ ?_ _).trans ?_
    | split)

@[simp] theorem State.snapClu_calm (n : Nat) (s : State) : (State.snapClu n s).calm = s.calm := by
  unfold State.snapClu
  repeat' (first
    | with_reducible rfl
    | (simp only [State.modCl_calm, State.calm_mk, State.calm_eta])
    | split)

@[simp] theorem State.capsClu_calm (n : Nat) (s : State) : (State.capsClu n s).calm = s.calm := by
  unfold State.capsClu
  repeat' (first
    | with_reducible rfl
    | (simp only [State.calm_mk, State.calm_eta])
    | split)

@[simp] theorem State.accumulate_calm (s : State) : (State.accumulate s).calm = s.calm := by
  unfold State.accumulate
  repeat' (first
    | with_reducible rfl
    | intro _
    | (simp only [State.capsClu_calm, State.modCl_calm, State.modDm_calm, State.modHalf_calm, State.queueShares_calm,
      State.snapClu_calm, State.calm_mk, State.calm_eta])
    | with_reducible refine ite_calm _ _ _ _ ?_ ?_
    | with_reducible refine (each_calm _ _ ?_ _).trans ?_
    | split)

@[simp] theorem State.snapDom_calm (d : Nat) (s : State) : (State.snapDom d s).calm = s.calm := by
  unfold State.snapDom
  repeat' (first
    | with_reducible rfl
    | intro _
    | (simp only [State.modDm_calm, State.modHalf_calm, State.calm_mk, State.calm_eta])
    | with_reducible refine ite_calm _ _ _ _ ?_ ?_
    | with_reducible refine (each_calm _ _ ?_ _).trans ?_
    | split)

@[simp] theorem State.withholdDom_calm (d : Nat) (s : State) : (State.withholdDom d s).calm = s.calm := by
  unfold State.withholdDom
  repeat' (first
    | with_reducible rfl
    | intro _
    | (simp only [State.modDm_calm, State.modHalf_calm, State.recallBy_calm, State.calm_mk, State.calm_eta])
    | with_reducible refine ite_calm _ _ _ _ ?_ ?_
    | with_reducible refine (each_calm _ _ ?_ _).trans ?_
    | split)

@[simp] theorem State.allotDom_calm (d : Nat) (s : State) : (State.allotDom d s).calm = s.calm := by
  unfold State.allotDom
  repeat' (first
    | with_reducible rfl
    | intro _
    | (simp only [State.modDm_calm, State.modHalf_calm, State.send_calm, State.calm_mk, State.calm_eta])
    | with_reducible refine ite_calm _ _ _ _ ?_ ?_
    | with_reducible refine (each_calm _ _ ?_ _).trans ?_
    | split)

@[simp] theorem State.applyConfigs_calm (s : State) : (State.applyConfigs s).calm = s.calm := by
  unfold State.applyConfigs
  repeat' (first
    | with_reducible rfl
    | intro _
    | (simp only [State.changePool_calm, State.complete_calm, State.modDm_calm, State.calm_mk, State.calm_eta])
    | with_reducible refine ite_calm _ _ _ _ ?_ ?_
    | with_reducible refine (each_calm _ _ ?_ _).trans ?_
    | split)

@[simp] theorem State.capWaits_calm (s : State) : (State.capWaits s).calm = s.calm := by
  unfold State.capWaits
  repeat' (first
    | with_reducible rfl
    | intro _
    | (simp only [State.complete_calm, State.modCmd_calm, State.calm_mk, State.calm_eta])
    | with_reducible refine ite_calm _ _ _ _ ?_ ?_
    | with_reducible refine (each_calm _ _ ?_ _).trans ?_
    | split)

@[simp] theorem State.demandsAt_calm (s : State) : (State.demandsAt s).calm = s.calm := by
  unfold State.demandsAt
  repeat' (first
    | with_reducible rfl
    | intro _
    | (simp only [State.drawNat_calm, State.modDm_calm, State.calm_mk, State.calm_eta])
    | with_reducible refine ite_calm _ _ _ _ ?_ ?_
    | with_reducible refine (each_calm _ _ ?_ _).trans ?_
    | split)

@[simp] theorem State.closePhases_calm (rep : Nat) (s : State) : (State.closePhases rep s).calm = s.calm := by
  unfold State.closePhases
  repeat' (first
    | with_reducible rfl
    | (simp only [State.endPhases_calm, State.calm_mk, State.calm_eta])
    | split)

/-! ## Domains -/

@[simp] theorem State.modStg_calm (d : Nat) (f : Staging → Staging) (s : State) : (State.modStg d f s).calm = s.calm
    := by
  unfold State.modStg
  repeat' (first
    | with_reducible rfl
    | (simp only [State.modDm_calm, State.calm_mk, State.calm_eta])
    | split)

@[simp] theorem State.takeStage_calm (d : Nat) (need : Nat) (s : State) : (State.takeStage d need s).calm = s.calm
    := by
  unfold State.takeStage
  repeat' (first
    | with_reducible rfl
    | intro _
    | (simp only [State.modDm_calm, State.modHalf_calm, State.send_calm, State.calm_mk, State.calm_eta])
    | with_reducible refine (foldl_calm _ _ ?_ _).trans ?_
    | with_reducible refine (foldl2_calm _ _ ?_ _).trans ?_
    | split)

@[simp] theorem State.dropStage_calm (d : Nat) (s : State) : (State.dropStage d s).calm = s.calm := by
  unfold State.dropStage
  repeat' (first
    | with_reducible rfl
    | intro _
    | (simp only [State.modHalf_calm, State.calm_mk, State.calm_eta])
    | with_reducible refine (each_calm _ _ ?_ _).trans ?_
    | split)

@[simp] theorem State.liftH_calm (d : Nat) (s : State) : (State.liftH d s).2.calm = s.calm := by
  unfold State.liftH
  repeat' (first
    | with_reducible rfl
    | intro _
    | (simp only [State.modHalf_calm, State.calm_mk, State.calm_eta])
    | with_reducible refine ite_calm _ _ _ _ ?_ ?_
    | with_reducible refine (foldl_calm _ _ ?_ _).trans ?_
    | with_reducible refine (foldl2_calm _ _ ?_ _).trans ?_
    | split)

@[simp] theorem State.fade_calm (n : Nat) (off : Bool) (s : State) : (State.fade n off s).calm = s.calm := by
  unfold State.fade
  repeat' (first
    | with_reducible rfl
    | intro _
    | (simp only [State.accrue_calm, State.modHalf_calm, State.calm_mk, State.calm_eta])
    | with_reducible refine (each_calm _ _ ?_ _).trans ?_
    | split)

@[simp] theorem State.unfade_calm (d : Nat) (s : State) : (State.unfade d s).calm = s.calm := by
  unfold State.unfade
  repeat' (first
    | with_reducible rfl
    | intro _
    | (simp only [State.fade_calm, State.modStg_calm, State.calm_mk, State.calm_eta])
    | with_reducible refine (each_calm _ _ ?_ _).trans ?_
    | split)

@[simp] theorem State.stageB_calm (d : Nat) (prev : Nat) (need : Nat) (c : Nat) (s : State) : (State.stageB d prev
    need c s).calm = s.calm := by
  unfold State.stageB
  repeat' (first
    | with_reducible rfl
    | (simp only [State.liftH_calm, State.modDm_calm, State.modStg_calm, State.takeStage_calm, State.calm_mk,
      State.calm_eta])
    | split)

@[simp] theorem State.stageForce_calm (d : Nat) (prev : Nat) (peak : List Nat) (s : State) : (State.stageForce d
    prev peak s).calm = s.calm := by
  unfold State.stageForce
  repeat' (first
    | with_reducible rfl
    | intro _
    | (simp only [State.fade_calm, State.modStg_calm, State.raise_calm, State.stageB_calm, State.calm_mk, State.calm_eta])
    | with_reducible refine (each_calm _ _ ?_ _).trans ?_
    | split)

@[simp] theorem State.stageCheck_calm (d : Nat) (prev : Nat) (forced : Bool) (s : State) : (State.stageCheck d prev
    forced s).calm = s.calm := by
  unfold State.stageCheck
  repeat' (first
    | with_reducible rfl
    | intro _
    | (simp only [State.borrow_calm, State.fade_calm, State.modDm_calm, State.modStg_calm, State.stageB_calm,
      State.stageForce_calm, State.unfade_calm, State.calm_mk, State.calm_eta])
    | with_reducible refine ite_calm _ _ _ _ ?_ ?_
    | with_reducible refine (each_calm _ _ ?_ _).trans ?_
    | split)

@[simp] theorem State.stageNext_calm (d : Nat) (s : State) : (State.stageNext d s).calm = s.calm := by
  unfold State.stageNext
  repeat' (first
    | with_reducible rfl
    | (simp only [State.modStg_calm, State.stageCheck_calm, State.unfade_calm, State.calm_mk, State.calm_eta])
    | with_reducible refine ite_calm _ _ _ _ ?_ ?_
    | split)

@[simp] theorem State.stageClose_calm (d : Nat) (s : State) : (State.stageClose d s).calm = s.calm := by
  unfold State.stageClose
  repeat' (first
    | with_reducible rfl
    | intro _
    | (simp only [State.dropStage_calm, State.modDm_calm, State.modHalf_calm, State.stageNext_calm, State.calm_mk,
      State.calm_eta])
    | with_reducible refine ite_calm _ _ _ _ ?_ ?_
    | with_reducible refine (each_calm _ _ ?_ _).trans ?_
    | split)

@[simp] theorem State.stageOpen_calm (d : Nat) (s : State) : (State.stageOpen d s).calm = s.calm := by
  unfold State.stageOpen
  repeat' (first
    | with_reducible rfl
    | (simp only [State.modDm_calm, State.modStg_calm, State.calm_mk, State.calm_eta])
    | with_reducible refine ite_calm _ _ _ _ ?_ ?_
    | split)

@[simp] theorem State.pauseStages_calm (s : State) : (State.pauseStages s).calm = s.calm := by
  unfold State.pauseStages
  repeat' (first
    | with_reducible rfl
    | intro _
    | (simp only [State.modDm_calm, State.modStg_calm, State.unfade_calm, State.calm_mk, State.calm_eta])
    | with_reducible refine (each_calm _ _ ?_ _).trans ?_
    | split)

@[simp] theorem State.resumeStages_calm (s : State) : (State.resumeStages s).calm = s.calm := by
  unfold State.resumeStages
  repeat' (first
    | with_reducible rfl
    | intro _
    | (simp only [State.modStg_calm, State.stageNext_calm, State.stageOpen_calm, State.calm_mk, State.calm_eta])
    | with_reducible refine ite_calm _ _ _ _ ?_ ?_
    | with_reducible refine (each_calm _ _ ?_ _).trans ?_
    | split)

@[simp] theorem State.startDomain_calm (d : Nat) (cmd : Option Nat) (s : State) : (State.startDomain d cmd s).calm =
    s.calm := by
  unfold State.startDomain
  repeat' (first
    | with_reducible rfl
    | (simp only [State.modDm_calm, State.calm_mk, State.calm_eta])
    | split)

@[simp] theorem State.forceTarget_calm (d : Nat) (code : Nat) (s : State) : (State.forceTarget d code s).calm =
    s.calm := by
  unfold State.forceTarget
  repeat' (first
    | with_reducible rfl
    | intro _
    | (simp only [State.modDm_calm, State.modHalf_calm, State.calm_mk, State.calm_eta])
    | with_reducible refine (each_calm _ _ ?_ _).trans ?_
    | split)

@[simp] theorem State.wavesDone_calm (s : State) : (State.wavesDone s).calm = s.calm := by
  unfold State.wavesDone
  repeat' (first
    | with_reducible rfl
    | (simp only [State.calm_mk, State.calm_eta])
    | with_reducible refine ite_calm _ _ _ _ ?_ ?_
    | split)

@[simp] theorem State.leaveWave_calm (d : Nat) (s : State) : (State.leaveWave d s).calm = s.calm := by
  unfold State.leaveWave
  repeat' (first
    | with_reducible rfl
    | (simp only [State.wavesDone_calm, State.calm_mk, State.calm_eta])
    | split)

@[simp] theorem State.foundOn_calm (d : Nat) (s : State) : (State.foundOn d s).calm = s.calm := by
  unfold State.foundOn
  repeat' (first
    | with_reducible rfl
    | (simp only [State.modDm_calm, State.placeDom_calm, State.calm_mk, State.calm_eta])
    | split)

@[simp] theorem State.stepSeven_calm (s : State) : (State.stepSeven s).calm = s.calm := by
  unfold State.stepSeven
  repeat' (first
    | with_reducible rfl
    | intro _
    | (simp only [State.forceTarget_calm, State.foundOn_calm, State.modDm_calm, State.raise_calm, State.startDomain_calm,
      State.wavesDone_calm, State.calm_mk, State.calm_eta])
    | with_reducible refine ite_calm _ _ _ _ ?_ ?_
    | with_reducible refine (each_calm _ _ ?_ _).trans ?_
    | split)

@[simp] theorem State.revokeHalf_calm (n : Nat) (h : Nat) (s : State) : (State.revokeHalf n h s).calm = s.calm := by
  unfold State.revokeHalf
  repeat' (first
    | with_reducible rfl
    | intro _
    | (simp only [State.modHalf_calm, State.put_calm, State.calm_mk, State.calm_eta])
    | with_reducible refine (each_calm _ _ ?_ _).trans ?_
    | split)

@[simp] theorem State.startOff_calm (d : Nat) (slot : Nat) (s : State) : (State.startOff d slot s).calm = s.calm :=
    by
  unfold State.startOff
  repeat' (first
    | with_reducible rfl
    | intro _
    | (simp only [State.clearCmd_calm, State.endPart_calm, State.fillZero_calm, State.modDm_calm, State.modHalf_calm,
      State.revokeHalf_calm, State.stageOpen_calm, State.supersedes_calm, State.withdraw_calm, State.calm_mk,
      State.calm_eta])
    | with_reducible refine (each_calm _ _ ?_ _).trans ?_
    | split)

/-! ## Vin -/

@[simp] theorem State.vinReset_calm (s : State) : (State.vinReset s).calm = s.calm := by
  unfold State.vinReset
  repeat' (first
    | with_reducible rfl
    | (simp only [State.noteParks_calm, State.parkAll_calm, State.raise_calm, State.calm_mk, State.calm_eta])
    | split)

@[simp] theorem State.vinDip_calm (mv : Nat) (s : State) : (State.vinDip mv s).calm = s.calm := by
  unfold State.vinDip
  repeat' (first
    | with_reducible rfl
    | intro _
    | (simp only [State.accrue_calm, State.fillZero_calm, State.fire_calm, State.modHalf_calm, State.pauseStages_calm,
      State.probeCheck_calm, State.raise_calm, State.throttleAll_calm, State.trigOpen_calm, State.wakeAll_calm,
      State.withdraw_calm, State.calm_mk, State.calm_eta])
    | with_reducible refine (each_calm _ _ ?_ _).trans ?_
    | split)

@[simp] theorem State.vinResume_calm (s : State) : (State.vinResume s).calm = s.calm := by
  unfold State.vinResume
  repeat' (first
    | with_reducible rfl
    | intro _
    | (simp only [State.accrue_calm, State.modHalf_calm, State.calm_mk, State.calm_eta])
    | with_reducible refine (each_calm _ _ ?_ _).trans ?_
    | split)

/-! ## Nv -/

@[simp] theorem State.stageNv_calm (kind : Nat) (fault : List Word64) (s : State) : (State.stageNv kind fault
    s).calm = s.calm := by
  unfold State.stageNv
  repeat' (first
    | with_reducible rfl
    | (simp only [State.calm_mk, State.calm_eta])
    | with_reducible refine ite_calm _ _ _ _ ?_ ?_
    | split)

@[simp] theorem State.nvReadNow_calm (slot : Nat) (s : State) : (State.nvReadNow slot s).calm = s.calm := by
  unfold State.nvReadNow
  repeat' (first
    | with_reducible rfl
    | (simp only [State.writeLong_calm, State.complete_calm, State.modCmd_calm, State.calm_mk, State.calm_eta])
    | with_reducible refine ite_calm _ _ _ _ ?_ ?_
    | split)

@[simp] theorem State.nvReads_calm (s : State) : (State.nvReads s).calm = s.calm := by
  unfold State.nvReads
  repeat' (first
    | with_reducible rfl
    | intro _
    | (simp only [State.nvReadNow_calm, State.calm_mk, State.calm_eta])
    | with_reducible refine ite_calm _ _ _ _ ?_ ?_
    | with_reducible refine (each_calm _ _ ?_ _).trans ?_
    | split)

@[simp] theorem State.spiWrite_calm (r : NvRec) (s : State) : (State.spiWrite r s).calm = s.calm := by
  unfold State.spiWrite
  repeat' (first
    | with_reducible rfl
    | (simp only [State.put_calm, State.calm_mk, State.calm_eta])
    | with_reducible refine ite_calm _ _ _ _ ?_ ?_
    | split)

@[simp] theorem State.nvProgram_calm (fail : Bool) (s : State) : (State.nvProgram fail s).calm = s.calm := by
  unfold State.nvProgram
  repeat' (first
    | with_reducible rfl
    | (simp only [State.nvReads_calm, State.put_calm, State.raise_calm, State.spiWrite_calm, State.calm_mk,
      State.calm_eta])
    | with_reducible refine ite_calm _ _ _ _ ?_ ?_
    | split)

@[simp] theorem State.nvPosition_calm (bytes : Nat) (erase : BitVec 8) (s : State) : (State.nvPosition bytes erase
    s).calm = s.calm := by
  unfold State.nvPosition
  conv => zeta
  repeat' (first
    | with_reducible rfl
    | (simp only [State.calm_mk, State.calm_eta])
    | split)

/-! ## Images -/

@[simp] theorem State.storeReel_calm (l : List Word64) (s : State) : (State.storeReel l s).calm = s.calm := by
  unfold State.storeReel
  repeat' (first
    | with_reducible rfl
    | intro _
    | (simp only [State.put_calm, State.calm_mk, State.calm_eta])
    | with_reducible refine (foldl_calm _ _ ?_ _).trans ?_
    | with_reducible refine (foldl2_calm _ _ ?_ _).trans ?_
    | split)

/-! ## CluReset -/

@[simp] theorem State.forget_calm (slot : Nat) (s : State) : (State.forget slot s).calm = s.calm := by
  unfold State.forget
  repeat' (first
    | with_reducible rfl
    | intro _
    | (simp only [State.clearCmd_calm, State.endProbe_calm, State.modCl_calm, State.modDm_calm, State.calm_mk,
      State.calm_eta])
    | with_reducible refine ite_calm _ _ _ _ ?_ ?_
    | with_reducible refine (each_calm _ _ ?_ _).trans ?_
    | split)

@[simp] theorem State.resetClu_calm (n : Nat) (cmd : Option Nat) (s : State) : (State.resetClu n cmd s).calm =
    s.calm := by
  unfold State.resetClu
  repeat' (first
    | with_reducible rfl
    | intro _
    | (simp only [State.complete_calm, State.forget_calm, State.modCl_calm, State.revokeAll_calm, State.calm_mk,
      State.calm_eta])
    | with_reducible refine ite_calm _ _ _ _ ?_ ?_
    | with_reducible refine (each_calm _ _ ?_ _).trans ?_
    | split)

@[simp] theorem State.setBanks_calm (n : Nat) (b : Bank) (s : State) : (State.setBanks n b s).calm = s.calm := by
  unfold State.setBanks
  repeat' (first
    | with_reducible rfl
    | (simp only [State.modCl_calm, State.calm_mk, State.calm_eta])
    | split)

@[simp] theorem State.takeover_calm (n : Nat) (s : State) : (State.takeover n s).calm = s.calm := by
  unfold State.takeover
  repeat' (first
    | with_reducible rfl
    | intro _
    | (simp only [State.endPart_calm, State.modCl_calm, State.modHalf_calm, State.noteParks_calm, State.placeChange_calm,
      State.prefetch_calm, State.restoreLedger_calm, State.calm_mk, State.calm_eta])
    | with_reducible refine ite_calm _ _ _ _ ?_ ?_
    | with_reducible refine (each_calm _ _ ?_ _).trans ?_
    | split)

@[simp] theorem State.tryTakeover_calm (n : Nat) (s : State) : (State.tryTakeover n s).calm = s.calm := by
  unfold State.tryTakeover
  repeat' (first
    | with_reducible rfl
    | (simp only [State.takeover_calm, State.calm_mk, State.calm_eta])
    | with_reducible refine ite_calm _ _ _ _ ?_ ?_
    | split)

@[simp] theorem State.reload_calm (n : Nat) (s : State) : (State.reload n s).calm = s.calm := by
  unfold State.reload
  repeat' (first
    | with_reducible rfl
    | intro _
    | (simp only [State.setBanks_calm, State.startRead_calm, State.tryTakeover_calm, State.calm_mk, State.calm_eta])
    | with_reducible refine (each_calm _ _ ?_ _).trans ?_
    | split)

@[simp] theorem State.rebankDone_calm (n : Nat) (img : List Word64) (poison : Bool) (s : State) : (State.rebankDone
    n img poison s).calm = s.calm := by
  unfold State.rebankDone
  repeat' (first
    | with_reducible rfl
    | (simp only [State.setBanks_calm, State.tryTakeover_calm, State.calm_mk, State.calm_eta])
    | with_reducible refine ite_calm _ _ _ _ ?_ ?_
    | split)

@[simp] theorem State.repredDone_calm (n : Nat) (h : Nat) (img : List Word64) (poison : Bool) (s : State) :
    (State.repredDone n h img poison s).calm = s.calm := by
  unfold State.repredDone
  repeat' (first
    | with_reducible rfl
    | (simp only [State.modCl_calm, State.raise_calm, State.tryTakeover_calm, State.calm_mk, State.calm_eta])
    | with_reducible refine ite_calm _ _ _ _ ?_ ?_
    | split)

/-! ## Faults -/

@[simp] theorem State.formRecord_calm (r : Raise) (rep : Nat) (s : State) : (State.formRecord r rep s).calm = s.calm
    := by
  unfold State.formRecord
  repeat' (first
    | with_reducible rfl
    | (simp only [State.postEvent_calm, State.stageNv_calm, State.calm_mk, State.calm_eta])
    | with_reducible refine ite_calm _ _ _ _ ?_ ?_
    | split)

@[simp] theorem State.fireRaise_calm (r : Raise) (s : State) : (State.fireRaise r s).calm = s.calm := by
  unfold State.fireRaise
  repeat' (first
    | with_reducible rfl
    | (simp only [State.fire_calm, State.calm_mk, State.calm_eta])
    | with_reducible refine ite_calm _ _ _ _ ?_ ?_
    | split)

@[simp] theorem State.memCorrected_calm (mem : Nat) (n : Nat) (s : State) : (State.memCorrected mem n s).calm =
    s.calm := by
  unfold State.memCorrected
  repeat' (first
    | with_reducible rfl
    | (simp only [State.modCl_calm, State.calm_mk, State.calm_eta])
    | split)

@[simp] theorem State.retLost_calm (s : State) : (State.retLost s).calm = s.calm := by
  unfold State.retLost
  repeat' (first
    | with_reducible rfl
    | (simp only [State.calm_mk, State.calm_eta])
    | split)

@[simp] theorem State.ledgerError_calm (n : Nat) (addr : Nat) (master : Nat) (inj : Bool) (s : State) :
    (State.ledgerError n addr master inj s).calm = s.calm := by
  unfold State.ledgerError
  repeat' (first
    | with_reducible rfl
    | intro _
    | (simp only [State.ledgerLost_calm, State.raiseAcc_calm, State.calm_mk, State.calm_eta])
    | with_reducible refine (each_calm _ _ ?_ _).trans ?_
    | split)

@[simp] theorem State.memBad_calm (mem : Nat) (n : Nat) (addr : Nat) (master : Nat) (acc_ : Nat) (inj : Bool) (s :
    State) : (State.memBad mem n addr master acc_ inj s).calm = s.calm := by
  unfold State.memBad
  repeat' (first
    | with_reducible rfl
    | (simp only [State.ledgerError_calm, State.modCl_calm, State.raiseAcc_calm, State.retLost_calm, State.calm_mk,
      State.calm_eta])
    | with_reducible refine ite_calm _ _ _ _ ?_ ?_
    | split)

@[simp] theorem State.memRead_calm (mem : Nat) (n : Nat) (addr : Option Nat) (s : State) : (State.memRead mem n addr
    s).calm = s.calm := by
  unfold State.memRead
  repeat' (first
    | with_reducible rfl
    | (simp only [State.drawNat_calm, State.memBad_calm, State.memCorrected_calm, State.calm_mk, State.calm_eta])
    | with_reducible refine ite_calm _ _ _ _ ?_ ?_
    | split)

/-! ## Bringup -/

@[simp] theorem State.haltBoot_calm (s : State) : (State.haltBoot s).calm = s.calm := by
  unfold State.haltBoot
  repeat' (first
    | with_reducible rfl
    | (simp only [State.calm_mk, State.calm_eta])
    | split)

@[simp] theorem State.toStep_calm (k : Nat) (s : State) : (State.toStep k s).calm = s.calm := by
  unfold State.toStep
  repeat' (first
    | with_reducible rfl
    | (simp only [State.calm_mk, State.calm_eta])
    | split)

@[simp] theorem State.distribute_calm (p : SecStore) (s : State) : (State.distribute p s).calm = s.calm := by
  unfold State.distribute
  repeat' (first
    | with_reducible rfl
    | (simp only [State.calm_mk, State.calm_eta])
    | with_reducible refine ite_calm _ _ _ _ ?_ ?_
    | split)

@[simp] theorem State.avsStart_calm (s : State) : (State.avsStart s).calm = s.calm := by
  unfold State.avsStart
  repeat' (first
    | with_reducible rfl
    | (simp only [State.put_calm, State.calm_mk, State.calm_eta])
    | with_reducible refine ite_calm _ _ _ _ ?_ ?_
    | split)

@[simp] theorem State.cluMarchFailed_calm (n : Nat) (mem : Nat) (words : Nat) (s : State) : (State.cluMarchFailed n
    mem words s).calm = s.calm := by
  unfold State.cluMarchFailed
  repeat' (first
    | with_reducible rfl
    | (simp only [State.collect_calm, State.drawNat_calm, State.modCl_calm, State.calm_mk, State.calm_eta])
    | with_reducible refine ite_calm _ _ _ _ ?_ ?_
    | split)

@[simp] theorem State.assembleDom_calm (d : Nat) (s : State) : (State.assembleDom d s).calm = s.calm := by
  unfold State.assembleDom
  repeat' (first
    | with_reducible rfl
    | (simp only [State.forceTarget_calm, State.modDm_calm, State.raise_calm, State.calm_mk, State.calm_eta])
    | with_reducible refine ite_calm _ _ _ _ ?_ ?_
    | split)

@[simp] theorem State.archFill_calm (n : Nat) (i : Nat) (w : List Word64) (poison : Bool) (s : State) :
    (State.archFill n i w poison s).calm = s.calm := by
  unfold State.archFill
  repeat' (first
    | with_reducible rfl
    | (simp only [State.calm_mk, State.calm_eta])
    | with_reducible refine ite_calm _ _ _ _ ?_ ?_
    | split)

/-! ## Resets -/

@[simp] theorem State.wipePage_calm (s : State) : (State.wipePage s).calm = s.calm := by
  unfold State.wipePage
  repeat' (first
    | with_reducible rfl
    | (simp only [State.calm_mk, State.calm_eta])
    | split)

/-! ## Access -/

@[simp] theorem State.violation_calm (id : Nat) (kind : Nat) (s : State) : (State.violation id kind s).calm = s.calm
    := by
  unfold State.violation
  repeat' (first
    | with_reducible rfl
    | (simp only [State.calm_mk, State.calm_eta])
    | split)

@[simp] theorem State.wakeReg_calm (r : Reg) (s : State) : (State.wakeReg r s).calm = s.calm := by
  unfold State.wakeReg
  repeat' (first
    | with_reducible rfl
    | (simp only [State.wakeClu_calm, State.wakeGaf_calm, State.calm_mk, State.calm_eta])
    | split)

@[simp] theorem State.stall_calm (row : Instr) (r : Reg) (s : State) : (State.stall row r s).calm = s.calm := by
  unfold State.stall
  repeat' (first
    | with_reducible rfl
    | (simp only [State.wakeReg_calm, State.calm_mk, State.calm_eta])
    | split)

@[simp] theorem State.regWrite_calm (row : Instr) (id : Nat) (off : Nat) (f : Reg → State → State) (s : State) (hf :
    ∀ r s, (f r s).calm = s.calm) : (State.regWrite row id off f s).calm = s.calm := by
  unfold State.regWrite
  repeat' (first
    | with_reducible rfl
    | (simp only [State.stall_calm, State.violation_calm, State.wakeReg_calm, hf, State.calm_mk, State.calm_eta])
    | with_reducible refine ite_calm _ _ _ _ ?_ ?_
    | split)

@[simp] theorem State.regReadDo_calm (row : Instr) (id : Nat) (off : Nat) (f : Reg → State → Nat × State) (s :
    State) (hf : ∀ r s, (f r s).2.calm = s.calm) : (State.regReadDo row id off f s).calm = s.calm := by
  unfold State.regReadDo
  repeat' (first
    | with_reducible rfl
    | (simp only [State.put_calm, State.stall_calm, State.violation_calm, State.wakeReg_calm, hf, State.calm_mk,
      State.calm_eta])
    | with_reducible refine ite_calm _ _ _ _ ?_ ?_
    | split)

/-! ## HostPort -/

@[simp] theorem State.ringOff_calm (k : Nat) (s : State) : (State.ringOff k s).calm = s.calm := by
  unfold State.ringOff
  repeat' (first
    | with_reducible rfl
    | (simp only [State.calm_mk, State.calm_eta])
    | split)

@[simp] theorem State.settleRings_calm (s : State) : (State.settleRings s).calm = s.calm := by
  unfold State.settleRings
  repeat' (first
    | with_reducible rfl
    | intro _
    | (simp only [State.ringOff_calm, State.calm_mk, State.calm_eta])
    | with_reducible refine ite_calm _ _ _ _ ?_ ?_
    | with_reducible refine (each_calm _ _ ?_ _).trans ?_
    | split)

@[simp] theorem State.settleReset_calm (s : State) : (State.settleReset s).calm = s.calm := by
  unfold State.settleReset
  repeat' (first
    | with_reducible rfl
    | (simp only [State.calm_mk, State.calm_eta])
    | with_reducible refine ite_calm _ _ _ _ ?_ ?_
    | split)

@[simp] theorem State.settleHost_calm (s : State) : (State.settleHost s).calm = s.calm := by
  unfold State.settleHost
  repeat' (first
    | with_reducible rfl
    | (simp only [State.settleReset_calm, State.settleRings_calm, State.calm_mk, State.calm_eta])
    | split)

@[simp] theorem State.dbRefuse_calm (s : State) : (State.dbRefuse s).calm = s.calm := by
  unfold State.dbRefuse
  repeat' (first
    | with_reducible rfl
    | (simp only [State.calm_mk, State.calm_eta])
    | split)

@[simp] theorem State.noSlot_calm (f : Fetched) (st : Status) (s : State) : (State.noSlot f st s).calm = s.calm :=
    by
  unfold State.noSlot
  repeat' (first
    | with_reducible rfl
    | (simp only [State.calm_mk, State.calm_eta])
    | with_reducible refine ite_calm _ _ _ _ ?_ ?_
    | split)

@[simp] theorem State.outOfScope_calm (slot : Nat) (kind : Nat) (c : Cmd) (s : State) : (State.outOfScope slot kind
    c s).calm = s.calm := by
  unfold State.outOfScope
  repeat' (first
    | with_reducible rfl
    | (simp only [State.complete_calm, State.violation_calm, State.calm_mk, State.calm_eta])
    | split)

@[simp] theorem State.opRow_calm (slot : Nat) (opc : Nat) (limits : Cmd → Bool) (check : Cmd → State → Option
    (Status × Nat)) (go : Cmd → State → State) (s : State) (hf : ∀ c s, (go c s).calm = s.calm) : (State.opRow slot
    opc limits check go s).calm = s.calm := by
  unfold State.opRow
  repeat' (first
    | with_reducible rfl
    | (simp only [State.complete_calm, State.limits_calm, State.memRead_calm, State.modCmd_calm, State.outOfScope_calm,
      hf, State.calm_mk, State.calm_eta])
    | with_reducible refine ite_calm _ _ _ _ ?_ ?_
    | split)

@[simp] theorem State.ackRing_calm (k : Nat) (s : State) : (State.ackRing k s).calm = s.calm := by
  unfold State.ackRing
  repeat' (first
    | with_reducible rfl
    | (simp only [State.fire_calm, State.writeIndex_calm, State.calm_mk, State.calm_eta])
    | with_reducible refine ite_calm _ _ _ _ ?_ ?_
    | split)

@[simp] theorem State.freeSlot_calm (slot : Nat) (s : State) : (State.freeSlot slot s).calm = s.calm := by
  unfold State.freeSlot
  repeat' (first
    | with_reducible rfl
    | (simp only [State.calm_mk, State.calm_eta])
    | with_reducible refine ite_calm _ _ _ _ ?_ ?_
    | split)

@[simp] theorem State.writeDone_calm (use : WrUse) (s : State) : (State.writeDone use s).calm = s.calm := by
  unfold State.writeDone
  repeat' (first
    | with_reducible rfl
    | (simp only [State.ackRing_calm, State.complete_calm, State.freeSlot_calm, State.noticeAcked_calm,
      State.probeAcked_calm, State.settleHost_calm, State.calm_mk, State.calm_eta])
    | with_reducible refine ite_calm _ _ _ _ ?_ ?_
    | split)

@[simp] theorem State.ringArm_calm (k : Nat) (s : State) : (State.ringArm k s).calm = s.calm := by
  unfold State.ringArm
  repeat' (first
    | with_reducible rfl
    | (simp only [State.startRead_calm, State.calm_mk, State.calm_eta])
    | with_reducible refine ite_calm _ _ _ _ ?_ ?_
    | split)

@[simp] theorem State.ringDown_calm (k : Nat) (s : State) : (State.ringDown k s).calm = s.calm := by
  unfold State.ringDown
  repeat' (first
    | with_reducible rfl
    | intro _
    | (simp only [State.complete_calm, State.dbRefuse_calm, State.calm_mk, State.calm_eta])
    | with_reducible refine ite_calm _ _ _ _ ?_ ?_
    | with_reducible refine (each_calm _ _ ?_ _).trans ?_
    | split)

@[simp] theorem State.ringsArm_calm (lo : Nat) (n : Nat) (v : Nat) (s : State) : (State.ringsArm lo n v s).calm =
    s.calm := by
  unfold State.ringsArm
  repeat' (first
    | with_reducible rfl
    | intro _
    | (simp only [State.ringArm_calm, State.calm_mk, State.calm_eta])
    | with_reducible refine (each_calm _ _ ?_ _).trans ?_
    | split)

@[simp] theorem State.ringsDown_calm (lo : Nat) (n : Nat) (v : Nat) (s : State) : (State.ringsDown lo n v s).calm =
    s.calm := by
  unfold State.ringsDown
  repeat' (first
    | with_reducible rfl
    | intro _
    | (simp only [State.ringDown_calm, State.settleHost_calm, State.calm_mk, State.calm_eta])
    | with_reducible refine (each_calm _ _ ?_ _).trans ?_
    | split)

@[simp] theorem State.ringEntered_calm (k : Nat) (w : List Word64) (poison : Bool) (s : State) : (State.ringEntered
    k w poison s).calm = s.calm := by
  unfold State.ringEntered
  repeat' (first
    | with_reducible rfl
    | (simp only [State.calm_mk, State.calm_eta])
    | with_reducible refine ite_calm _ _ _ _ ?_ ?_
    | split)

/-! ## CmdUnits -/

@[simp] theorem State.wakeDom_calm (d : Nat) (s : State) : (State.wakeDom d s).calm = s.calm := by
  unfold State.wakeDom
  repeat' (first
    | with_reducible rfl
    | intro _
    | (simp only [State.wakeClu_calm, State.calm_mk, State.calm_eta])
    | with_reducible refine (each_calm _ _ ?_ _).trans ?_
    | split)

@[simp] theorem State.perDomain_calm (slot : Nat) (ds : List Nat) (f : Nat → State → State) (s : State) (hf : ∀ d s,
    (f d s).calm = s.calm) : (State.perDomain slot ds f s).calm = s.calm := by
  unfold State.perDomain
  repeat' (first
    | with_reducible rfl
    | intro _
    | (simp only [State.complete_calm, State.endPart_calm, State.modCmd_calm, State.wakeDom_calm, hf, State.calm_mk,
      State.calm_eta])
    | with_reducible refine ite_calm _ _ _ _ ?_ ?_
    | with_reducible refine (each_calm _ _ ?_ _).trans ?_
    | split)

@[simp] theorem State.setPoint_calm (slot : Nat) (code : Nat) (rate : Nat) (c : Cmd) (s : State) : (State.setPoint
    slot code rate c s).calm = s.calm := by
  unfold State.setPoint
  repeat' (first
    | with_reducible rfl
    | (simp only [State.perDomain_calm, State.placeDom_calm, implies_true, State.calm_mk, State.calm_eta])
    | split)

@[simp] theorem State.loadBegin_calm (n : Nat) (s : State) : (State.loadBegin n s).calm = s.calm := by
  unfold State.loadBegin
  repeat' (first
    | with_reducible rfl
    | (simp only [State.modCl_calm, State.wakeClu_calm, State.calm_mk, State.calm_eta])
    | split)

@[simp] theorem State.loadBank_calm (slot : Nat) (c : Cmd) (s : State) : (State.loadBank slot c s).calm = s.calm :=
    by
  unfold State.loadBank
  repeat' (first
    | with_reducible rfl
    | intro _
    | (simp only [State.complete_calm, State.endPart_calm, State.loadBegin_calm, State.modChan_calm, State.modCmd_calm,
      State.startRead_calm, State.calm_mk, State.calm_eta])
    | with_reducible refine ite_calm _ _ _ _ ?_ ?_
    | with_reducible refine (each_calm _ _ ?_ _).trans ?_
    | split)

@[simp] theorem State.stopBanks_calm (n : Nat) (slot : Nat) (s : State) : (State.stopBanks n slot s).calm = s.calm
    := by
  unfold State.stopBanks
  repeat' (first
    | with_reducible rfl
    | intro _
    | (simp only [State.endPart_calm, State.modChan_calm, State.modCl_calm, State.supersedes_calm, State.calm_mk,
      State.calm_eta])
    | with_reducible refine (each_calm _ _ ?_ _).trans ?_
    | split)

@[simp] theorem State.disableCell_calm (n : Nat) (k : Nat) (s : State) : (State.disableCell n k s).calm = s.calm :=
    by
  unfold State.disableCell
  repeat' (first
    | with_reducible rfl
    | (simp only [State.carrierStart_calm, State.modCell_calm, State.modLane_calm, State.calm_mk, State.calm_eta])
    | with_reducible refine ite_calm _ _ _ _ ?_ ?_
    | split)

@[simp] theorem State.disableDom_calm (d : Nat) (slot : Nat) (s : State) : (State.disableDom d slot s).calm = s.calm
    := by
  unfold State.disableDom
  repeat' (first
    | with_reducible rfl
    | (simp only [State.dropStage_calm, State.endPart_calm, State.modDm_calm, State.supersedes_calm, State.unfade_calm,
      State.calm_mk, State.calm_eta])
    | with_reducible refine ite_calm _ _ _ _ ?_ ?_
    | split)

@[simp] theorem State.enableDom_calm (d : Nat) (s : State) : (State.enableDom d s).calm = s.calm := by
  unfold State.enableDom
  repeat' (first
    | with_reducible rfl
    | (simp only [State.closeUnit_calm, State.modDm_calm, State.calm_mk, State.calm_eta])
    | split)

@[simp] theorem State.enableCell_calm (n : Nat) (k : Nat) (s : State) : (State.enableCell n k s).calm = s.calm := by
  unfold State.enableCell
  repeat' (first
    | with_reducible rfl
    | (simp only [State.carrierStart_calm, State.cellEvent_calm, State.modCl_calm, State.wakeClu_calm, State.calm_mk,
      State.calm_eta])
    | with_reducible refine ite_calm _ _ _ _ ?_ ?_
    | split)

/-! ## CmdPlan -/

@[simp] theorem State.restartCtx_calm (c : Nat) (s : State) : (State.restartCtx c s).calm = s.calm := by
  unfold State.restartCtx
  repeat' (first
    | with_reducible rfl
    | (simp only [State.calm_mk, State.calm_eta])
    | with_reducible refine ite_calm _ _ _ _ ?_ ?_
    | split)

@[simp] theorem State.openCtx_calm (slot : Nat) (c : Cmd) (r : CtxRec) (imgs : List (List Word64)) (s : State) :
    (State.openCtx slot c r imgs s).calm = s.calm := by
  unfold State.openCtx
  repeat' (first
    | with_reducible rfl
    | intro _
    | (simp only [State.closeUnit_calm, State.complete_calm, State.modCl_calm, State.modCx_calm, State.restartCtx_calm,
      State.calm_mk, State.calm_eta])
    | with_reducible refine ite_calm _ _ _ _ ?_ ?_
    | with_reducible refine (each_calm _ _ ?_ _).trans ?_
    | split)

@[simp] theorem State.nextPred_calm (slot : Nat) (s : State) : (State.nextPred slot s).calm = s.calm := by
  unfold State.nextPred
  repeat' (first
    | with_reducible rfl
    | (simp only [State.openCtx_calm, State.startRead_calm, State.calm_mk, State.calm_eta])
    | with_reducible refine ite_calm _ _ _ _ ?_ ?_
    | split)

@[simp] theorem State.ctxRead_calm (slot : Nat) (w : List Word64) (poison : Bool) (s : State) : (State.ctxRead slot
    w poison s).calm = s.calm := by
  unfold State.ctxRead
  repeat' (first
    | with_reducible rfl
    | (simp only [State.complete_calm, State.memRead_calm, State.modCmd_calm, State.nextPred_calm, State.outOfScope_calm,
      State.calm_mk, State.calm_eta])
    | with_reducible refine ite_calm _ _ _ _ ?_ ?_
    | split)

@[simp] theorem State.predRead_calm (slot : Nat) (w : List Word64) (poison : Bool) (s : State) : (State.predRead
    slot w poison s).calm = s.calm := by
  unfold State.predRead
  repeat' (first
    | with_reducible rfl
    | (simp only [State.complete_calm, State.modCmd_calm, State.nextPred_calm, State.calm_mk, State.calm_eta])
    | with_reducible refine ite_calm _ _ _ _ ?_ ?_
    | split)

@[simp] theorem State.dropLoads_calm (slot : Nat) (c : Nat) (s : State) : (State.dropLoads slot c s).calm = s.calm
    := by
  unfold State.dropLoads
  repeat' (first
    | with_reducible rfl
    | intro _
    | (simp only [State.complete_calm, State.modCx_calm, State.supersedes_calm, State.calm_mk, State.calm_eta])
    | with_reducible refine (each_calm _ _ ?_ _).trans ?_
    | split)

@[simp] theorem State.loadFailed_calm (slot : Nat) (c : Nat) (k : Nat) (st : Status) (s : State) : (State.loadFailed
    slot c k st s).calm = s.calm := by
  unfold State.loadFailed
  repeat' (first
    | with_reducible rfl
    | (simp only [State.complete_calm, State.modCx_calm, State.startLoads_calm, State.calm_mk, State.calm_eta])
    | split)

@[simp] theorem State.reelRead_calm (slot : Nat) (w : List Word64) (poison : Bool) (s : State) : (State.reelRead
    slot w poison s).calm = s.calm := by
  unfold State.reelRead
  repeat' (first
    | with_reducible rfl
    | (simp only [State.complete_calm, State.loadFailed_calm, State.modCx_calm, State.prefetch_calm, State.reelReady_calm,
      State.staleReel_calm, State.startLoads_calm, State.storeReel_calm, State.calm_mk, State.calm_eta])
    | with_reducible refine ite_calm _ _ _ _ ?_ ?_
    | split)

/-! ## CmdMisc -/

@[simp] theorem State.cshFailed_calm (slot : Nat) (k : Nat) (s : State) : (State.cshFailed slot k s).calm = s.calm
    := by
  unfold State.cshFailed
  repeat' (first
    | with_reducible rfl
    | (simp only [State.complete_calm, State.calm_mk, State.calm_eta])
    | split)

@[simp] theorem State.cshNext_calm (slot : Nat) (s : State) : (State.cshNext slot s).calm = s.calm := by
  unfold State.cshNext
  repeat' (first
    | with_reducible rfl
    | (simp only [State.cshFailed_calm, State.startRead_calm, State.calm_mk, State.calm_eta])
    | with_reducible refine ite_calm _ _ _ _ ?_ ?_
    | split)

@[simp] theorem State.cshRead_calm (slot : Nat) (w : List Word64) (poison : Bool) (s : State) : (State.cshRead slot
    w poison s).calm = s.calm := by
  unfold State.cshRead
  repeat' (first
    | with_reducible rfl
    | (simp only [State.complete_calm, State.cshFailed_calm, State.cshNext_calm, State.modCmd_calm, State.startRead_calm,
      State.calm_mk, State.calm_eta])
    | with_reducible refine ite_calm _ _ _ _ ?_ ?_
    | split)

@[simp] theorem State.cshBankRead_calm (slot : Nat) (w : List Word64) (poison : Bool) (s : State) :
    (State.cshBankRead slot w poison s).calm = s.calm := by
  unfold State.cshBankRead
  repeat' (first
    | with_reducible rfl
    | (simp only [State.complete_calm, State.cshNext_calm, State.modCmd_calm, State.calm_mk, State.calm_eta])
    | with_reducible refine ite_calm _ _ _ _ ?_ ?_
    | split)

@[simp] theorem State.selfSample_calm (mism : BitVec 16) (seed : Nat) (i : Nat) (nops : Nat) (s : State) :
    (State.selfSample mism seed i nops s).2.calm = s.calm := by
  unfold State.selfSample
  repeat' (first
    | with_reducible rfl
    | intro _
    | (simp only [State.drawNat_calm, State.calm_mk, State.calm_eta])
    | with_reducible refine ite_calm _ _ _ _ ?_ ?_
    | with_reducible refine (foldl_calm _ _ ?_ _).trans ?_
    | with_reducible refine (foldl2_calm _ _ ?_ _).trans ?_
    | split)

theorem State.selfPairs_calm : ∀ (f : Nat) (s : State), (State.selfPairs f s).calm = s.calm
  | 0, _ => rfl
  | f + 1, s => by
    unfold State.selfPairs
    split
    · rfl
    · split
      · refine (State.selfPairs_calm f _).trans ?_
        split <;> split <;> simp only [State.complete_calm, State.raise_calm, State.calm_mk, State.calm_eta]
      · rfl

@[simp] theorem State.selfStep_calm (n : Nat) (mism : BitVec 16) (s : State) : (State.selfStep n mism s).calm =
    s.calm := by
  unfold State.selfStep
  repeat' (first
    | with_reducible rfl
    | (simp only [State.selfPairs_calm, State.selfSample_calm, State.calm_mk, State.calm_eta])
    | with_reducible refine ite_calm _ _ _ _ ?_ ?_
    | split)

@[simp] theorem State.marchZero_calm (mem : Nat) (n : Nat) (s : State) : (State.marchZero mem n s).calm = s.calm :=
    by
  unfold State.marchZero
  repeat' (first
    | with_reducible rfl
    | intro _
    | (simp only [State.modCl_calm, State.rezero_calm, State.calm_mk, State.calm_eta])
    | with_reducible refine (each_calm _ _ ?_ _).trans ?_
    | split)

@[simp] theorem State.marchSlots_calm (failing : Nat) (s : State) : (State.marchSlots failing s).calm = s.calm := by
  unfold State.marchSlots
  repeat' (first
    | with_reducible rfl
    | (simp only [State.drawNat_calm, State.calm_mk, State.calm_eta])
    | split)

@[simp] theorem State.marchBad_calm (mem : Nat) (n : Nat) (failing : Nat) (s : State) : (State.marchBad mem n
    failing s).calm = s.calm := by
  unfold State.marchBad
  repeat' (first
    | with_reducible rfl
    | (simp only [State.drawNat_calm, State.marchSlots_calm, State.memBad_calm, State.modCl_calm, State.calm_mk,
      State.calm_eta])
    | with_reducible refine ite_calm _ _ _ _ ?_ ?_
    | split)

@[simp] theorem State.pageAgain_calm (mem : Nat) (keep : Bool) (s : State) : (State.pageAgain mem keep s).calm =
    s.calm := by
  unfold State.pageAgain
  repeat' (first
    | with_reducible rfl
    | (simp only [State.calm_mk, State.calm_eta])
    | with_reducible refine ite_calm _ _ _ _ ?_ ?_
    | split)

@[simp] theorem State.stampBoundary_calm (s : State) : (State.stampBoundary s).calm = s.calm := by
  unfold State.stampBoundary
  repeat' (first
    | with_reducible rfl
    | intro _
    | (simp only [State.complete_calm, State.calm_mk, State.calm_eta])
    | with_reducible refine (each_calm _ _ ?_ _).trans ?_
    | split)

/-! ## Reads -/

@[simp] theorem State.bootBanks_calm (s : State) : (State.bootBanks s).calm = s.calm := by
  unfold State.bootBanks
  repeat' (first
    | with_reducible rfl
    | (simp only [State.startRead_calm, State.calm_mk, State.calm_eta])
    | split)

@[simp] theorem State.bootCsh_calm (w : List Word64) (poison : Bool) (s : State) : (State.bootCsh w poison s).calm =
    s.calm := by
  unfold State.bootCsh
  repeat' (first
    | with_reducible rfl
    | (simp only [State.bootBanks_calm, State.put_calm, State.startRead_calm, State.calm_mk, State.calm_eta])
    | with_reducible refine ite_calm _ _ _ _ ?_ ?_
    | split)

@[simp] theorem State.bootBank_calm (w : List Word64) (poison : Bool) (s : State) : (State.bootBank w poison s).calm
    = s.calm := by
  unfold State.bootBank
  repeat' (first
    | with_reducible rfl
    | (simp only [State.bootBanks_calm, State.calm_mk, State.calm_eta])
    | with_reducible refine ite_calm _ _ _ _ ?_ ?_
    | split)

@[simp] theorem State.descRead_calm (k : Nat) (idx : BitVec 32) (n : Nat) (age : Nat) (w : List Word64) (bads : List
    Nat) (s : State) : (State.descRead k idx n age w bads s).calm = s.calm := by
  unfold State.descRead
  repeat' (first
    | with_reducible rfl
    | (simp only [State.writeIndex_calm, State.calm_mk, State.calm_eta])
    | split)

@[simp] theorem State.bankRead_calm (slot : Nat) (w : List Word64) (poison : Bool) (s : State) : (State.bankRead
    slot w poison s).calm = s.calm := by
  unfold State.bankRead
  repeat' (first
    | with_reducible rfl
    | intro _
    | (simp only [State.bankLoaded_calm, State.calm_mk, State.calm_eta])
    | with_reducible refine ite_calm _ _ _ _ ?_ ?_
    | with_reducible refine (each_calm _ _ ?_ _).trans ?_
    | split)

@[simp] theorem State.deliver_calm (r : RdReq) (s : State) : (State.deliver r s).calm = s.calm := by
  unfold State.deliver
  repeat' (first
    | with_reducible rfl
    | (simp only [State.archFill_calm, State.bankRead_calm, State.bootBank_calm, State.bootCsh_calm,
      State.cshBankRead_calm, State.cshRead_calm, State.ctxRead_calm, State.descRead_calm, State.predRead_calm,
      State.probeVerdict_calm, State.rebankDone_calm, State.reelRead_calm, State.repredDone_calm,
      State.ringEntered_calm, State.calm_mk, State.calm_eta])
    | with_reducible refine ite_calm _ _ _ _ ?_ ?_
    | split)

@[simp] theorem State.cshGo_calm (v : Nat) (s : State) : (State.cshGo v s).calm = s.calm := by
  unfold State.cshGo
  repeat' (first
    | with_reducible rfl
    | (simp only [State.startRead_calm, State.calm_mk, State.calm_eta])
    | with_reducible refine ite_calm _ _ _ _ ?_ ?_
    | split)

/-! ## HostReset -/

@[simp] theorem State.abortReset_calm (slot : Nat) (s : State) : (State.abortReset slot s).calm = s.calm := by
  unfold State.abortReset
  repeat' (first
    | with_reducible rfl
    | (simp only [State.complete_calm, State.forget_calm, State.calm_mk, State.calm_eta])
    | with_reducible refine ite_calm _ _ _ _ ?_ ?_
    | split)

@[simp] theorem State.resetCtx_calm (c : Nat) (s : State) : (State.resetCtx c s).calm = s.calm := by
  unfold State.resetCtx
  repeat' (first
    | with_reducible rfl
    | (simp only [State.endHolds_calm, State.fire_calm, State.haltPlay_calm, State.modCx_calm, State.noticeAll_calm,
      State.unfeed_calm, State.withdrawCtx_calm, State.wmAdvance_calm, State.calm_mk, State.calm_eta])
    | with_reducible refine ite_calm _ _ _ _ ?_ ?_
    | split)

@[simp] theorem State.resetRamp_calm (d : Nat) (s : State) : (State.resetRamp d s).calm = s.calm := by
  unfold State.resetRamp
  repeat' (first
    | with_reducible rfl
    | (simp only [State.placeDom_calm, State.calm_mk, State.calm_eta])
    | with_reducible refine ite_calm _ _ _ _ ?_ ?_
    | split)

/-! ## IrqRows -/

@[simp] theorem State.vecTake_calm (p : Nat) (fast : Bool) (s : State) : (State.vecTake p fast s).2.calm = s.calm :=
    by
  unfold State.vecTake
  repeat' (first
    | with_reducible rfl
    | (simp only [State.irqDo_calm, State.calm_mk, State.calm_eta])
    | split)

/-! ## RegValues -/

@[simp] theorem State.pairRead_calm (id : Nat) (key : Nat) (v : Nat) (hi : Bool) (s : State) : (State.pairRead id
    key v hi s).2.calm = s.calm := by
  unfold State.pairRead
  repeat' (first
    | with_reducible rfl
    | (simp only [State.put_calm, State.calm_mk, State.calm_eta])
    | with_reducible refine ite_calm _ _ _ _ ?_ ?_
    | split)

@[simp] theorem State.regRead_calm (id : Nat) (r : Reg) (s : State) : (State.regRead id r s).2.calm = s.calm := by
  unfold State.regRead
  repeat' (first
    | with_reducible rfl
    | (simp only [State.pairRead_calm, State.queuePop_calm, State.vecTake_calm, State.calm_mk, State.calm_eta])
    | with_reducible refine ite_calm _ _ _ _ ?_ ?_
    | split)

/-! ## RegWrites -/

@[simp] theorem State.injectActs_calm (code : Nat) (unit : Nat) (s : State) : (State.injectActs code unit s).calm =
    s.calm := by
  unfold State.injectActs
  repeat' (first
    | with_reducible rfl
    | (simp only [State.cellEvent_calm, State.modDm_calm, State.modLane_calm, State.phaseTrig_calm, State.calm_mk,
      State.calm_eta])
    | with_reducible refine ite_calm _ _ _ _ ?_ ?_
    | split)

@[simp] theorem State.injectCmp_calm (unit : Nat) (which : Nat) (s : State) : (State.injectCmp unit which s).calm =
    s.calm := by
  unfold State.injectCmp
  repeat' (first
    | with_reducible rfl
    | (simp only [State.kickNow_calm, State.shuntNow_calm, State.truncNow_calm, State.calm_mk, State.calm_eta])
    | with_reducible refine ite_calm _ _ _ _ ?_ ?_
    | split)

@[simp] theorem State.wLcReq_calm (id : Nat) (v : Word32) (be : BitVec 4) (s : State) : (State.wLcReq id v be
    s).calm = s.calm := by
  unfold State.wLcReq
  repeat' (first
    | with_reducible rfl
    | (simp only [State.put_calm, State.violation_calm, State.calm_mk, State.calm_eta])
    | with_reducible refine ite_calm _ _ _ _ ?_ ?_
    | split)

@[simp] theorem State.wCfg_calm (n : Nat) (f : CluCfg → CluCfg) (s : State) : (State.wCfg n f s).calm = s.calm := by
  unfold State.wCfg
  repeat' (first
    | with_reducible rfl
    | (simp only [State.modCl_calm, State.calm_mk, State.calm_eta])
    | split)

@[simp] theorem State.wUrg_calm (n : Nat) (v : Word32) (be : BitVec 4) (s : State) : (State.wUrg n v be s).calm =
    s.calm := by
  unfold State.wUrg
  repeat' (first
    | with_reducible rfl
    | (simp only [State.modSense_calm, State.singleShot_calm, State.calm_mk, State.calm_eta])
    | with_reducible refine ite_calm _ _ _ _ ?_ ?_
    | split)

@[simp] theorem State.wSltStat_calm (x : Nat) (s : State) : (State.wSltStat x s).calm = s.calm := by
  unfold State.wSltStat
  repeat' (first
    | with_reducible rfl
    | (simp only [State.closeUnit_calm, State.modSlt_calm, State.calm_mk, State.calm_eta])
    | with_reducible refine ite_calm _ _ _ _ ?_ ?_
    | split)

@[simp] theorem Reg.gafClear_calm (r : Reg) (x : Nat) (s : State) : (Reg.gafClear r x s).calm = s.calm := by
  unfold Reg.gafClear
  repeat' (first
    | with_reducible rfl
    | intro _
    | (simp only [State.cshGo_calm, State.fire_calm, State.irqDo_calm, State.modChan_calm, State.modCx_calm,
      State.modSlt_calm, State.pageLate_calm, State.ringsArm_calm, State.ringsDown_calm, State.wSltStat_calm,
      State.calm_mk, State.calm_eta])
    | with_reducible refine ite_calm _ _ _ _ ?_ ?_
    | with_reducible refine (each_calm _ _ ?_ _).trans ?_
    | split)

/-! ## Sleep -/

@[simp] theorem State.watchIdle_calm (n : Nat) (s : State) : (State.watchIdle n s).calm = s.calm := by
  unfold State.watchIdle
  repeat' (first
    | with_reducible rfl
    | (simp only [State.modCl_calm, State.calm_mk, State.calm_eta])
    | with_reducible refine ite_calm _ _ _ _ ?_ ?_
    | split)

@[simp] theorem State.watchGaf_calm (s : State) : (State.watchGaf s).calm = s.calm := by
  unfold State.watchGaf
  repeat' (first
    | with_reducible rfl
    | (simp only [State.calm_mk, State.calm_eta])
    | with_reducible refine ite_calm _ _ _ _ ?_ ?_
    | split)

@[simp] theorem State.sleepClu_calm (n : Nat) (s : State) : (State.sleepClu n s).calm = s.calm := by
  unfold State.sleepClu
  repeat' (first
    | with_reducible rfl
    | (simp only [State.endVolt_calm, State.modCl_calm, State.noteParks_calm, State.calm_mk, State.calm_eta])
    | with_reducible refine ite_calm _ _ _ _ ?_ ?_
    | split)

/-! ## Sample -/

@[simp] theorem State.atBoundary_calm (s : State) : (State.atBoundary s).calm = s.calm := by
  unfold State.atBoundary
  repeat' (first
    | with_reducible rfl
    | (simp only [State.ctxBoundary_calm, State.slateCtxLeft_calm, State.stampBoundary_calm, State.calm_mk,
      State.calm_eta])
    | split)

@[simp] theorem State.busOff_calm (n : Nat) (s : State) : (State.busOff n s).calm = s.calm := by
  unfold State.busOff
  repeat' (first
    | with_reducible rfl
    | (simp only [State.modCl_calm, State.calm_mk, State.calm_eta])
    | with_reducible refine ite_calm _ _ _ _ ?_ ?_
    | split)

@[simp] theorem State.cfgIn_calm (n : Nat) (s : State) : (State.cfgIn n s).calm = s.calm := by
  unfold State.cfgIn
  repeat' (first
    | with_reducible rfl
    | (simp only [State.busOff_calm, State.modCl_calm, State.calm_mk, State.calm_eta])
    | split)

/-! ## The operations that change calm parts -/

@[simp] theorem State.advance_calm (t : Nat) (s : State) :
    (s.advance t).calm = { s.calm with elapsed := s.elapsed + t } := rfl

@[simp] theorem State.advanceTo_calm (t : Nat) (s : State) :
    (s.advanceTo t).calm = { s.calm with elapsed := max s.elapsed t } := by
  unfold State.advanceTo
  split
  · rename_i h
    rw [State.advance_calm, show s.elapsed + (t - s.elapsed) = max s.elapsed t by omega]
  · rename_i h
    rw [show max s.elapsed t = s.elapsed by omega]; rfl

@[simp] theorem State.fresh_calm (s : State) :
    s.fresh.calm = { State.reset.calm with pending := s.pending, vaon := s.vaon, supply := s.supply } := rfl

@[simp] theorem State.keepWatch_calm (s t : State) :
    (s.keepWatch t).calm = { t.calm with
      elapsed := s.elapsed, oscPhase := s.oscPhase, trip := s.trip, tripClu := s.tripClu, thermtripN := !s.trip } := rfl

/-- The critical trip latches, and ZN_THERMTRIP_N falls with it. -/
@[simp] theorem State.tripNow_calm (n : Nat) (s : State) :
    (s.tripNow n).calm = if s.trip then s.calm else { s.calm with trip := true, tripClu := n, thermtripN := false } := by
  unfold State.tripNow
  split
  · rfl
  · dsimp only
    rw [State.raise_calm, State.wakeClu_calm, each_calm _ _ (fun _ _ => by rw [State.put_calm]), State.throttleAll_calm,
      State.noteParks_calm, State.parkAll_calm]
    rfl

@[simp] theorem State.applySheet_calm (new : CallSheet) (s : State) :
    (s.applySheet new).calm = { s.calm with csh := some new } := by
  unfold State.applySheet
  dsimp only
  rw [State.slatePorts_calm, each_calm _ _ (fun _ _ => by rw [State.retarget_calm]), State.vinJudge_calm,
    ite_calm _ _ _ _ rfl (each_calm _ _ (fun _ _ => by rw [State.takeFsw_calm]) _), State.keepS3_calm,
    each_calm _ _ (fun _ _ => by
      split
      · rfl
      · split <;> simp only [State.raise_calm, State.modDm_calm, State.changePool_calm])]
  rfl

@[simp] theorem State.acceptSheet_calm (cs : CallSheet) (s : State) :
    (s.acceptSheet cs).calm = { s.calm with csh := some cs } := by
  unfold State.acceptSheet
  dsimp only
  rw [State.throttleAll_calm, State.avsStart_calm, State.vinJudge_calm,
    each_calm _ _ (fun _ _ => by rw [State.modChan_calm]),
    each_calm _ _ (fun _ _ => by rw [State.modCl_calm, State.takeFsw_calm])]
  rfl

theorem State.wEpoch_calm (id : Nat) (hi : Bool) (v : Word32) (be : BitVec 4) (s : State) :
    (s.wEpoch id hi v be).calm = { s.calm with epoch := (s.wEpoch id hi v be).epoch } := by
  unfold State.wEpoch
  dsimp only
  split <;> rfl

/-- A sample of a cluster moves time on, and nothing else of the calm parts. -/
theorem State.controlSample_calm (n : Nat) (mism : BitVec 16) (s : State) :
    ∃ e, s.elapsed ≤ e ∧ (s.controlSample n mism).calm = { s.calm with elapsed := e } := by
  unfold State.controlSample
  have key : ∀ (u : State) (k : Nat), ({ u with freeCtr := k } : State).calm = u.calm := fun _ _ => rfl
  split
  · refine ⟨max s.elapsed (s.cl n).ctl.sampleAt, by omega, ?_⟩
    simp only [State.throttle_calm, State.modCl_calm, State.sawSample_calm, State.predict_calm, State.decayRc_calm,
      State.creditSamples_calm, State.cellsSample_calm, key]
    rw [each_calm _ _ (fun _ _ => by rw [State.halfSample_calm, State.forecastHalf_calm]), State.parkReports_calm, State.modCl_calm,
      State.advanceTo_calm]
  · exact ⟨s.elapsed, by omega, rfl⟩

theorem State.sampleStep_calm (n : Nat) (mism : BitVec 16) (s : State) :
    ∃ e, s.elapsed ≤ e ∧ (s.sampleStep n mism).calm = { s.calm with elapsed := e } := by
  unfold State.sampleStep
  simp only [State.watchIdle_calm, State.endPhases_calm, State.selfStep_calm, State.probeCheck_calm, State.guardAll_calm]
  rw [each_calm _ _ (fun _ _ => by rw [State.shadowCheck_calm])]
  generalize hx : ((((s.advanceTo (s.cl n).ctl.sampleAt).atBoundary).cfgIn n).memRead 0 n none).memRead _ n none = x
  generalize hy : each ((x.memRead 3 n none).sheet.allCells n) (fun k s => s.carrierStart n k) (x.memRead 3 n none) = y
  obtain ⟨e, he, h⟩ := State.controlSample_calm n mism y
  have hx' : x.calm = { s.calm with elapsed := max s.elapsed (s.cl n).ctl.sampleAt } := by
    rw [← hx]; simp only [State.memRead_calm, State.cfgIn_calm, State.atBoundary_calm, State.advanceTo_calm]
  have h2 : y.calm = { s.calm with elapsed := max s.elapsed (s.cl n).ctl.sampleAt } := by
    rw [← hy, each_calm _ _ (fun _ _ => by rw [State.carrierStart_calm]), State.memRead_calm, hx']
  refine ⟨e, ?_, ?_⟩
  · have : y.elapsed = max s.elapsed (s.cl n).ctl.sampleAt := congrArg Calm.elapsed h2
    omega
  · rw [h, h2]

/-- A fault injection trips, or leaves the calm parts as they were. -/
theorem State.injectRaise_calm (code unit cls : Nat) (s : State) :
    (s.injectRaise code unit cls).calm = s.calm ∨
      ∃ n, (s.injectRaise code unit cls).calm = { s.calm with trip := true, tripClu := n, thermtripN := false } := by
  unfold State.injectRaise
  split
  · exact .inl rfl
  · dsimp only
    generalize (if (1 ≤ cls && cls ≤ 4) = true then cls else _) = c
    split
    · rename_i h
      right
      refine ⟨s.hottest, ?_⟩
      have ht : s.trip = false := by simp_all
      unfold State.injected
      simp only [if_true]
      show (State.tripNow s.hottest _).calm = _
      rw [State.tripNow_calm]
      show (if s.trip then _ else _) = _
      rw [ht]; rfl
    · left
      rw [State.collect_calm]
      generalize hy : (if (code == 0x012 && c == 4) = true then _ else s) = y
      have ey : y.calm = s.calm := by
        rw [← hy]
        split
        · split
          · exact each_calm _ _ (fun _ _ => by rw [State.ledgerLost_calm]) _
          · rfl
        · rfl
      generalize hz : (if (c == 3 && _ == 3) = true then State.injectActs code unit y else y) = z
      have ez : z.calm = s.calm := by
        rw [← hz, ← ey]
        split
        · rw [State.injectActs_calm]
        · rfl
      rw [← ez]
      split
      · rw [State.drawNat_calm]
      · rfl

theorem State.injectNow_calm (s : State) :
    s.injectNow.calm = s.calm ∨ ∃ n, s.injectNow.calm = { s.calm with trip := true, tripClu := n, thermtripN := false } := by
  unfold State.injectNow
  dsimp only
  split
  · exact State.injectRaise_calm _ _ _ s
  · left
    split
    · rw [State.injectCmp_calm]
    · generalize (if (fld s.flt.injReg.toNat 1 3 == 3) = true then 1 else fld s.flt.injArg.toNat 16 8) = left
      split <;> rfl

theorem State.wInj_calm (v : Word32) (be : BitVec 4) (s : State) :
    (s.wInj v be).calm = s.calm ∨
      ∃ n, (s.wInj v be).calm = { s.calm with trip := true, tripClu := n, thermtripN := false } := by
  unfold State.wInj
  split
  · exact .inl rfl
  · dsimp only
    split
    · rcases State.injectNow_calm { s with flt := { s.flt with injReg := _ } } with h | ⟨n, h⟩
      · exact .inl h
      · exact .inr ⟨n, h⟩
    · exact .inl rfl

/-- A register write may trip through the injection register, may set the epoch, and changes nothing else of the calm
parts. -/
theorem State.regStore_calm (id : Nat) (v : Word32) (be : BitVec 4) (r : Reg) (s : State) :
    ∃ e, (s.regStore id v be r).calm = { s.calm with epoch := e } ∨
      ∃ n, (s.regStore id v be r).calm = { s.calm with trip := true, tripClu := n, thermtripN := false } := by
  by_cases h1 : ∃ hi, r = .epoch hi
  · obtain ⟨hi, rfl⟩ := h1
    exact ⟨_, .inl (State.wEpoch_calm id hi v be s)⟩
  by_cases h2 : r = .fltInj
  · subst h2
    rcases State.wInj_calm v be s with h | ⟨n, h⟩
    · exact ⟨s.epoch, .inl h⟩
    · exact ⟨s.epoch, .inr ⟨n, h⟩⟩
  refine ⟨s.epoch, .inl ?_⟩
  show (s.regStore id v be r).calm = s.calm
  unfold State.regStore
  dsimp only
  split
  · exact absurd ⟨_, rfl⟩ h1
  all_goals first
    | rfl
    | exact absurd rfl h2
    | simp only [State.wCfg_calm, State.wUrg_calm, State.irqDo_calm, State.wLcReq_calm]
    | (split <;> first | rfl | simp only [State.irqDo_calm, State.modCl_calm, Reg.gafClear_calm])

end Sys2Proof.Machine
end

