-- ==== Sys2Proof/Laws/State.lean ====
section
/-! SUPPORT. Every field of State after every plain update of it. -/

namespace Sys2Proof.Machine
open Sys2Proof

/-! ## put -/

@[simp] theorem put_pending (o : Out) (s : State) : (s.put o).pending = s.pending := rfl
@[simp] theorem put_freeCtr (o : Out) (s : State) : (s.put o).freeCtr = s.freeCtr := rfl
@[simp] theorem put_elapsed (o : Out) (s : State) : (s.put o).elapsed = s.elapsed := rfl
@[simp] theorem put_oscPhase (o : Out) (s : State) : (s.put o).oscPhase = s.oscPhase := rfl
@[simp] theorem put_vaon (o : Out) (s : State) : (s.put o).vaon = s.vaon := rfl
@[simp] theorem put_supply (o : Out) (s : State) : (s.put o).supply = s.supply := rfl
@[simp] theorem put_epoch (o : Out) (s : State) : (s.put o).epoch = s.epoch := rfl
@[simp] theorem put_sync (o : Out) (s : State) : (s.put o).sync = s.sync := rfl
@[simp] theorem put_edgeKey (o : Out) (s : State) : (s.put o).edgeKey = s.edgeKey := rfl
@[simp] theorem put_clu (o : Out) (s : State) : (s.put o).clu = s.clu := rfl
@[simp] theorem put_dom (o : Out) (s : State) : (s.put o).dom = s.dom := rfl
@[simp] theorem put_csh (o : Out) (s : State) : (s.put o).csh = s.csh := rfl
@[simp] theorem put_cshNew (o : Out) (s : State) : (s.put o).cshNew = s.cshNew := rfl
@[simp] theorem put_assembled (o : Out) (s : State) : (s.put o).assembled = s.assembled := rfl
@[simp] theorem put_ctx (o : Out) (s : State) : (s.put o).ctx = s.ctx := rfl
@[simp] theorem put_cueQ (o : Out) (s : State) : (s.put o).cueQ = s.cueQ := rfl
@[simp] theorem put_cueDrop (o : Out) (s : State) : (s.put o).cueDrop = s.cueDrop := rfl
@[simp] theorem put_cueSkip (o : Out) (s : State) : (s.put o).cueSkip = s.cueSkip := rfl
@[simp] theorem put_up (o : Out) (s : State) : (s.put o).up = s.up := rfl
@[simp] theorem put_msgs (o : Out) (s : State) : (s.put o).msgs = s.msgs := rfl
@[simp] theorem put_reclaim (o : Out) (s : State) : (s.put o).reclaim = s.reclaim := rfl
@[simp] theorem put_ledgerErr (o : Out) (s : State) : (s.put o).ledgerErr = s.ledgerErr := rfl
@[simp] theorem put_bal (o : Out) (s : State) : (s.put o).bal = s.bal := rfl
@[simp] theorem put_busSeq (o : Out) (s : State) : (s.put o).busSeq = s.busSeq := rfl
@[simp] theorem put_busAt (o : Out) (s : State) : (s.put o).busAt = s.busAt := rfl
@[simp] theorem put_busDue (o : Out) (s : State) : (s.put o).busDue = s.busDue := rfl
@[simp] theorem put_trigs (o : Out) (s : State) : (s.put o).trigs = s.trigs := rfl
@[simp] theorem put_slt (o : Out) (s : State) : (s.put o).slt = s.slt := rfl
@[simp] theorem put_ch (o : Out) (s : State) : (s.put o).ch = s.ch := rfl
@[simp] theorem put_vrtCfg (o : Out) (s : State) : (s.put o).vrtCfg = s.vrtCfg := rfl
@[simp] theorem put_vrtCap (o : Out) (s : State) : (s.put o).vrtCap = s.vrtCap := rfl
@[simp] theorem put_host (o : Out) (s : State) : (s.put o).host = s.host := rfl
@[simp] theorem put_flt (o : Out) (s : State) : (s.put o).flt = s.flt := rfl
@[simp] theorem put_irq (o : Out) (s : State) : (s.put o).irq = s.irq := rfl
@[simp] theorem put_nv (o : Out) (s : State) : (s.put o).nv = s.nv := rfl
@[simp] theorem put_stamps (o : Out) (s : State) : (s.put o).stamps = s.stamps := rfl
@[simp] theorem put_probes (o : Out) (s : State) : (s.put o).probes = s.probes := rfl
@[simp] theorem put_selft (o : Out) (s : State) : (s.put o).selft = s.selft := rfl
@[simp] theorem put_march (o : Out) (s : State) : (s.put o).march = s.march := rfl
@[simp] theorem put_sec (o : Out) (s : State) : (s.put o).sec = s.sec := rfl
@[simp] theorem put_latches (o : Out) (s : State) : (s.put o).latches = s.latches := rfl
@[simp] theorem put_epochLo (o : Out) (s : State) : (s.put o).epochLo = s.epochLo := rfl
@[simp] theorem put_board (o : Out) (s : State) : (s.put o).board = s.board := rfl
@[simp] theorem put_buses (o : Out) (s : State) : (s.put o).buses = s.buses := rfl
@[simp] theorem put_legacy (o : Out) (s : State) : (s.put o).legacy = s.legacy := rfl
@[simp] theorem put_boot (o : Out) (s : State) : (s.put o).boot = s.boot := rfl
@[simp] theorem put_vin (o : Out) (s : State) : (s.put o).vin = s.vin := rfl
@[simp] theorem put_trip (o : Out) (s : State) : (s.put o).trip = s.trip := rfl
@[simp] theorem put_tripClu (o : Out) (s : State) : (s.put o).tripClu = s.tripClu := rfl
@[simp] theorem put_pins (o : Out) (s : State) : (s.put o).pins = s.pins := rfl
@[simp] theorem put_pow (o : Out) (s : State) : (s.put o).pow = s.pow := rfl
@[simp] theorem put_gafClock (o : Out) (s : State) : (s.put o).gafClock = s.gafClock := rfl
@[simp] theorem put_gafIdle (o : Out) (s : State) : (s.put o).gafIdle = s.gafIdle := rfl
@[simp] theorem put_stalled (o : Out) (s : State) : (s.put o).stalled = s.stalled := rfl
@[simp] theorem put_sramCorr (o : Out) (s : State) : (s.put o).sramCorr = s.sramCorr := rfl
@[simp] theorem put_secCorr (o : Out) (s : State) : (s.put o).secCorr = s.secCorr := rfl
@[simp] theorem put_retCorr (o : Out) (s : State) : (s.put o).retCorr = s.retCorr := rfl

/-! ## modCl -/

@[simp] theorem modCl_pending (n : Nat) (f : Cluster → Cluster) (s : State) : (s.modCl n f).pending = s.pending := rfl
@[simp] theorem modCl_out (n : Nat) (f : Cluster → Cluster) (s : State) : (s.modCl n f).out = s.out := rfl
@[simp] theorem modCl_freeCtr (n : Nat) (f : Cluster → Cluster) (s : State) : (s.modCl n f).freeCtr = s.freeCtr := rfl
@[simp] theorem modCl_elapsed (n : Nat) (f : Cluster → Cluster) (s : State) : (s.modCl n f).elapsed = s.elapsed := rfl
@[simp] theorem modCl_oscPhase (n : Nat) (f : Cluster → Cluster) (s : State) : (s.modCl n f).oscPhase = s.oscPhase := rfl
@[simp] theorem modCl_vaon (n : Nat) (f : Cluster → Cluster) (s : State) : (s.modCl n f).vaon = s.vaon := rfl
@[simp] theorem modCl_supply (n : Nat) (f : Cluster → Cluster) (s : State) : (s.modCl n f).supply = s.supply := rfl
@[simp] theorem modCl_epoch (n : Nat) (f : Cluster → Cluster) (s : State) : (s.modCl n f).epoch = s.epoch := rfl
@[simp] theorem modCl_sync (n : Nat) (f : Cluster → Cluster) (s : State) : (s.modCl n f).sync = s.sync := rfl
@[simp] theorem modCl_edgeKey (n : Nat) (f : Cluster → Cluster) (s : State) : (s.modCl n f).edgeKey = s.edgeKey := rfl
@[simp] theorem modCl_dom (n : Nat) (f : Cluster → Cluster) (s : State) : (s.modCl n f).dom = s.dom := rfl
@[simp] theorem modCl_csh (n : Nat) (f : Cluster → Cluster) (s : State) : (s.modCl n f).csh = s.csh := rfl
@[simp] theorem modCl_cshNew (n : Nat) (f : Cluster → Cluster) (s : State) : (s.modCl n f).cshNew = s.cshNew := rfl
@[simp] theorem modCl_assembled (n : Nat) (f : Cluster → Cluster) (s : State) : (s.modCl n f).assembled = s.assembled := rfl
@[simp] theorem modCl_ctx (n : Nat) (f : Cluster → Cluster) (s : State) : (s.modCl n f).ctx = s.ctx := rfl
@[simp] theorem modCl_cueQ (n : Nat) (f : Cluster → Cluster) (s : State) : (s.modCl n f).cueQ = s.cueQ := rfl
@[simp] theorem modCl_cueDrop (n : Nat) (f : Cluster → Cluster) (s : State) : (s.modCl n f).cueDrop = s.cueDrop := rfl
@[simp] theorem modCl_cueSkip (n : Nat) (f : Cluster → Cluster) (s : State) : (s.modCl n f).cueSkip = s.cueSkip := rfl
@[simp] theorem modCl_up (n : Nat) (f : Cluster → Cluster) (s : State) : (s.modCl n f).up = s.up := rfl
@[simp] theorem modCl_msgs (n : Nat) (f : Cluster → Cluster) (s : State) : (s.modCl n f).msgs = s.msgs := rfl
@[simp] theorem modCl_reclaim (n : Nat) (f : Cluster → Cluster) (s : State) : (s.modCl n f).reclaim = s.reclaim := rfl
@[simp] theorem modCl_ledgerErr (n : Nat) (f : Cluster → Cluster) (s : State) : (s.modCl n f).ledgerErr = s.ledgerErr := rfl
@[simp] theorem modCl_bal (n : Nat) (f : Cluster → Cluster) (s : State) : (s.modCl n f).bal = s.bal := rfl
@[simp] theorem modCl_busSeq (n : Nat) (f : Cluster → Cluster) (s : State) : (s.modCl n f).busSeq = s.busSeq := rfl
@[simp] theorem modCl_busAt (n : Nat) (f : Cluster → Cluster) (s : State) : (s.modCl n f).busAt = s.busAt := rfl
@[simp] theorem modCl_busDue (n : Nat) (f : Cluster → Cluster) (s : State) : (s.modCl n f).busDue = s.busDue := rfl
@[simp] theorem modCl_trigs (n : Nat) (f : Cluster → Cluster) (s : State) : (s.modCl n f).trigs = s.trigs := rfl
@[simp] theorem modCl_slt (n : Nat) (f : Cluster → Cluster) (s : State) : (s.modCl n f).slt = s.slt := rfl
@[simp] theorem modCl_ch (n : Nat) (f : Cluster → Cluster) (s : State) : (s.modCl n f).ch = s.ch := rfl
@[simp] theorem modCl_vrtCfg (n : Nat) (f : Cluster → Cluster) (s : State) : (s.modCl n f).vrtCfg = s.vrtCfg := rfl
@[simp] theorem modCl_vrtCap (n : Nat) (f : Cluster → Cluster) (s : State) : (s.modCl n f).vrtCap = s.vrtCap := rfl
@[simp] theorem modCl_host (n : Nat) (f : Cluster → Cluster) (s : State) : (s.modCl n f).host = s.host := rfl
@[simp] theorem modCl_flt (n : Nat) (f : Cluster → Cluster) (s : State) : (s.modCl n f).flt = s.flt := rfl
@[simp] theorem modCl_irq (n : Nat) (f : Cluster → Cluster) (s : State) : (s.modCl n f).irq = s.irq := rfl
@[simp] theorem modCl_nv (n : Nat) (f : Cluster → Cluster) (s : State) : (s.modCl n f).nv = s.nv := rfl
@[simp] theorem modCl_stamps (n : Nat) (f : Cluster → Cluster) (s : State) : (s.modCl n f).stamps = s.stamps := rfl
@[simp] theorem modCl_probes (n : Nat) (f : Cluster → Cluster) (s : State) : (s.modCl n f).probes = s.probes := rfl
@[simp] theorem modCl_selft (n : Nat) (f : Cluster → Cluster) (s : State) : (s.modCl n f).selft = s.selft := rfl
@[simp] theorem modCl_march (n : Nat) (f : Cluster → Cluster) (s : State) : (s.modCl n f).march = s.march := rfl
@[simp] theorem modCl_sec (n : Nat) (f : Cluster → Cluster) (s : State) : (s.modCl n f).sec = s.sec := rfl
@[simp] theorem modCl_latches (n : Nat) (f : Cluster → Cluster) (s : State) : (s.modCl n f).latches = s.latches := rfl
@[simp] theorem modCl_epochLo (n : Nat) (f : Cluster → Cluster) (s : State) : (s.modCl n f).epochLo = s.epochLo := rfl
@[simp] theorem modCl_board (n : Nat) (f : Cluster → Cluster) (s : State) : (s.modCl n f).board = s.board := rfl
@[simp] theorem modCl_buses (n : Nat) (f : Cluster → Cluster) (s : State) : (s.modCl n f).buses = s.buses := rfl
@[simp] theorem modCl_legacy (n : Nat) (f : Cluster → Cluster) (s : State) : (s.modCl n f).legacy = s.legacy := rfl
@[simp] theorem modCl_boot (n : Nat) (f : Cluster → Cluster) (s : State) : (s.modCl n f).boot = s.boot := rfl
@[simp] theorem modCl_vin (n : Nat) (f : Cluster → Cluster) (s : State) : (s.modCl n f).vin = s.vin := rfl
@[simp] theorem modCl_trip (n : Nat) (f : Cluster → Cluster) (s : State) : (s.modCl n f).trip = s.trip := rfl
@[simp] theorem modCl_tripClu (n : Nat) (f : Cluster → Cluster) (s : State) : (s.modCl n f).tripClu = s.tripClu := rfl
@[simp] theorem modCl_pins (n : Nat) (f : Cluster → Cluster) (s : State) : (s.modCl n f).pins = s.pins := rfl
@[simp] theorem modCl_pow (n : Nat) (f : Cluster → Cluster) (s : State) : (s.modCl n f).pow = s.pow := rfl
@[simp] theorem modCl_gafClock (n : Nat) (f : Cluster → Cluster) (s : State) : (s.modCl n f).gafClock = s.gafClock := rfl
@[simp] theorem modCl_gafIdle (n : Nat) (f : Cluster → Cluster) (s : State) : (s.modCl n f).gafIdle = s.gafIdle := rfl
@[simp] theorem modCl_stalled (n : Nat) (f : Cluster → Cluster) (s : State) : (s.modCl n f).stalled = s.stalled := rfl
@[simp] theorem modCl_sramCorr (n : Nat) (f : Cluster → Cluster) (s : State) : (s.modCl n f).sramCorr = s.sramCorr := rfl
@[simp] theorem modCl_secCorr (n : Nat) (f : Cluster → Cluster) (s : State) : (s.modCl n f).secCorr = s.secCorr := rfl
@[simp] theorem modCl_retCorr (n : Nat) (f : Cluster → Cluster) (s : State) : (s.modCl n f).retCorr = s.retCorr := rfl

/-! ## modCell -/

@[simp] theorem modCell_pending (n k : Nat) (f : Cell → Cell) (s : State) : (s.modCell n k f).pending = s.pending := rfl
@[simp] theorem modCell_out (n k : Nat) (f : Cell → Cell) (s : State) : (s.modCell n k f).out = s.out := rfl
@[simp] theorem modCell_freeCtr (n k : Nat) (f : Cell → Cell) (s : State) : (s.modCell n k f).freeCtr = s.freeCtr := rfl
@[simp] theorem modCell_elapsed (n k : Nat) (f : Cell → Cell) (s : State) : (s.modCell n k f).elapsed = s.elapsed := rfl
@[simp] theorem modCell_oscPhase (n k : Nat) (f : Cell → Cell) (s : State) : (s.modCell n k f).oscPhase = s.oscPhase := rfl
@[simp] theorem modCell_vaon (n k : Nat) (f : Cell → Cell) (s : State) : (s.modCell n k f).vaon = s.vaon := rfl
@[simp] theorem modCell_supply (n k : Nat) (f : Cell → Cell) (s : State) : (s.modCell n k f).supply = s.supply := rfl
@[simp] theorem modCell_epoch (n k : Nat) (f : Cell → Cell) (s : State) : (s.modCell n k f).epoch = s.epoch := rfl
@[simp] theorem modCell_sync (n k : Nat) (f : Cell → Cell) (s : State) : (s.modCell n k f).sync = s.sync := rfl
@[simp] theorem modCell_edgeKey (n k : Nat) (f : Cell → Cell) (s : State) : (s.modCell n k f).edgeKey = s.edgeKey := rfl
@[simp] theorem modCell_dom (n k : Nat) (f : Cell → Cell) (s : State) : (s.modCell n k f).dom = s.dom := rfl
@[simp] theorem modCell_csh (n k : Nat) (f : Cell → Cell) (s : State) : (s.modCell n k f).csh = s.csh := rfl
@[simp] theorem modCell_cshNew (n k : Nat) (f : Cell → Cell) (s : State) : (s.modCell n k f).cshNew = s.cshNew := rfl
@[simp] theorem modCell_assembled (n k : Nat) (f : Cell → Cell) (s : State) : (s.modCell n k f).assembled = s.assembled := rfl
@[simp] theorem modCell_ctx (n k : Nat) (f : Cell → Cell) (s : State) : (s.modCell n k f).ctx = s.ctx := rfl
@[simp] theorem modCell_cueQ (n k : Nat) (f : Cell → Cell) (s : State) : (s.modCell n k f).cueQ = s.cueQ := rfl
@[simp] theorem modCell_cueDrop (n k : Nat) (f : Cell → Cell) (s : State) : (s.modCell n k f).cueDrop = s.cueDrop := rfl
@[simp] theorem modCell_cueSkip (n k : Nat) (f : Cell → Cell) (s : State) : (s.modCell n k f).cueSkip = s.cueSkip := rfl
@[simp] theorem modCell_up (n k : Nat) (f : Cell → Cell) (s : State) : (s.modCell n k f).up = s.up := rfl
@[simp] theorem modCell_msgs (n k : Nat) (f : Cell → Cell) (s : State) : (s.modCell n k f).msgs = s.msgs := rfl
@[simp] theorem modCell_reclaim (n k : Nat) (f : Cell → Cell) (s : State) : (s.modCell n k f).reclaim = s.reclaim := rfl
@[simp] theorem modCell_ledgerErr (n k : Nat) (f : Cell → Cell) (s : State) : (s.modCell n k f).ledgerErr = s.ledgerErr := rfl
@[simp] theorem modCell_bal (n k : Nat) (f : Cell → Cell) (s : State) : (s.modCell n k f).bal = s.bal := rfl
@[simp] theorem modCell_busSeq (n k : Nat) (f : Cell → Cell) (s : State) : (s.modCell n k f).busSeq = s.busSeq := rfl
@[simp] theorem modCell_busAt (n k : Nat) (f : Cell → Cell) (s : State) : (s.modCell n k f).busAt = s.busAt := rfl
@[simp] theorem modCell_busDue (n k : Nat) (f : Cell → Cell) (s : State) : (s.modCell n k f).busDue = s.busDue := rfl
@[simp] theorem modCell_trigs (n k : Nat) (f : Cell → Cell) (s : State) : (s.modCell n k f).trigs = s.trigs := rfl
@[simp] theorem modCell_slt (n k : Nat) (f : Cell → Cell) (s : State) : (s.modCell n k f).slt = s.slt := rfl
@[simp] theorem modCell_ch (n k : Nat) (f : Cell → Cell) (s : State) : (s.modCell n k f).ch = s.ch := rfl
@[simp] theorem modCell_vrtCfg (n k : Nat) (f : Cell → Cell) (s : State) : (s.modCell n k f).vrtCfg = s.vrtCfg := rfl
@[simp] theorem modCell_vrtCap (n k : Nat) (f : Cell → Cell) (s : State) : (s.modCell n k f).vrtCap = s.vrtCap := rfl
@[simp] theorem modCell_host (n k : Nat) (f : Cell → Cell) (s : State) : (s.modCell n k f).host = s.host := rfl
@[simp] theorem modCell_flt (n k : Nat) (f : Cell → Cell) (s : State) : (s.modCell n k f).flt = s.flt := rfl
@[simp] theorem modCell_irq (n k : Nat) (f : Cell → Cell) (s : State) : (s.modCell n k f).irq = s.irq := rfl
@[simp] theorem modCell_nv (n k : Nat) (f : Cell → Cell) (s : State) : (s.modCell n k f).nv = s.nv := rfl
@[simp] theorem modCell_stamps (n k : Nat) (f : Cell → Cell) (s : State) : (s.modCell n k f).stamps = s.stamps := rfl
@[simp] theorem modCell_probes (n k : Nat) (f : Cell → Cell) (s : State) : (s.modCell n k f).probes = s.probes := rfl
@[simp] theorem modCell_selft (n k : Nat) (f : Cell → Cell) (s : State) : (s.modCell n k f).selft = s.selft := rfl
@[simp] theorem modCell_march (n k : Nat) (f : Cell → Cell) (s : State) : (s.modCell n k f).march = s.march := rfl
@[simp] theorem modCell_sec (n k : Nat) (f : Cell → Cell) (s : State) : (s.modCell n k f).sec = s.sec := rfl
@[simp] theorem modCell_latches (n k : Nat) (f : Cell → Cell) (s : State) : (s.modCell n k f).latches = s.latches := rfl
@[simp] theorem modCell_epochLo (n k : Nat) (f : Cell → Cell) (s : State) : (s.modCell n k f).epochLo = s.epochLo := rfl
@[simp] theorem modCell_board (n k : Nat) (f : Cell → Cell) (s : State) : (s.modCell n k f).board = s.board := rfl
@[simp] theorem modCell_buses (n k : Nat) (f : Cell → Cell) (s : State) : (s.modCell n k f).buses = s.buses := rfl
@[simp] theorem modCell_legacy (n k : Nat) (f : Cell → Cell) (s : State) : (s.modCell n k f).legacy = s.legacy := rfl
@[simp] theorem modCell_boot (n k : Nat) (f : Cell → Cell) (s : State) : (s.modCell n k f).boot = s.boot := rfl
@[simp] theorem modCell_vin (n k : Nat) (f : Cell → Cell) (s : State) : (s.modCell n k f).vin = s.vin := rfl
@[simp] theorem modCell_trip (n k : Nat) (f : Cell → Cell) (s : State) : (s.modCell n k f).trip = s.trip := rfl
@[simp] theorem modCell_tripClu (n k : Nat) (f : Cell → Cell) (s : State) : (s.modCell n k f).tripClu = s.tripClu := rfl
@[simp] theorem modCell_pins (n k : Nat) (f : Cell → Cell) (s : State) : (s.modCell n k f).pins = s.pins := rfl
@[simp] theorem modCell_pow (n k : Nat) (f : Cell → Cell) (s : State) : (s.modCell n k f).pow = s.pow := rfl
@[simp] theorem modCell_gafClock (n k : Nat) (f : Cell → Cell) (s : State) : (s.modCell n k f).gafClock = s.gafClock := rfl
@[simp] theorem modCell_gafIdle (n k : Nat) (f : Cell → Cell) (s : State) : (s.modCell n k f).gafIdle = s.gafIdle := rfl
@[simp] theorem modCell_stalled (n k : Nat) (f : Cell → Cell) (s : State) : (s.modCell n k f).stalled = s.stalled := rfl
@[simp] theorem modCell_sramCorr (n k : Nat) (f : Cell → Cell) (s : State) : (s.modCell n k f).sramCorr = s.sramCorr := rfl
@[simp] theorem modCell_secCorr (n k : Nat) (f : Cell → Cell) (s : State) : (s.modCell n k f).secCorr = s.secCorr := rfl
@[simp] theorem modCell_retCorr (n k : Nat) (f : Cell → Cell) (s : State) : (s.modCell n k f).retCorr = s.retCorr := rfl

/-! ## modHalf -/

@[simp] theorem modHalf_pending (n h : Nat) (f : Half → Half) (s : State) : (s.modHalf n h f).pending = s.pending := rfl
@[simp] theorem modHalf_out (n h : Nat) (f : Half → Half) (s : State) : (s.modHalf n h f).out = s.out := rfl
@[simp] theorem modHalf_freeCtr (n h : Nat) (f : Half → Half) (s : State) : (s.modHalf n h f).freeCtr = s.freeCtr := rfl
@[simp] theorem modHalf_elapsed (n h : Nat) (f : Half → Half) (s : State) : (s.modHalf n h f).elapsed = s.elapsed := rfl
@[simp] theorem modHalf_oscPhase (n h : Nat) (f : Half → Half) (s : State) : (s.modHalf n h f).oscPhase = s.oscPhase := rfl
@[simp] theorem modHalf_vaon (n h : Nat) (f : Half → Half) (s : State) : (s.modHalf n h f).vaon = s.vaon := rfl
@[simp] theorem modHalf_supply (n h : Nat) (f : Half → Half) (s : State) : (s.modHalf n h f).supply = s.supply := rfl
@[simp] theorem modHalf_epoch (n h : Nat) (f : Half → Half) (s : State) : (s.modHalf n h f).epoch = s.epoch := rfl
@[simp] theorem modHalf_sync (n h : Nat) (f : Half → Half) (s : State) : (s.modHalf n h f).sync = s.sync := rfl
@[simp] theorem modHalf_edgeKey (n h : Nat) (f : Half → Half) (s : State) : (s.modHalf n h f).edgeKey = s.edgeKey := rfl
@[simp] theorem modHalf_dom (n h : Nat) (f : Half → Half) (s : State) : (s.modHalf n h f).dom = s.dom := rfl
@[simp] theorem modHalf_csh (n h : Nat) (f : Half → Half) (s : State) : (s.modHalf n h f).csh = s.csh := rfl
@[simp] theorem modHalf_cshNew (n h : Nat) (f : Half → Half) (s : State) : (s.modHalf n h f).cshNew = s.cshNew := rfl
@[simp] theorem modHalf_assembled (n h : Nat) (f : Half → Half) (s : State) : (s.modHalf n h f).assembled = s.assembled := rfl
@[simp] theorem modHalf_ctx (n h : Nat) (f : Half → Half) (s : State) : (s.modHalf n h f).ctx = s.ctx := rfl
@[simp] theorem modHalf_cueQ (n h : Nat) (f : Half → Half) (s : State) : (s.modHalf n h f).cueQ = s.cueQ := rfl
@[simp] theorem modHalf_cueDrop (n h : Nat) (f : Half → Half) (s : State) : (s.modHalf n h f).cueDrop = s.cueDrop := rfl
@[simp] theorem modHalf_cueSkip (n h : Nat) (f : Half → Half) (s : State) : (s.modHalf n h f).cueSkip = s.cueSkip := rfl
@[simp] theorem modHalf_up (n h : Nat) (f : Half → Half) (s : State) : (s.modHalf n h f).up = s.up := rfl
@[simp] theorem modHalf_msgs (n h : Nat) (f : Half → Half) (s : State) : (s.modHalf n h f).msgs = s.msgs := rfl
@[simp] theorem modHalf_reclaim (n h : Nat) (f : Half → Half) (s : State) : (s.modHalf n h f).reclaim = s.reclaim := rfl
@[simp] theorem modHalf_ledgerErr (n h : Nat) (f : Half → Half) (s : State) : (s.modHalf n h f).ledgerErr = s.ledgerErr := rfl
@[simp] theorem modHalf_bal (n h : Nat) (f : Half → Half) (s : State) : (s.modHalf n h f).bal = s.bal := rfl
@[simp] theorem modHalf_busSeq (n h : Nat) (f : Half → Half) (s : State) : (s.modHalf n h f).busSeq = s.busSeq := rfl
@[simp] theorem modHalf_busAt (n h : Nat) (f : Half → Half) (s : State) : (s.modHalf n h f).busAt = s.busAt := rfl
@[simp] theorem modHalf_busDue (n h : Nat) (f : Half → Half) (s : State) : (s.modHalf n h f).busDue = s.busDue := rfl
@[simp] theorem modHalf_trigs (n h : Nat) (f : Half → Half) (s : State) : (s.modHalf n h f).trigs = s.trigs := rfl
@[simp] theorem modHalf_slt (n h : Nat) (f : Half → Half) (s : State) : (s.modHalf n h f).slt = s.slt := rfl
@[simp] theorem modHalf_ch (n h : Nat) (f : Half → Half) (s : State) : (s.modHalf n h f).ch = s.ch := rfl
@[simp] theorem modHalf_vrtCfg (n h : Nat) (f : Half → Half) (s : State) : (s.modHalf n h f).vrtCfg = s.vrtCfg := rfl
@[simp] theorem modHalf_vrtCap (n h : Nat) (f : Half → Half) (s : State) : (s.modHalf n h f).vrtCap = s.vrtCap := rfl
@[simp] theorem modHalf_host (n h : Nat) (f : Half → Half) (s : State) : (s.modHalf n h f).host = s.host := rfl
@[simp] theorem modHalf_flt (n h : Nat) (f : Half → Half) (s : State) : (s.modHalf n h f).flt = s.flt := rfl
@[simp] theorem modHalf_irq (n h : Nat) (f : Half → Half) (s : State) : (s.modHalf n h f).irq = s.irq := rfl
@[simp] theorem modHalf_nv (n h : Nat) (f : Half → Half) (s : State) : (s.modHalf n h f).nv = s.nv := rfl
@[simp] theorem modHalf_stamps (n h : Nat) (f : Half → Half) (s : State) : (s.modHalf n h f).stamps = s.stamps := rfl
@[simp] theorem modHalf_probes (n h : Nat) (f : Half → Half) (s : State) : (s.modHalf n h f).probes = s.probes := rfl
@[simp] theorem modHalf_selft (n h : Nat) (f : Half → Half) (s : State) : (s.modHalf n h f).selft = s.selft := rfl
@[simp] theorem modHalf_march (n h : Nat) (f : Half → Half) (s : State) : (s.modHalf n h f).march = s.march := rfl
@[simp] theorem modHalf_sec (n h : Nat) (f : Half → Half) (s : State) : (s.modHalf n h f).sec = s.sec := rfl
@[simp] theorem modHalf_latches (n h : Nat) (f : Half → Half) (s : State) : (s.modHalf n h f).latches = s.latches := rfl
@[simp] theorem modHalf_epochLo (n h : Nat) (f : Half → Half) (s : State) : (s.modHalf n h f).epochLo = s.epochLo := rfl
@[simp] theorem modHalf_board (n h : Nat) (f : Half → Half) (s : State) : (s.modHalf n h f).board = s.board := rfl
@[simp] theorem modHalf_buses (n h : Nat) (f : Half → Half) (s : State) : (s.modHalf n h f).buses = s.buses := rfl
@[simp] theorem modHalf_legacy (n h : Nat) (f : Half → Half) (s : State) : (s.modHalf n h f).legacy = s.legacy := rfl
@[simp] theorem modHalf_boot (n h : Nat) (f : Half → Half) (s : State) : (s.modHalf n h f).boot = s.boot := rfl
@[simp] theorem modHalf_vin (n h : Nat) (f : Half → Half) (s : State) : (s.modHalf n h f).vin = s.vin := rfl
@[simp] theorem modHalf_trip (n h : Nat) (f : Half → Half) (s : State) : (s.modHalf n h f).trip = s.trip := rfl
@[simp] theorem modHalf_tripClu (n h : Nat) (f : Half → Half) (s : State) : (s.modHalf n h f).tripClu = s.tripClu := rfl
@[simp] theorem modHalf_pins (n h : Nat) (f : Half → Half) (s : State) : (s.modHalf n h f).pins = s.pins := rfl
@[simp] theorem modHalf_pow (n h : Nat) (f : Half → Half) (s : State) : (s.modHalf n h f).pow = s.pow := rfl
@[simp] theorem modHalf_gafClock (n h : Nat) (f : Half → Half) (s : State) : (s.modHalf n h f).gafClock = s.gafClock := rfl
@[simp] theorem modHalf_gafIdle (n h : Nat) (f : Half → Half) (s : State) : (s.modHalf n h f).gafIdle = s.gafIdle := rfl
@[simp] theorem modHalf_stalled (n h : Nat) (f : Half → Half) (s : State) : (s.modHalf n h f).stalled = s.stalled := rfl
@[simp] theorem modHalf_sramCorr (n h : Nat) (f : Half → Half) (s : State) : (s.modHalf n h f).sramCorr = s.sramCorr := rfl
@[simp] theorem modHalf_secCorr (n h : Nat) (f : Half → Half) (s : State) : (s.modHalf n h f).secCorr = s.secCorr := rfl
@[simp] theorem modHalf_retCorr (n h : Nat) (f : Half → Half) (s : State) : (s.modHalf n h f).retCorr = s.retCorr := rfl

/-! ## modDm -/

@[simp] theorem modDm_pending (d : Nat) (f : Domain → Domain) (s : State) : (s.modDm d f).pending = s.pending := rfl
@[simp] theorem modDm_out (d : Nat) (f : Domain → Domain) (s : State) : (s.modDm d f).out = s.out := rfl
@[simp] theorem modDm_freeCtr (d : Nat) (f : Domain → Domain) (s : State) : (s.modDm d f).freeCtr = s.freeCtr := rfl
@[simp] theorem modDm_elapsed (d : Nat) (f : Domain → Domain) (s : State) : (s.modDm d f).elapsed = s.elapsed := rfl
@[simp] theorem modDm_oscPhase (d : Nat) (f : Domain → Domain) (s : State) : (s.modDm d f).oscPhase = s.oscPhase := rfl
@[simp] theorem modDm_vaon (d : Nat) (f : Domain → Domain) (s : State) : (s.modDm d f).vaon = s.vaon := rfl
@[simp] theorem modDm_supply (d : Nat) (f : Domain → Domain) (s : State) : (s.modDm d f).supply = s.supply := rfl
@[simp] theorem modDm_epoch (d : Nat) (f : Domain → Domain) (s : State) : (s.modDm d f).epoch = s.epoch := rfl
@[simp] theorem modDm_sync (d : Nat) (f : Domain → Domain) (s : State) : (s.modDm d f).sync = s.sync := rfl
@[simp] theorem modDm_edgeKey (d : Nat) (f : Domain → Domain) (s : State) : (s.modDm d f).edgeKey = s.edgeKey := rfl
@[simp] theorem modDm_clu (d : Nat) (f : Domain → Domain) (s : State) : (s.modDm d f).clu = s.clu := rfl
@[simp] theorem modDm_csh (d : Nat) (f : Domain → Domain) (s : State) : (s.modDm d f).csh = s.csh := rfl
@[simp] theorem modDm_cshNew (d : Nat) (f : Domain → Domain) (s : State) : (s.modDm d f).cshNew = s.cshNew := rfl
@[simp] theorem modDm_assembled (d : Nat) (f : Domain → Domain) (s : State) : (s.modDm d f).assembled = s.assembled := rfl
@[simp] theorem modDm_ctx (d : Nat) (f : Domain → Domain) (s : State) : (s.modDm d f).ctx = s.ctx := rfl
@[simp] theorem modDm_cueQ (d : Nat) (f : Domain → Domain) (s : State) : (s.modDm d f).cueQ = s.cueQ := rfl
@[simp] theorem modDm_cueDrop (d : Nat) (f : Domain → Domain) (s : State) : (s.modDm d f).cueDrop = s.cueDrop := rfl
@[simp] theorem modDm_cueSkip (d : Nat) (f : Domain → Domain) (s : State) : (s.modDm d f).cueSkip = s.cueSkip := rfl
@[simp] theorem modDm_up (d : Nat) (f : Domain → Domain) (s : State) : (s.modDm d f).up = s.up := rfl
@[simp] theorem modDm_msgs (d : Nat) (f : Domain → Domain) (s : State) : (s.modDm d f).msgs = s.msgs := rfl
@[simp] theorem modDm_reclaim (d : Nat) (f : Domain → Domain) (s : State) : (s.modDm d f).reclaim = s.reclaim := rfl
@[simp] theorem modDm_ledgerErr (d : Nat) (f : Domain → Domain) (s : State) : (s.modDm d f).ledgerErr = s.ledgerErr := rfl
@[simp] theorem modDm_bal (d : Nat) (f : Domain → Domain) (s : State) : (s.modDm d f).bal = s.bal := rfl
@[simp] theorem modDm_busSeq (d : Nat) (f : Domain → Domain) (s : State) : (s.modDm d f).busSeq = s.busSeq := rfl
@[simp] theorem modDm_busAt (d : Nat) (f : Domain → Domain) (s : State) : (s.modDm d f).busAt = s.busAt := rfl
@[simp] theorem modDm_busDue (d : Nat) (f : Domain → Domain) (s : State) : (s.modDm d f).busDue = s.busDue := rfl
@[simp] theorem modDm_trigs (d : Nat) (f : Domain → Domain) (s : State) : (s.modDm d f).trigs = s.trigs := rfl
@[simp] theorem modDm_slt (d : Nat) (f : Domain → Domain) (s : State) : (s.modDm d f).slt = s.slt := rfl
@[simp] theorem modDm_ch (d : Nat) (f : Domain → Domain) (s : State) : (s.modDm d f).ch = s.ch := rfl
@[simp] theorem modDm_vrtCfg (d : Nat) (f : Domain → Domain) (s : State) : (s.modDm d f).vrtCfg = s.vrtCfg := rfl
@[simp] theorem modDm_vrtCap (d : Nat) (f : Domain → Domain) (s : State) : (s.modDm d f).vrtCap = s.vrtCap := rfl
@[simp] theorem modDm_host (d : Nat) (f : Domain → Domain) (s : State) : (s.modDm d f).host = s.host := rfl
@[simp] theorem modDm_flt (d : Nat) (f : Domain → Domain) (s : State) : (s.modDm d f).flt = s.flt := rfl
@[simp] theorem modDm_irq (d : Nat) (f : Domain → Domain) (s : State) : (s.modDm d f).irq = s.irq := rfl
@[simp] theorem modDm_nv (d : Nat) (f : Domain → Domain) (s : State) : (s.modDm d f).nv = s.nv := rfl
@[simp] theorem modDm_stamps (d : Nat) (f : Domain → Domain) (s : State) : (s.modDm d f).stamps = s.stamps := rfl
@[simp] theorem modDm_probes (d : Nat) (f : Domain → Domain) (s : State) : (s.modDm d f).probes = s.probes := rfl
@[simp] theorem modDm_selft (d : Nat) (f : Domain → Domain) (s : State) : (s.modDm d f).selft = s.selft := rfl
@[simp] theorem modDm_march (d : Nat) (f : Domain → Domain) (s : State) : (s.modDm d f).march = s.march := rfl
@[simp] theorem modDm_sec (d : Nat) (f : Domain → Domain) (s : State) : (s.modDm d f).sec = s.sec := rfl
@[simp] theorem modDm_latches (d : Nat) (f : Domain → Domain) (s : State) : (s.modDm d f).latches = s.latches := rfl
@[simp] theorem modDm_epochLo (d : Nat) (f : Domain → Domain) (s : State) : (s.modDm d f).epochLo = s.epochLo := rfl
@[simp] theorem modDm_board (d : Nat) (f : Domain → Domain) (s : State) : (s.modDm d f).board = s.board := rfl
@[simp] theorem modDm_buses (d : Nat) (f : Domain → Domain) (s : State) : (s.modDm d f).buses = s.buses := rfl
@[simp] theorem modDm_legacy (d : Nat) (f : Domain → Domain) (s : State) : (s.modDm d f).legacy = s.legacy := rfl
@[simp] theorem modDm_boot (d : Nat) (f : Domain → Domain) (s : State) : (s.modDm d f).boot = s.boot := rfl
@[simp] theorem modDm_vin (d : Nat) (f : Domain → Domain) (s : State) : (s.modDm d f).vin = s.vin := rfl
@[simp] theorem modDm_trip (d : Nat) (f : Domain → Domain) (s : State) : (s.modDm d f).trip = s.trip := rfl
@[simp] theorem modDm_tripClu (d : Nat) (f : Domain → Domain) (s : State) : (s.modDm d f).tripClu = s.tripClu := rfl
@[simp] theorem modDm_pins (d : Nat) (f : Domain → Domain) (s : State) : (s.modDm d f).pins = s.pins := rfl
@[simp] theorem modDm_pow (d : Nat) (f : Domain → Domain) (s : State) : (s.modDm d f).pow = s.pow := rfl
@[simp] theorem modDm_gafClock (d : Nat) (f : Domain → Domain) (s : State) : (s.modDm d f).gafClock = s.gafClock := rfl
@[simp] theorem modDm_gafIdle (d : Nat) (f : Domain → Domain) (s : State) : (s.modDm d f).gafIdle = s.gafIdle := rfl
@[simp] theorem modDm_stalled (d : Nat) (f : Domain → Domain) (s : State) : (s.modDm d f).stalled = s.stalled := rfl
@[simp] theorem modDm_sramCorr (d : Nat) (f : Domain → Domain) (s : State) : (s.modDm d f).sramCorr = s.sramCorr := rfl
@[simp] theorem modDm_secCorr (d : Nat) (f : Domain → Domain) (s : State) : (s.modDm d f).secCorr = s.secCorr := rfl
@[simp] theorem modDm_retCorr (d : Nat) (f : Domain → Domain) (s : State) : (s.modDm d f).retCorr = s.retCorr := rfl

/-! ## modCx -/

@[simp] theorem modCx_pending (c : Nat) (f : Context → Context) (s : State) : (s.modCx c f).pending = s.pending := rfl
@[simp] theorem modCx_out (c : Nat) (f : Context → Context) (s : State) : (s.modCx c f).out = s.out := rfl
@[simp] theorem modCx_freeCtr (c : Nat) (f : Context → Context) (s : State) : (s.modCx c f).freeCtr = s.freeCtr := rfl
@[simp] theorem modCx_elapsed (c : Nat) (f : Context → Context) (s : State) : (s.modCx c f).elapsed = s.elapsed := rfl
@[simp] theorem modCx_oscPhase (c : Nat) (f : Context → Context) (s : State) : (s.modCx c f).oscPhase = s.oscPhase := rfl
@[simp] theorem modCx_vaon (c : Nat) (f : Context → Context) (s : State) : (s.modCx c f).vaon = s.vaon := rfl
@[simp] theorem modCx_supply (c : Nat) (f : Context → Context) (s : State) : (s.modCx c f).supply = s.supply := rfl
@[simp] theorem modCx_epoch (c : Nat) (f : Context → Context) (s : State) : (s.modCx c f).epoch = s.epoch := rfl
@[simp] theorem modCx_sync (c : Nat) (f : Context → Context) (s : State) : (s.modCx c f).sync = s.sync := rfl
@[simp] theorem modCx_edgeKey (c : Nat) (f : Context → Context) (s : State) : (s.modCx c f).edgeKey = s.edgeKey := rfl
@[simp] theorem modCx_clu (c : Nat) (f : Context → Context) (s : State) : (s.modCx c f).clu = s.clu := rfl
@[simp] theorem modCx_dom (c : Nat) (f : Context → Context) (s : State) : (s.modCx c f).dom = s.dom := rfl
@[simp] theorem modCx_csh (c : Nat) (f : Context → Context) (s : State) : (s.modCx c f).csh = s.csh := rfl
@[simp] theorem modCx_cshNew (c : Nat) (f : Context → Context) (s : State) : (s.modCx c f).cshNew = s.cshNew := rfl
@[simp] theorem modCx_assembled (c : Nat) (f : Context → Context) (s : State) : (s.modCx c f).assembled = s.assembled := rfl
@[simp] theorem modCx_cueQ (c : Nat) (f : Context → Context) (s : State) : (s.modCx c f).cueQ = s.cueQ := rfl
@[simp] theorem modCx_cueDrop (c : Nat) (f : Context → Context) (s : State) : (s.modCx c f).cueDrop = s.cueDrop := rfl
@[simp] theorem modCx_cueSkip (c : Nat) (f : Context → Context) (s : State) : (s.modCx c f).cueSkip = s.cueSkip := rfl
@[simp] theorem modCx_up (c : Nat) (f : Context → Context) (s : State) : (s.modCx c f).up = s.up := rfl
@[simp] theorem modCx_msgs (c : Nat) (f : Context → Context) (s : State) : (s.modCx c f).msgs = s.msgs := rfl
@[simp] theorem modCx_reclaim (c : Nat) (f : Context → Context) (s : State) : (s.modCx c f).reclaim = s.reclaim := rfl
@[simp] theorem modCx_ledgerErr (c : Nat) (f : Context → Context) (s : State) : (s.modCx c f).ledgerErr = s.ledgerErr := rfl
@[simp] theorem modCx_bal (c : Nat) (f : Context → Context) (s : State) : (s.modCx c f).bal = s.bal := rfl
@[simp] theorem modCx_busSeq (c : Nat) (f : Context → Context) (s : State) : (s.modCx c f).busSeq = s.busSeq := rfl
@[simp] theorem modCx_busAt (c : Nat) (f : Context → Context) (s : State) : (s.modCx c f).busAt = s.busAt := rfl
@[simp] theorem modCx_busDue (c : Nat) (f : Context → Context) (s : State) : (s.modCx c f).busDue = s.busDue := rfl
@[simp] theorem modCx_trigs (c : Nat) (f : Context → Context) (s : State) : (s.modCx c f).trigs = s.trigs := rfl
@[simp] theorem modCx_slt (c : Nat) (f : Context → Context) (s : State) : (s.modCx c f).slt = s.slt := rfl
@[simp] theorem modCx_ch (c : Nat) (f : Context → Context) (s : State) : (s.modCx c f).ch = s.ch := rfl
@[simp] theorem modCx_vrtCfg (c : Nat) (f : Context → Context) (s : State) : (s.modCx c f).vrtCfg = s.vrtCfg := rfl
@[simp] theorem modCx_vrtCap (c : Nat) (f : Context → Context) (s : State) : (s.modCx c f).vrtCap = s.vrtCap := rfl
@[simp] theorem modCx_host (c : Nat) (f : Context → Context) (s : State) : (s.modCx c f).host = s.host := rfl
@[simp] theorem modCx_flt (c : Nat) (f : Context → Context) (s : State) : (s.modCx c f).flt = s.flt := rfl
@[simp] theorem modCx_irq (c : Nat) (f : Context → Context) (s : State) : (s.modCx c f).irq = s.irq := rfl
@[simp] theorem modCx_nv (c : Nat) (f : Context → Context) (s : State) : (s.modCx c f).nv = s.nv := rfl
@[simp] theorem modCx_stamps (c : Nat) (f : Context → Context) (s : State) : (s.modCx c f).stamps = s.stamps := rfl
@[simp] theorem modCx_probes (c : Nat) (f : Context → Context) (s : State) : (s.modCx c f).probes = s.probes := rfl
@[simp] theorem modCx_selft (c : Nat) (f : Context → Context) (s : State) : (s.modCx c f).selft = s.selft := rfl
@[simp] theorem modCx_march (c : Nat) (f : Context → Context) (s : State) : (s.modCx c f).march = s.march := rfl
@[simp] theorem modCx_sec (c : Nat) (f : Context → Context) (s : State) : (s.modCx c f).sec = s.sec := rfl
@[simp] theorem modCx_latches (c : Nat) (f : Context → Context) (s : State) : (s.modCx c f).latches = s.latches := rfl
@[simp] theorem modCx_epochLo (c : Nat) (f : Context → Context) (s : State) : (s.modCx c f).epochLo = s.epochLo := rfl
@[simp] theorem modCx_board (c : Nat) (f : Context → Context) (s : State) : (s.modCx c f).board = s.board := rfl
@[simp] theorem modCx_buses (c : Nat) (f : Context → Context) (s : State) : (s.modCx c f).buses = s.buses := rfl
@[simp] theorem modCx_legacy (c : Nat) (f : Context → Context) (s : State) : (s.modCx c f).legacy = s.legacy := rfl
@[simp] theorem modCx_boot (c : Nat) (f : Context → Context) (s : State) : (s.modCx c f).boot = s.boot := rfl
@[simp] theorem modCx_vin (c : Nat) (f : Context → Context) (s : State) : (s.modCx c f).vin = s.vin := rfl
@[simp] theorem modCx_trip (c : Nat) (f : Context → Context) (s : State) : (s.modCx c f).trip = s.trip := rfl
@[simp] theorem modCx_tripClu (c : Nat) (f : Context → Context) (s : State) : (s.modCx c f).tripClu = s.tripClu := rfl
@[simp] theorem modCx_pins (c : Nat) (f : Context → Context) (s : State) : (s.modCx c f).pins = s.pins := rfl
@[simp] theorem modCx_pow (c : Nat) (f : Context → Context) (s : State) : (s.modCx c f).pow = s.pow := rfl
@[simp] theorem modCx_gafClock (c : Nat) (f : Context → Context) (s : State) : (s.modCx c f).gafClock = s.gafClock := rfl
@[simp] theorem modCx_gafIdle (c : Nat) (f : Context → Context) (s : State) : (s.modCx c f).gafIdle = s.gafIdle := rfl
@[simp] theorem modCx_stalled (c : Nat) (f : Context → Context) (s : State) : (s.modCx c f).stalled = s.stalled := rfl
@[simp] theorem modCx_sramCorr (c : Nat) (f : Context → Context) (s : State) : (s.modCx c f).sramCorr = s.sramCorr := rfl
@[simp] theorem modCx_secCorr (c : Nat) (f : Context → Context) (s : State) : (s.modCx c f).secCorr = s.secCorr := rfl
@[simp] theorem modCx_retCorr (c : Nat) (f : Context → Context) (s : State) : (s.modCx c f).retCorr = s.retCorr := rfl

/-! ## modChan -/

@[simp] theorem modChan_pending (c : Nat) (f : Channel → Channel) (s : State) : (s.modChan c f).pending = s.pending := rfl
@[simp] theorem modChan_out (c : Nat) (f : Channel → Channel) (s : State) : (s.modChan c f).out = s.out := rfl
@[simp] theorem modChan_freeCtr (c : Nat) (f : Channel → Channel) (s : State) : (s.modChan c f).freeCtr = s.freeCtr := rfl
@[simp] theorem modChan_elapsed (c : Nat) (f : Channel → Channel) (s : State) : (s.modChan c f).elapsed = s.elapsed := rfl
@[simp] theorem modChan_oscPhase (c : Nat) (f : Channel → Channel) (s : State) : (s.modChan c f).oscPhase = s.oscPhase := rfl
@[simp] theorem modChan_vaon (c : Nat) (f : Channel → Channel) (s : State) : (s.modChan c f).vaon = s.vaon := rfl
@[simp] theorem modChan_supply (c : Nat) (f : Channel → Channel) (s : State) : (s.modChan c f).supply = s.supply := rfl
@[simp] theorem modChan_epoch (c : Nat) (f : Channel → Channel) (s : State) : (s.modChan c f).epoch = s.epoch := rfl
@[simp] theorem modChan_sync (c : Nat) (f : Channel → Channel) (s : State) : (s.modChan c f).sync = s.sync := rfl
@[simp] theorem modChan_edgeKey (c : Nat) (f : Channel → Channel) (s : State) : (s.modChan c f).edgeKey = s.edgeKey := rfl
@[simp] theorem modChan_clu (c : Nat) (f : Channel → Channel) (s : State) : (s.modChan c f).clu = s.clu := rfl
@[simp] theorem modChan_dom (c : Nat) (f : Channel → Channel) (s : State) : (s.modChan c f).dom = s.dom := rfl
@[simp] theorem modChan_csh (c : Nat) (f : Channel → Channel) (s : State) : (s.modChan c f).csh = s.csh := rfl
@[simp] theorem modChan_cshNew (c : Nat) (f : Channel → Channel) (s : State) : (s.modChan c f).cshNew = s.cshNew := rfl
@[simp] theorem modChan_assembled (c : Nat) (f : Channel → Channel) (s : State) : (s.modChan c f).assembled = s.assembled := rfl
@[simp] theorem modChan_ctx (c : Nat) (f : Channel → Channel) (s : State) : (s.modChan c f).ctx = s.ctx := rfl
@[simp] theorem modChan_cueQ (c : Nat) (f : Channel → Channel) (s : State) : (s.modChan c f).cueQ = s.cueQ := rfl
@[simp] theorem modChan_cueDrop (c : Nat) (f : Channel → Channel) (s : State) : (s.modChan c f).cueDrop = s.cueDrop := rfl
@[simp] theorem modChan_cueSkip (c : Nat) (f : Channel → Channel) (s : State) : (s.modChan c f).cueSkip = s.cueSkip := rfl
@[simp] theorem modChan_up (c : Nat) (f : Channel → Channel) (s : State) : (s.modChan c f).up = s.up := rfl
@[simp] theorem modChan_msgs (c : Nat) (f : Channel → Channel) (s : State) : (s.modChan c f).msgs = s.msgs := rfl
@[simp] theorem modChan_reclaim (c : Nat) (f : Channel → Channel) (s : State) : (s.modChan c f).reclaim = s.reclaim := rfl
@[simp] theorem modChan_ledgerErr (c : Nat) (f : Channel → Channel) (s : State) : (s.modChan c f).ledgerErr = s.ledgerErr := rfl
@[simp] theorem modChan_bal (c : Nat) (f : Channel → Channel) (s : State) : (s.modChan c f).bal = s.bal := rfl
@[simp] theorem modChan_busSeq (c : Nat) (f : Channel → Channel) (s : State) : (s.modChan c f).busSeq = s.busSeq := rfl
@[simp] theorem modChan_busAt (c : Nat) (f : Channel → Channel) (s : State) : (s.modChan c f).busAt = s.busAt := rfl
@[simp] theorem modChan_busDue (c : Nat) (f : Channel → Channel) (s : State) : (s.modChan c f).busDue = s.busDue := rfl
@[simp] theorem modChan_trigs (c : Nat) (f : Channel → Channel) (s : State) : (s.modChan c f).trigs = s.trigs := rfl
@[simp] theorem modChan_slt (c : Nat) (f : Channel → Channel) (s : State) : (s.modChan c f).slt = s.slt := rfl
@[simp] theorem modChan_vrtCfg (c : Nat) (f : Channel → Channel) (s : State) : (s.modChan c f).vrtCfg = s.vrtCfg := rfl
@[simp] theorem modChan_vrtCap (c : Nat) (f : Channel → Channel) (s : State) : (s.modChan c f).vrtCap = s.vrtCap := rfl
@[simp] theorem modChan_host (c : Nat) (f : Channel → Channel) (s : State) : (s.modChan c f).host = s.host := rfl
@[simp] theorem modChan_flt (c : Nat) (f : Channel → Channel) (s : State) : (s.modChan c f).flt = s.flt := rfl
@[simp] theorem modChan_irq (c : Nat) (f : Channel → Channel) (s : State) : (s.modChan c f).irq = s.irq := rfl
@[simp] theorem modChan_nv (c : Nat) (f : Channel → Channel) (s : State) : (s.modChan c f).nv = s.nv := rfl
@[simp] theorem modChan_stamps (c : Nat) (f : Channel → Channel) (s : State) : (s.modChan c f).stamps = s.stamps := rfl
@[simp] theorem modChan_probes (c : Nat) (f : Channel → Channel) (s : State) : (s.modChan c f).probes = s.probes := rfl
@[simp] theorem modChan_selft (c : Nat) (f : Channel → Channel) (s : State) : (s.modChan c f).selft = s.selft := rfl
@[simp] theorem modChan_march (c : Nat) (f : Channel → Channel) (s : State) : (s.modChan c f).march = s.march := rfl
@[simp] theorem modChan_sec (c : Nat) (f : Channel → Channel) (s : State) : (s.modChan c f).sec = s.sec := rfl
@[simp] theorem modChan_latches (c : Nat) (f : Channel → Channel) (s : State) : (s.modChan c f).latches = s.latches := rfl
@[simp] theorem modChan_epochLo (c : Nat) (f : Channel → Channel) (s : State) : (s.modChan c f).epochLo = s.epochLo := rfl
@[simp] theorem modChan_board (c : Nat) (f : Channel → Channel) (s : State) : (s.modChan c f).board = s.board := rfl
@[simp] theorem modChan_buses (c : Nat) (f : Channel → Channel) (s : State) : (s.modChan c f).buses = s.buses := rfl
@[simp] theorem modChan_legacy (c : Nat) (f : Channel → Channel) (s : State) : (s.modChan c f).legacy = s.legacy := rfl
@[simp] theorem modChan_boot (c : Nat) (f : Channel → Channel) (s : State) : (s.modChan c f).boot = s.boot := rfl
@[simp] theorem modChan_vin (c : Nat) (f : Channel → Channel) (s : State) : (s.modChan c f).vin = s.vin := rfl
@[simp] theorem modChan_trip (c : Nat) (f : Channel → Channel) (s : State) : (s.modChan c f).trip = s.trip := rfl
@[simp] theorem modChan_tripClu (c : Nat) (f : Channel → Channel) (s : State) : (s.modChan c f).tripClu = s.tripClu := rfl
@[simp] theorem modChan_pins (c : Nat) (f : Channel → Channel) (s : State) : (s.modChan c f).pins = s.pins := rfl
@[simp] theorem modChan_pow (c : Nat) (f : Channel → Channel) (s : State) : (s.modChan c f).pow = s.pow := rfl
@[simp] theorem modChan_gafClock (c : Nat) (f : Channel → Channel) (s : State) : (s.modChan c f).gafClock = s.gafClock := rfl
@[simp] theorem modChan_gafIdle (c : Nat) (f : Channel → Channel) (s : State) : (s.modChan c f).gafIdle = s.gafIdle := rfl
@[simp] theorem modChan_stalled (c : Nat) (f : Channel → Channel) (s : State) : (s.modChan c f).stalled = s.stalled := rfl
@[simp] theorem modChan_sramCorr (c : Nat) (f : Channel → Channel) (s : State) : (s.modChan c f).sramCorr = s.sramCorr := rfl
@[simp] theorem modChan_secCorr (c : Nat) (f : Channel → Channel) (s : State) : (s.modChan c f).secCorr = s.secCorr := rfl
@[simp] theorem modChan_retCorr (c : Nat) (f : Channel → Channel) (s : State) : (s.modChan c f).retCorr = s.retCorr := rfl

/-! ## modCmd -/

@[simp] theorem modCmd_pending (i : Nat) (f : Cmd → Cmd) (s : State) : (s.modCmd i f).pending = s.pending := rfl
@[simp] theorem modCmd_out (i : Nat) (f : Cmd → Cmd) (s : State) : (s.modCmd i f).out = s.out := rfl
@[simp] theorem modCmd_freeCtr (i : Nat) (f : Cmd → Cmd) (s : State) : (s.modCmd i f).freeCtr = s.freeCtr := rfl
@[simp] theorem modCmd_elapsed (i : Nat) (f : Cmd → Cmd) (s : State) : (s.modCmd i f).elapsed = s.elapsed := rfl
@[simp] theorem modCmd_oscPhase (i : Nat) (f : Cmd → Cmd) (s : State) : (s.modCmd i f).oscPhase = s.oscPhase := rfl
@[simp] theorem modCmd_vaon (i : Nat) (f : Cmd → Cmd) (s : State) : (s.modCmd i f).vaon = s.vaon := rfl
@[simp] theorem modCmd_supply (i : Nat) (f : Cmd → Cmd) (s : State) : (s.modCmd i f).supply = s.supply := rfl
@[simp] theorem modCmd_epoch (i : Nat) (f : Cmd → Cmd) (s : State) : (s.modCmd i f).epoch = s.epoch := rfl
@[simp] theorem modCmd_sync (i : Nat) (f : Cmd → Cmd) (s : State) : (s.modCmd i f).sync = s.sync := rfl
@[simp] theorem modCmd_edgeKey (i : Nat) (f : Cmd → Cmd) (s : State) : (s.modCmd i f).edgeKey = s.edgeKey := rfl
@[simp] theorem modCmd_clu (i : Nat) (f : Cmd → Cmd) (s : State) : (s.modCmd i f).clu = s.clu := rfl
@[simp] theorem modCmd_dom (i : Nat) (f : Cmd → Cmd) (s : State) : (s.modCmd i f).dom = s.dom := rfl
@[simp] theorem modCmd_csh (i : Nat) (f : Cmd → Cmd) (s : State) : (s.modCmd i f).csh = s.csh := rfl
@[simp] theorem modCmd_cshNew (i : Nat) (f : Cmd → Cmd) (s : State) : (s.modCmd i f).cshNew = s.cshNew := rfl
@[simp] theorem modCmd_assembled (i : Nat) (f : Cmd → Cmd) (s : State) : (s.modCmd i f).assembled = s.assembled := rfl
@[simp] theorem modCmd_ctx (i : Nat) (f : Cmd → Cmd) (s : State) : (s.modCmd i f).ctx = s.ctx := rfl
@[simp] theorem modCmd_cueQ (i : Nat) (f : Cmd → Cmd) (s : State) : (s.modCmd i f).cueQ = s.cueQ := rfl
@[simp] theorem modCmd_cueDrop (i : Nat) (f : Cmd → Cmd) (s : State) : (s.modCmd i f).cueDrop = s.cueDrop := rfl
@[simp] theorem modCmd_cueSkip (i : Nat) (f : Cmd → Cmd) (s : State) : (s.modCmd i f).cueSkip = s.cueSkip := rfl
@[simp] theorem modCmd_up (i : Nat) (f : Cmd → Cmd) (s : State) : (s.modCmd i f).up = s.up := rfl
@[simp] theorem modCmd_msgs (i : Nat) (f : Cmd → Cmd) (s : State) : (s.modCmd i f).msgs = s.msgs := rfl
@[simp] theorem modCmd_reclaim (i : Nat) (f : Cmd → Cmd) (s : State) : (s.modCmd i f).reclaim = s.reclaim := rfl
@[simp] theorem modCmd_ledgerErr (i : Nat) (f : Cmd → Cmd) (s : State) : (s.modCmd i f).ledgerErr = s.ledgerErr := rfl
@[simp] theorem modCmd_bal (i : Nat) (f : Cmd → Cmd) (s : State) : (s.modCmd i f).bal = s.bal := rfl
@[simp] theorem modCmd_busSeq (i : Nat) (f : Cmd → Cmd) (s : State) : (s.modCmd i f).busSeq = s.busSeq := rfl
@[simp] theorem modCmd_busAt (i : Nat) (f : Cmd → Cmd) (s : State) : (s.modCmd i f).busAt = s.busAt := rfl
@[simp] theorem modCmd_busDue (i : Nat) (f : Cmd → Cmd) (s : State) : (s.modCmd i f).busDue = s.busDue := rfl
@[simp] theorem modCmd_trigs (i : Nat) (f : Cmd → Cmd) (s : State) : (s.modCmd i f).trigs = s.trigs := rfl
@[simp] theorem modCmd_slt (i : Nat) (f : Cmd → Cmd) (s : State) : (s.modCmd i f).slt = s.slt := rfl
@[simp] theorem modCmd_ch (i : Nat) (f : Cmd → Cmd) (s : State) : (s.modCmd i f).ch = s.ch := rfl
@[simp] theorem modCmd_vrtCfg (i : Nat) (f : Cmd → Cmd) (s : State) : (s.modCmd i f).vrtCfg = s.vrtCfg := rfl
@[simp] theorem modCmd_vrtCap (i : Nat) (f : Cmd → Cmd) (s : State) : (s.modCmd i f).vrtCap = s.vrtCap := rfl
@[simp] theorem modCmd_flt (i : Nat) (f : Cmd → Cmd) (s : State) : (s.modCmd i f).flt = s.flt := rfl
@[simp] theorem modCmd_irq (i : Nat) (f : Cmd → Cmd) (s : State) : (s.modCmd i f).irq = s.irq := rfl
@[simp] theorem modCmd_nv (i : Nat) (f : Cmd → Cmd) (s : State) : (s.modCmd i f).nv = s.nv := rfl
@[simp] theorem modCmd_stamps (i : Nat) (f : Cmd → Cmd) (s : State) : (s.modCmd i f).stamps = s.stamps := rfl
@[simp] theorem modCmd_probes (i : Nat) (f : Cmd → Cmd) (s : State) : (s.modCmd i f).probes = s.probes := rfl
@[simp] theorem modCmd_selft (i : Nat) (f : Cmd → Cmd) (s : State) : (s.modCmd i f).selft = s.selft := rfl
@[simp] theorem modCmd_march (i : Nat) (f : Cmd → Cmd) (s : State) : (s.modCmd i f).march = s.march := rfl
@[simp] theorem modCmd_sec (i : Nat) (f : Cmd → Cmd) (s : State) : (s.modCmd i f).sec = s.sec := rfl
@[simp] theorem modCmd_latches (i : Nat) (f : Cmd → Cmd) (s : State) : (s.modCmd i f).latches = s.latches := rfl
@[simp] theorem modCmd_epochLo (i : Nat) (f : Cmd → Cmd) (s : State) : (s.modCmd i f).epochLo = s.epochLo := rfl
@[simp] theorem modCmd_board (i : Nat) (f : Cmd → Cmd) (s : State) : (s.modCmd i f).board = s.board := rfl
@[simp] theorem modCmd_buses (i : Nat) (f : Cmd → Cmd) (s : State) : (s.modCmd i f).buses = s.buses := rfl
@[simp] theorem modCmd_legacy (i : Nat) (f : Cmd → Cmd) (s : State) : (s.modCmd i f).legacy = s.legacy := rfl
@[simp] theorem modCmd_boot (i : Nat) (f : Cmd → Cmd) (s : State) : (s.modCmd i f).boot = s.boot := rfl
@[simp] theorem modCmd_vin (i : Nat) (f : Cmd → Cmd) (s : State) : (s.modCmd i f).vin = s.vin := rfl
@[simp] theorem modCmd_trip (i : Nat) (f : Cmd → Cmd) (s : State) : (s.modCmd i f).trip = s.trip := rfl
@[simp] theorem modCmd_tripClu (i : Nat) (f : Cmd → Cmd) (s : State) : (s.modCmd i f).tripClu = s.tripClu := rfl
@[simp] theorem modCmd_pins (i : Nat) (f : Cmd → Cmd) (s : State) : (s.modCmd i f).pins = s.pins := rfl
@[simp] theorem modCmd_pow (i : Nat) (f : Cmd → Cmd) (s : State) : (s.modCmd i f).pow = s.pow := rfl
@[simp] theorem modCmd_gafClock (i : Nat) (f : Cmd → Cmd) (s : State) : (s.modCmd i f).gafClock = s.gafClock := rfl
@[simp] theorem modCmd_gafIdle (i : Nat) (f : Cmd → Cmd) (s : State) : (s.modCmd i f).gafIdle = s.gafIdle := rfl
@[simp] theorem modCmd_stalled (i : Nat) (f : Cmd → Cmd) (s : State) : (s.modCmd i f).stalled = s.stalled := rfl
@[simp] theorem modCmd_sramCorr (i : Nat) (f : Cmd → Cmd) (s : State) : (s.modCmd i f).sramCorr = s.sramCorr := rfl
@[simp] theorem modCmd_secCorr (i : Nat) (f : Cmd → Cmd) (s : State) : (s.modCmd i f).secCorr = s.secCorr := rfl
@[simp] theorem modCmd_retCorr (i : Nat) (f : Cmd → Cmd) (s : State) : (s.modCmd i f).retCorr = s.retCorr := rfl

/-! ## irqDo -/

@[simp] theorem irqDo_pending (f : Irq → Irq) (s : State) : (s.irqDo f).pending = s.pending := rfl
@[simp] theorem irqDo_out (f : Irq → Irq) (s : State) : (s.irqDo f).out = s.out := rfl
@[simp] theorem irqDo_freeCtr (f : Irq → Irq) (s : State) : (s.irqDo f).freeCtr = s.freeCtr := rfl
@[simp] theorem irqDo_elapsed (f : Irq → Irq) (s : State) : (s.irqDo f).elapsed = s.elapsed := rfl
@[simp] theorem irqDo_oscPhase (f : Irq → Irq) (s : State) : (s.irqDo f).oscPhase = s.oscPhase := rfl
@[simp] theorem irqDo_vaon (f : Irq → Irq) (s : State) : (s.irqDo f).vaon = s.vaon := rfl
@[simp] theorem irqDo_supply (f : Irq → Irq) (s : State) : (s.irqDo f).supply = s.supply := rfl
@[simp] theorem irqDo_epoch (f : Irq → Irq) (s : State) : (s.irqDo f).epoch = s.epoch := rfl
@[simp] theorem irqDo_sync (f : Irq → Irq) (s : State) : (s.irqDo f).sync = s.sync := rfl
@[simp] theorem irqDo_edgeKey (f : Irq → Irq) (s : State) : (s.irqDo f).edgeKey = s.edgeKey := rfl
@[simp] theorem irqDo_clu (f : Irq → Irq) (s : State) : (s.irqDo f).clu = s.clu := rfl
@[simp] theorem irqDo_dom (f : Irq → Irq) (s : State) : (s.irqDo f).dom = s.dom := rfl
@[simp] theorem irqDo_csh (f : Irq → Irq) (s : State) : (s.irqDo f).csh = s.csh := rfl
@[simp] theorem irqDo_cshNew (f : Irq → Irq) (s : State) : (s.irqDo f).cshNew = s.cshNew := rfl
@[simp] theorem irqDo_assembled (f : Irq → Irq) (s : State) : (s.irqDo f).assembled = s.assembled := rfl
@[simp] theorem irqDo_ctx (f : Irq → Irq) (s : State) : (s.irqDo f).ctx = s.ctx := rfl
@[simp] theorem irqDo_cueQ (f : Irq → Irq) (s : State) : (s.irqDo f).cueQ = s.cueQ := rfl
@[simp] theorem irqDo_cueDrop (f : Irq → Irq) (s : State) : (s.irqDo f).cueDrop = s.cueDrop := rfl
@[simp] theorem irqDo_cueSkip (f : Irq → Irq) (s : State) : (s.irqDo f).cueSkip = s.cueSkip := rfl
@[simp] theorem irqDo_up (f : Irq → Irq) (s : State) : (s.irqDo f).up = s.up := rfl
@[simp] theorem irqDo_msgs (f : Irq → Irq) (s : State) : (s.irqDo f).msgs = s.msgs := rfl
@[simp] theorem irqDo_reclaim (f : Irq → Irq) (s : State) : (s.irqDo f).reclaim = s.reclaim := rfl
@[simp] theorem irqDo_ledgerErr (f : Irq → Irq) (s : State) : (s.irqDo f).ledgerErr = s.ledgerErr := rfl
@[simp] theorem irqDo_bal (f : Irq → Irq) (s : State) : (s.irqDo f).bal = s.bal := rfl
@[simp] theorem irqDo_busSeq (f : Irq → Irq) (s : State) : (s.irqDo f).busSeq = s.busSeq := rfl
@[simp] theorem irqDo_busAt (f : Irq → Irq) (s : State) : (s.irqDo f).busAt = s.busAt := rfl
@[simp] theorem irqDo_busDue (f : Irq → Irq) (s : State) : (s.irqDo f).busDue = s.busDue := rfl
@[simp] theorem irqDo_trigs (f : Irq → Irq) (s : State) : (s.irqDo f).trigs = s.trigs := rfl
@[simp] theorem irqDo_slt (f : Irq → Irq) (s : State) : (s.irqDo f).slt = s.slt := rfl
@[simp] theorem irqDo_ch (f : Irq → Irq) (s : State) : (s.irqDo f).ch = s.ch := rfl
@[simp] theorem irqDo_vrtCfg (f : Irq → Irq) (s : State) : (s.irqDo f).vrtCfg = s.vrtCfg := rfl
@[simp] theorem irqDo_vrtCap (f : Irq → Irq) (s : State) : (s.irqDo f).vrtCap = s.vrtCap := rfl
@[simp] theorem irqDo_host (f : Irq → Irq) (s : State) : (s.irqDo f).host = s.host := rfl
@[simp] theorem irqDo_flt (f : Irq → Irq) (s : State) : (s.irqDo f).flt = s.flt := rfl
@[simp] theorem irqDo_nv (f : Irq → Irq) (s : State) : (s.irqDo f).nv = s.nv := rfl
@[simp] theorem irqDo_stamps (f : Irq → Irq) (s : State) : (s.irqDo f).stamps = s.stamps := rfl
@[simp] theorem irqDo_probes (f : Irq → Irq) (s : State) : (s.irqDo f).probes = s.probes := rfl
@[simp] theorem irqDo_selft (f : Irq → Irq) (s : State) : (s.irqDo f).selft = s.selft := rfl
@[simp] theorem irqDo_march (f : Irq → Irq) (s : State) : (s.irqDo f).march = s.march := rfl
@[simp] theorem irqDo_sec (f : Irq → Irq) (s : State) : (s.irqDo f).sec = s.sec := rfl
@[simp] theorem irqDo_latches (f : Irq → Irq) (s : State) : (s.irqDo f).latches = s.latches := rfl
@[simp] theorem irqDo_epochLo (f : Irq → Irq) (s : State) : (s.irqDo f).epochLo = s.epochLo := rfl
@[simp] theorem irqDo_board (f : Irq → Irq) (s : State) : (s.irqDo f).board = s.board := rfl
@[simp] theorem irqDo_buses (f : Irq → Irq) (s : State) : (s.irqDo f).buses = s.buses := rfl
@[simp] theorem irqDo_legacy (f : Irq → Irq) (s : State) : (s.irqDo f).legacy = s.legacy := rfl
@[simp] theorem irqDo_boot (f : Irq → Irq) (s : State) : (s.irqDo f).boot = s.boot := rfl
@[simp] theorem irqDo_vin (f : Irq → Irq) (s : State) : (s.irqDo f).vin = s.vin := rfl
@[simp] theorem irqDo_trip (f : Irq → Irq) (s : State) : (s.irqDo f).trip = s.trip := rfl
@[simp] theorem irqDo_tripClu (f : Irq → Irq) (s : State) : (s.irqDo f).tripClu = s.tripClu := rfl
@[simp] theorem irqDo_pins (f : Irq → Irq) (s : State) : (s.irqDo f).pins = s.pins := rfl
@[simp] theorem irqDo_pow (f : Irq → Irq) (s : State) : (s.irqDo f).pow = s.pow := rfl
@[simp] theorem irqDo_gafClock (f : Irq → Irq) (s : State) : (s.irqDo f).gafClock = s.gafClock := rfl
@[simp] theorem irqDo_gafIdle (f : Irq → Irq) (s : State) : (s.irqDo f).gafIdle = s.gafIdle := rfl
@[simp] theorem irqDo_stalled (f : Irq → Irq) (s : State) : (s.irqDo f).stalled = s.stalled := rfl
@[simp] theorem irqDo_sramCorr (f : Irq → Irq) (s : State) : (s.irqDo f).sramCorr = s.sramCorr := rfl
@[simp] theorem irqDo_secCorr (f : Irq → Irq) (s : State) : (s.irqDo f).secCorr = s.secCorr := rfl
@[simp] theorem irqDo_retCorr (f : Irq → Irq) (s : State) : (s.irqDo f).retCorr = s.retCorr := rfl

/-! ## fire -/

@[simp] theorem fire_pending (i : Nat) (s : State) : (s.fire i).pending = s.pending := rfl
@[simp] theorem fire_out (i : Nat) (s : State) : (s.fire i).out = s.out := rfl
@[simp] theorem fire_freeCtr (i : Nat) (s : State) : (s.fire i).freeCtr = s.freeCtr := rfl
@[simp] theorem fire_elapsed (i : Nat) (s : State) : (s.fire i).elapsed = s.elapsed := rfl
@[simp] theorem fire_oscPhase (i : Nat) (s : State) : (s.fire i).oscPhase = s.oscPhase := rfl
@[simp] theorem fire_vaon (i : Nat) (s : State) : (s.fire i).vaon = s.vaon := rfl
@[simp] theorem fire_supply (i : Nat) (s : State) : (s.fire i).supply = s.supply := rfl
@[simp] theorem fire_epoch (i : Nat) (s : State) : (s.fire i).epoch = s.epoch := rfl
@[simp] theorem fire_sync (i : Nat) (s : State) : (s.fire i).sync = s.sync := rfl
@[simp] theorem fire_edgeKey (i : Nat) (s : State) : (s.fire i).edgeKey = s.edgeKey := rfl
@[simp] theorem fire_clu (i : Nat) (s : State) : (s.fire i).clu = s.clu := rfl
@[simp] theorem fire_dom (i : Nat) (s : State) : (s.fire i).dom = s.dom := rfl
@[simp] theorem fire_csh (i : Nat) (s : State) : (s.fire i).csh = s.csh := rfl
@[simp] theorem fire_cshNew (i : Nat) (s : State) : (s.fire i).cshNew = s.cshNew := rfl
@[simp] theorem fire_assembled (i : Nat) (s : State) : (s.fire i).assembled = s.assembled := rfl
@[simp] theorem fire_ctx (i : Nat) (s : State) : (s.fire i).ctx = s.ctx := rfl
@[simp] theorem fire_cueQ (i : Nat) (s : State) : (s.fire i).cueQ = s.cueQ := rfl
@[simp] theorem fire_cueDrop (i : Nat) (s : State) : (s.fire i).cueDrop = s.cueDrop := rfl
@[simp] theorem fire_cueSkip (i : Nat) (s : State) : (s.fire i).cueSkip = s.cueSkip := rfl
@[simp] theorem fire_up (i : Nat) (s : State) : (s.fire i).up = s.up := rfl
@[simp] theorem fire_msgs (i : Nat) (s : State) : (s.fire i).msgs = s.msgs := rfl
@[simp] theorem fire_reclaim (i : Nat) (s : State) : (s.fire i).reclaim = s.reclaim := rfl
@[simp] theorem fire_ledgerErr (i : Nat) (s : State) : (s.fire i).ledgerErr = s.ledgerErr := rfl
@[simp] theorem fire_bal (i : Nat) (s : State) : (s.fire i).bal = s.bal := rfl
@[simp] theorem fire_busSeq (i : Nat) (s : State) : (s.fire i).busSeq = s.busSeq := rfl
@[simp] theorem fire_busAt (i : Nat) (s : State) : (s.fire i).busAt = s.busAt := rfl
@[simp] theorem fire_busDue (i : Nat) (s : State) : (s.fire i).busDue = s.busDue := rfl
@[simp] theorem fire_trigs (i : Nat) (s : State) : (s.fire i).trigs = s.trigs := rfl
@[simp] theorem fire_slt (i : Nat) (s : State) : (s.fire i).slt = s.slt := rfl
@[simp] theorem fire_ch (i : Nat) (s : State) : (s.fire i).ch = s.ch := rfl
@[simp] theorem fire_vrtCfg (i : Nat) (s : State) : (s.fire i).vrtCfg = s.vrtCfg := rfl
@[simp] theorem fire_vrtCap (i : Nat) (s : State) : (s.fire i).vrtCap = s.vrtCap := rfl
@[simp] theorem fire_host (i : Nat) (s : State) : (s.fire i).host = s.host := rfl
@[simp] theorem fire_flt (i : Nat) (s : State) : (s.fire i).flt = s.flt := rfl
@[simp] theorem fire_nv (i : Nat) (s : State) : (s.fire i).nv = s.nv := rfl
@[simp] theorem fire_stamps (i : Nat) (s : State) : (s.fire i).stamps = s.stamps := rfl
@[simp] theorem fire_probes (i : Nat) (s : State) : (s.fire i).probes = s.probes := rfl
@[simp] theorem fire_selft (i : Nat) (s : State) : (s.fire i).selft = s.selft := rfl
@[simp] theorem fire_march (i : Nat) (s : State) : (s.fire i).march = s.march := rfl
@[simp] theorem fire_sec (i : Nat) (s : State) : (s.fire i).sec = s.sec := rfl
@[simp] theorem fire_latches (i : Nat) (s : State) : (s.fire i).latches = s.latches := rfl
@[simp] theorem fire_epochLo (i : Nat) (s : State) : (s.fire i).epochLo = s.epochLo := rfl
@[simp] theorem fire_board (i : Nat) (s : State) : (s.fire i).board = s.board := rfl
@[simp] theorem fire_buses (i : Nat) (s : State) : (s.fire i).buses = s.buses := rfl
@[simp] theorem fire_legacy (i : Nat) (s : State) : (s.fire i).legacy = s.legacy := rfl
@[simp] theorem fire_boot (i : Nat) (s : State) : (s.fire i).boot = s.boot := rfl
@[simp] theorem fire_vin (i : Nat) (s : State) : (s.fire i).vin = s.vin := rfl
@[simp] theorem fire_trip (i : Nat) (s : State) : (s.fire i).trip = s.trip := rfl
@[simp] theorem fire_tripClu (i : Nat) (s : State) : (s.fire i).tripClu = s.tripClu := rfl
@[simp] theorem fire_pins (i : Nat) (s : State) : (s.fire i).pins = s.pins := rfl
@[simp] theorem fire_pow (i : Nat) (s : State) : (s.fire i).pow = s.pow := rfl
@[simp] theorem fire_gafClock (i : Nat) (s : State) : (s.fire i).gafClock = s.gafClock := rfl
@[simp] theorem fire_gafIdle (i : Nat) (s : State) : (s.fire i).gafIdle = s.gafIdle := rfl
@[simp] theorem fire_stalled (i : Nat) (s : State) : (s.fire i).stalled = s.stalled := rfl
@[simp] theorem fire_sramCorr (i : Nat) (s : State) : (s.fire i).sramCorr = s.sramCorr := rfl
@[simp] theorem fire_secCorr (i : Nat) (s : State) : (s.fire i).secCorr = s.secCorr := rfl
@[simp] theorem fire_retCorr (i : Nat) (s : State) : (s.fire i).retCorr = s.retCorr := rfl

/-! ## advance -/

@[simp] theorem advance_pending (t : Nat) (s : State) : (s.advance t).pending = s.pending := rfl
@[simp] theorem advance_out (t : Nat) (s : State) : (s.advance t).out = s.out := rfl
@[simp] theorem advance_freeCtr (t : Nat) (s : State) : (s.advance t).freeCtr = s.freeCtr := rfl
@[simp] theorem advance_oscPhase (t : Nat) (s : State) : (s.advance t).oscPhase = s.oscPhase := rfl
@[simp] theorem advance_vaon (t : Nat) (s : State) : (s.advance t).vaon = s.vaon := rfl
@[simp] theorem advance_supply (t : Nat) (s : State) : (s.advance t).supply = s.supply := rfl
@[simp] theorem advance_epoch (t : Nat) (s : State) : (s.advance t).epoch = s.epoch := rfl
@[simp] theorem advance_sync (t : Nat) (s : State) : (s.advance t).sync = s.sync := rfl
@[simp] theorem advance_edgeKey (t : Nat) (s : State) : (s.advance t).edgeKey = s.edgeKey := rfl
@[simp] theorem advance_clu (t : Nat) (s : State) : (s.advance t).clu = s.clu := rfl
@[simp] theorem advance_dom (t : Nat) (s : State) : (s.advance t).dom = s.dom := rfl
@[simp] theorem advance_csh (t : Nat) (s : State) : (s.advance t).csh = s.csh := rfl
@[simp] theorem advance_cshNew (t : Nat) (s : State) : (s.advance t).cshNew = s.cshNew := rfl
@[simp] theorem advance_assembled (t : Nat) (s : State) : (s.advance t).assembled = s.assembled := rfl
@[simp] theorem advance_ctx (t : Nat) (s : State) : (s.advance t).ctx = s.ctx := rfl
@[simp] theorem advance_cueQ (t : Nat) (s : State) : (s.advance t).cueQ = s.cueQ := rfl
@[simp] theorem advance_cueDrop (t : Nat) (s : State) : (s.advance t).cueDrop = s.cueDrop := rfl
@[simp] theorem advance_cueSkip (t : Nat) (s : State) : (s.advance t).cueSkip = s.cueSkip := rfl
@[simp] theorem advance_up (t : Nat) (s : State) : (s.advance t).up = s.up := rfl
@[simp] theorem advance_msgs (t : Nat) (s : State) : (s.advance t).msgs = s.msgs := rfl
@[simp] theorem advance_reclaim (t : Nat) (s : State) : (s.advance t).reclaim = s.reclaim := rfl
@[simp] theorem advance_ledgerErr (t : Nat) (s : State) : (s.advance t).ledgerErr = s.ledgerErr := rfl
@[simp] theorem advance_bal (t : Nat) (s : State) : (s.advance t).bal = s.bal := rfl
@[simp] theorem advance_busSeq (t : Nat) (s : State) : (s.advance t).busSeq = s.busSeq := rfl
@[simp] theorem advance_busAt (t : Nat) (s : State) : (s.advance t).busAt = s.busAt := rfl
@[simp] theorem advance_busDue (t : Nat) (s : State) : (s.advance t).busDue = s.busDue := rfl
@[simp] theorem advance_trigs (t : Nat) (s : State) : (s.advance t).trigs = s.trigs := rfl
@[simp] theorem advance_slt (t : Nat) (s : State) : (s.advance t).slt = s.slt := rfl
@[simp] theorem advance_ch (t : Nat) (s : State) : (s.advance t).ch = s.ch := rfl
@[simp] theorem advance_vrtCfg (t : Nat) (s : State) : (s.advance t).vrtCfg = s.vrtCfg := rfl
@[simp] theorem advance_vrtCap (t : Nat) (s : State) : (s.advance t).vrtCap = s.vrtCap := rfl
@[simp] theorem advance_host (t : Nat) (s : State) : (s.advance t).host = s.host := rfl
@[simp] theorem advance_flt (t : Nat) (s : State) : (s.advance t).flt = s.flt := rfl
@[simp] theorem advance_irq (t : Nat) (s : State) : (s.advance t).irq = s.irq := rfl
@[simp] theorem advance_nv (t : Nat) (s : State) : (s.advance t).nv = s.nv := rfl
@[simp] theorem advance_stamps (t : Nat) (s : State) : (s.advance t).stamps = s.stamps := rfl
@[simp] theorem advance_probes (t : Nat) (s : State) : (s.advance t).probes = s.probes := rfl
@[simp] theorem advance_selft (t : Nat) (s : State) : (s.advance t).selft = s.selft := rfl
@[simp] theorem advance_march (t : Nat) (s : State) : (s.advance t).march = s.march := rfl
@[simp] theorem advance_sec (t : Nat) (s : State) : (s.advance t).sec = s.sec := rfl
@[simp] theorem advance_latches (t : Nat) (s : State) : (s.advance t).latches = s.latches := rfl
@[simp] theorem advance_epochLo (t : Nat) (s : State) : (s.advance t).epochLo = s.epochLo := rfl
@[simp] theorem advance_board (t : Nat) (s : State) : (s.advance t).board = s.board := rfl
@[simp] theorem advance_buses (t : Nat) (s : State) : (s.advance t).buses = s.buses := rfl
@[simp] theorem advance_legacy (t : Nat) (s : State) : (s.advance t).legacy = s.legacy := rfl
@[simp] theorem advance_boot (t : Nat) (s : State) : (s.advance t).boot = s.boot := rfl
@[simp] theorem advance_vin (t : Nat) (s : State) : (s.advance t).vin = s.vin := rfl
@[simp] theorem advance_trip (t : Nat) (s : State) : (s.advance t).trip = s.trip := rfl
@[simp] theorem advance_tripClu (t : Nat) (s : State) : (s.advance t).tripClu = s.tripClu := rfl
@[simp] theorem advance_pins (t : Nat) (s : State) : (s.advance t).pins = s.pins := rfl
@[simp] theorem advance_gafClock (t : Nat) (s : State) : (s.advance t).gafClock = s.gafClock := rfl
@[simp] theorem advance_gafIdle (t : Nat) (s : State) : (s.advance t).gafIdle = s.gafIdle := rfl
@[simp] theorem advance_stalled (t : Nat) (s : State) : (s.advance t).stalled = s.stalled := rfl
@[simp] theorem advance_sramCorr (t : Nat) (s : State) : (s.advance t).sramCorr = s.sramCorr := rfl
@[simp] theorem advance_secCorr (t : Nat) (s : State) : (s.advance t).secCorr = s.secCorr := rfl
@[simp] theorem advance_retCorr (t : Nat) (s : State) : (s.advance t).retCorr = s.retCorr := rfl

/-! ## closeFlt -/

@[simp] theorem closeFlt_pending (p : Flt → Bool) (s : State) : (s.closeFlt p).pending = s.pending := rfl
@[simp] theorem closeFlt_out (p : Flt → Bool) (s : State) : (s.closeFlt p).out = s.out := rfl
@[simp] theorem closeFlt_freeCtr (p : Flt → Bool) (s : State) : (s.closeFlt p).freeCtr = s.freeCtr := rfl
@[simp] theorem closeFlt_elapsed (p : Flt → Bool) (s : State) : (s.closeFlt p).elapsed = s.elapsed := rfl
@[simp] theorem closeFlt_oscPhase (p : Flt → Bool) (s : State) : (s.closeFlt p).oscPhase = s.oscPhase := rfl
@[simp] theorem closeFlt_vaon (p : Flt → Bool) (s : State) : (s.closeFlt p).vaon = s.vaon := rfl
@[simp] theorem closeFlt_supply (p : Flt → Bool) (s : State) : (s.closeFlt p).supply = s.supply := rfl
@[simp] theorem closeFlt_epoch (p : Flt → Bool) (s : State) : (s.closeFlt p).epoch = s.epoch := rfl
@[simp] theorem closeFlt_sync (p : Flt → Bool) (s : State) : (s.closeFlt p).sync = s.sync := rfl
@[simp] theorem closeFlt_edgeKey (p : Flt → Bool) (s : State) : (s.closeFlt p).edgeKey = s.edgeKey := rfl
@[simp] theorem closeFlt_clu (p : Flt → Bool) (s : State) : (s.closeFlt p).clu = s.clu := rfl
@[simp] theorem closeFlt_dom (p : Flt → Bool) (s : State) : (s.closeFlt p).dom = s.dom := rfl
@[simp] theorem closeFlt_csh (p : Flt → Bool) (s : State) : (s.closeFlt p).csh = s.csh := rfl
@[simp] theorem closeFlt_cshNew (p : Flt → Bool) (s : State) : (s.closeFlt p).cshNew = s.cshNew := rfl
@[simp] theorem closeFlt_assembled (p : Flt → Bool) (s : State) : (s.closeFlt p).assembled = s.assembled := rfl
@[simp] theorem closeFlt_ctx (p : Flt → Bool) (s : State) : (s.closeFlt p).ctx = s.ctx := rfl
@[simp] theorem closeFlt_cueQ (p : Flt → Bool) (s : State) : (s.closeFlt p).cueQ = s.cueQ := rfl
@[simp] theorem closeFlt_cueDrop (p : Flt → Bool) (s : State) : (s.closeFlt p).cueDrop = s.cueDrop := rfl
@[simp] theorem closeFlt_cueSkip (p : Flt → Bool) (s : State) : (s.closeFlt p).cueSkip = s.cueSkip := rfl
@[simp] theorem closeFlt_up (p : Flt → Bool) (s : State) : (s.closeFlt p).up = s.up := rfl
@[simp] theorem closeFlt_msgs (p : Flt → Bool) (s : State) : (s.closeFlt p).msgs = s.msgs := rfl
@[simp] theorem closeFlt_reclaim (p : Flt → Bool) (s : State) : (s.closeFlt p).reclaim = s.reclaim := rfl
@[simp] theorem closeFlt_ledgerErr (p : Flt → Bool) (s : State) : (s.closeFlt p).ledgerErr = s.ledgerErr := rfl
@[simp] theorem closeFlt_bal (p : Flt → Bool) (s : State) : (s.closeFlt p).bal = s.bal := rfl
@[simp] theorem closeFlt_busSeq (p : Flt → Bool) (s : State) : (s.closeFlt p).busSeq = s.busSeq := rfl
@[simp] theorem closeFlt_busAt (p : Flt → Bool) (s : State) : (s.closeFlt p).busAt = s.busAt := rfl
@[simp] theorem closeFlt_busDue (p : Flt → Bool) (s : State) : (s.closeFlt p).busDue = s.busDue := rfl
@[simp] theorem closeFlt_trigs (p : Flt → Bool) (s : State) : (s.closeFlt p).trigs = s.trigs := rfl
@[simp] theorem closeFlt_slt (p : Flt → Bool) (s : State) : (s.closeFlt p).slt = s.slt := rfl
@[simp] theorem closeFlt_ch (p : Flt → Bool) (s : State) : (s.closeFlt p).ch = s.ch := rfl
@[simp] theorem closeFlt_vrtCfg (p : Flt → Bool) (s : State) : (s.closeFlt p).vrtCfg = s.vrtCfg := rfl
@[simp] theorem closeFlt_vrtCap (p : Flt → Bool) (s : State) : (s.closeFlt p).vrtCap = s.vrtCap := rfl
@[simp] theorem closeFlt_host (p : Flt → Bool) (s : State) : (s.closeFlt p).host = s.host := rfl
@[simp] theorem closeFlt_irq (p : Flt → Bool) (s : State) : (s.closeFlt p).irq = s.irq := rfl
@[simp] theorem closeFlt_nv (p : Flt → Bool) (s : State) : (s.closeFlt p).nv = s.nv := rfl
@[simp] theorem closeFlt_stamps (p : Flt → Bool) (s : State) : (s.closeFlt p).stamps = s.stamps := rfl
@[simp] theorem closeFlt_probes (p : Flt → Bool) (s : State) : (s.closeFlt p).probes = s.probes := rfl
@[simp] theorem closeFlt_selft (p : Flt → Bool) (s : State) : (s.closeFlt p).selft = s.selft := rfl
@[simp] theorem closeFlt_march (p : Flt → Bool) (s : State) : (s.closeFlt p).march = s.march := rfl
@[simp] theorem closeFlt_sec (p : Flt → Bool) (s : State) : (s.closeFlt p).sec = s.sec := rfl
@[simp] theorem closeFlt_latches (p : Flt → Bool) (s : State) : (s.closeFlt p).latches = s.latches := rfl
@[simp] theorem closeFlt_epochLo (p : Flt → Bool) (s : State) : (s.closeFlt p).epochLo = s.epochLo := rfl
@[simp] theorem closeFlt_board (p : Flt → Bool) (s : State) : (s.closeFlt p).board = s.board := rfl
@[simp] theorem closeFlt_buses (p : Flt → Bool) (s : State) : (s.closeFlt p).buses = s.buses := rfl
@[simp] theorem closeFlt_legacy (p : Flt → Bool) (s : State) : (s.closeFlt p).legacy = s.legacy := rfl
@[simp] theorem closeFlt_boot (p : Flt → Bool) (s : State) : (s.closeFlt p).boot = s.boot := rfl
@[simp] theorem closeFlt_vin (p : Flt → Bool) (s : State) : (s.closeFlt p).vin = s.vin := rfl
@[simp] theorem closeFlt_trip (p : Flt → Bool) (s : State) : (s.closeFlt p).trip = s.trip := rfl
@[simp] theorem closeFlt_tripClu (p : Flt → Bool) (s : State) : (s.closeFlt p).tripClu = s.tripClu := rfl
@[simp] theorem closeFlt_pins (p : Flt → Bool) (s : State) : (s.closeFlt p).pins = s.pins := rfl
@[simp] theorem closeFlt_pow (p : Flt → Bool) (s : State) : (s.closeFlt p).pow = s.pow := rfl
@[simp] theorem closeFlt_gafClock (p : Flt → Bool) (s : State) : (s.closeFlt p).gafClock = s.gafClock := rfl
@[simp] theorem closeFlt_gafIdle (p : Flt → Bool) (s : State) : (s.closeFlt p).gafIdle = s.gafIdle := rfl
@[simp] theorem closeFlt_stalled (p : Flt → Bool) (s : State) : (s.closeFlt p).stalled = s.stalled := rfl
@[simp] theorem closeFlt_sramCorr (p : Flt → Bool) (s : State) : (s.closeFlt p).sramCorr = s.sramCorr := rfl
@[simp] theorem closeFlt_secCorr (p : Flt → Bool) (s : State) : (s.closeFlt p).secCorr = s.secCorr := rfl
@[simp] theorem closeFlt_retCorr (p : Flt → Bool) (s : State) : (s.closeFlt p).retCorr = s.retCorr := rfl

/-! ## wakeGaf -/

@[simp] theorem wakeGaf_pending (s : State) : s.wakeGaf.pending = s.pending := rfl
@[simp] theorem wakeGaf_out (s : State) : s.wakeGaf.out = s.out := rfl
@[simp] theorem wakeGaf_freeCtr (s : State) : s.wakeGaf.freeCtr = s.freeCtr := rfl
@[simp] theorem wakeGaf_elapsed (s : State) : s.wakeGaf.elapsed = s.elapsed := rfl
@[simp] theorem wakeGaf_oscPhase (s : State) : s.wakeGaf.oscPhase = s.oscPhase := rfl
@[simp] theorem wakeGaf_vaon (s : State) : s.wakeGaf.vaon = s.vaon := rfl
@[simp] theorem wakeGaf_supply (s : State) : s.wakeGaf.supply = s.supply := rfl
@[simp] theorem wakeGaf_epoch (s : State) : s.wakeGaf.epoch = s.epoch := rfl
@[simp] theorem wakeGaf_sync (s : State) : s.wakeGaf.sync = s.sync := rfl
@[simp] theorem wakeGaf_edgeKey (s : State) : s.wakeGaf.edgeKey = s.edgeKey := rfl
@[simp] theorem wakeGaf_clu (s : State) : s.wakeGaf.clu = s.clu := rfl
@[simp] theorem wakeGaf_dom (s : State) : s.wakeGaf.dom = s.dom := rfl
@[simp] theorem wakeGaf_csh (s : State) : s.wakeGaf.csh = s.csh := rfl
@[simp] theorem wakeGaf_cshNew (s : State) : s.wakeGaf.cshNew = s.cshNew := rfl
@[simp] theorem wakeGaf_assembled (s : State) : s.wakeGaf.assembled = s.assembled := rfl
@[simp] theorem wakeGaf_ctx (s : State) : s.wakeGaf.ctx = s.ctx := rfl
@[simp] theorem wakeGaf_cueQ (s : State) : s.wakeGaf.cueQ = s.cueQ := rfl
@[simp] theorem wakeGaf_cueDrop (s : State) : s.wakeGaf.cueDrop = s.cueDrop := rfl
@[simp] theorem wakeGaf_cueSkip (s : State) : s.wakeGaf.cueSkip = s.cueSkip := rfl
@[simp] theorem wakeGaf_up (s : State) : s.wakeGaf.up = s.up := rfl
@[simp] theorem wakeGaf_msgs (s : State) : s.wakeGaf.msgs = s.msgs := rfl
@[simp] theorem wakeGaf_reclaim (s : State) : s.wakeGaf.reclaim = s.reclaim := rfl
@[simp] theorem wakeGaf_ledgerErr (s : State) : s.wakeGaf.ledgerErr = s.ledgerErr := rfl
@[simp] theorem wakeGaf_bal (s : State) : s.wakeGaf.bal = s.bal := rfl
@[simp] theorem wakeGaf_busSeq (s : State) : s.wakeGaf.busSeq = s.busSeq := rfl
@[simp] theorem wakeGaf_busAt (s : State) : s.wakeGaf.busAt = s.busAt := rfl
@[simp] theorem wakeGaf_busDue (s : State) : s.wakeGaf.busDue = s.busDue := rfl
@[simp] theorem wakeGaf_trigs (s : State) : s.wakeGaf.trigs = s.trigs := rfl
@[simp] theorem wakeGaf_slt (s : State) : s.wakeGaf.slt = s.slt := rfl
@[simp] theorem wakeGaf_ch (s : State) : s.wakeGaf.ch = s.ch := rfl
@[simp] theorem wakeGaf_vrtCfg (s : State) : s.wakeGaf.vrtCfg = s.vrtCfg := rfl
@[simp] theorem wakeGaf_vrtCap (s : State) : s.wakeGaf.vrtCap = s.vrtCap := rfl
@[simp] theorem wakeGaf_host (s : State) : s.wakeGaf.host = s.host := rfl
@[simp] theorem wakeGaf_flt (s : State) : s.wakeGaf.flt = s.flt := rfl
@[simp] theorem wakeGaf_irq (s : State) : s.wakeGaf.irq = s.irq := rfl
@[simp] theorem wakeGaf_nv (s : State) : s.wakeGaf.nv = s.nv := rfl
@[simp] theorem wakeGaf_stamps (s : State) : s.wakeGaf.stamps = s.stamps := rfl
@[simp] theorem wakeGaf_probes (s : State) : s.wakeGaf.probes = s.probes := rfl
@[simp] theorem wakeGaf_selft (s : State) : s.wakeGaf.selft = s.selft := rfl
@[simp] theorem wakeGaf_march (s : State) : s.wakeGaf.march = s.march := rfl
@[simp] theorem wakeGaf_sec (s : State) : s.wakeGaf.sec = s.sec := rfl
@[simp] theorem wakeGaf_latches (s : State) : s.wakeGaf.latches = s.latches := rfl
@[simp] theorem wakeGaf_epochLo (s : State) : s.wakeGaf.epochLo = s.epochLo := rfl
@[simp] theorem wakeGaf_board (s : State) : s.wakeGaf.board = s.board := rfl
@[simp] theorem wakeGaf_buses (s : State) : s.wakeGaf.buses = s.buses := rfl
@[simp] theorem wakeGaf_legacy (s : State) : s.wakeGaf.legacy = s.legacy := rfl
@[simp] theorem wakeGaf_boot (s : State) : s.wakeGaf.boot = s.boot := rfl
@[simp] theorem wakeGaf_vin (s : State) : s.wakeGaf.vin = s.vin := rfl
@[simp] theorem wakeGaf_trip (s : State) : s.wakeGaf.trip = s.trip := rfl
@[simp] theorem wakeGaf_tripClu (s : State) : s.wakeGaf.tripClu = s.tripClu := rfl
@[simp] theorem wakeGaf_pins (s : State) : s.wakeGaf.pins = s.pins := rfl
@[simp] theorem wakeGaf_pow (s : State) : s.wakeGaf.pow = s.pow := rfl
@[simp] theorem wakeGaf_stalled (s : State) : s.wakeGaf.stalled = s.stalled := rfl
@[simp] theorem wakeGaf_sramCorr (s : State) : s.wakeGaf.sramCorr = s.sramCorr := rfl
@[simp] theorem wakeGaf_secCorr (s : State) : s.wakeGaf.secCorr = s.secCorr := rfl
@[simp] theorem wakeGaf_retCorr (s : State) : s.wakeGaf.retCorr = s.retCorr := rfl

/-! ## advanceTo -/

@[simp] theorem advanceTo_pending (t : Nat) (s : State) : (s.advanceTo t).pending = s.pending := by unfold State.advanceTo; split <;> rfl
@[simp] theorem advanceTo_out (t : Nat) (s : State) : (s.advanceTo t).out = s.out := by unfold State.advanceTo; split <;> rfl
@[simp] theorem advanceTo_freeCtr (t : Nat) (s : State) : (s.advanceTo t).freeCtr = s.freeCtr := by unfold State.advanceTo; split <;> rfl
@[simp] theorem advanceTo_oscPhase (t : Nat) (s : State) : (s.advanceTo t).oscPhase = s.oscPhase := by unfold State.advanceTo; split <;> rfl
@[simp] theorem advanceTo_vaon (t : Nat) (s : State) : (s.advanceTo t).vaon = s.vaon := by unfold State.advanceTo; split <;> rfl
@[simp] theorem advanceTo_supply (t : Nat) (s : State) : (s.advanceTo t).supply = s.supply := by unfold State.advanceTo; split <;> rfl
@[simp] theorem advanceTo_epoch (t : Nat) (s : State) : (s.advanceTo t).epoch = s.epoch := by unfold State.advanceTo; split <;> rfl
@[simp] theorem advanceTo_sync (t : Nat) (s : State) : (s.advanceTo t).sync = s.sync := by unfold State.advanceTo; split <;> rfl
@[simp] theorem advanceTo_edgeKey (t : Nat) (s : State) : (s.advanceTo t).edgeKey = s.edgeKey := by unfold State.advanceTo; split <;> rfl
@[simp] theorem advanceTo_clu (t : Nat) (s : State) : (s.advanceTo t).clu = s.clu := by unfold State.advanceTo; split <;> rfl
@[simp] theorem advanceTo_dom (t : Nat) (s : State) : (s.advanceTo t).dom = s.dom := by unfold State.advanceTo; split <;> rfl
@[simp] theorem advanceTo_csh (t : Nat) (s : State) : (s.advanceTo t).csh = s.csh := by unfold State.advanceTo; split <;> rfl
@[simp] theorem advanceTo_cshNew (t : Nat) (s : State) : (s.advanceTo t).cshNew = s.cshNew := by unfold State.advanceTo; split <;> rfl
@[simp] theorem advanceTo_assembled (t : Nat) (s : State) : (s.advanceTo t).assembled = s.assembled := by unfold State.advanceTo; split <;> rfl
@[simp] theorem advanceTo_ctx (t : Nat) (s : State) : (s.advanceTo t).ctx = s.ctx := by unfold State.advanceTo; split <;> rfl
@[simp] theorem advanceTo_cueQ (t : Nat) (s : State) : (s.advanceTo t).cueQ = s.cueQ := by unfold State.advanceTo; split <;> rfl
@[simp] theorem advanceTo_cueDrop (t : Nat) (s : State) : (s.advanceTo t).cueDrop = s.cueDrop := by unfold State.advanceTo; split <;> rfl
@[simp] theorem advanceTo_cueSkip (t : Nat) (s : State) : (s.advanceTo t).cueSkip = s.cueSkip := by unfold State.advanceTo; split <;> rfl
@[simp] theorem advanceTo_up (t : Nat) (s : State) : (s.advanceTo t).up = s.up := by unfold State.advanceTo; split <;> rfl
@[simp] theorem advanceTo_msgs (t : Nat) (s : State) : (s.advanceTo t).msgs = s.msgs := by unfold State.advanceTo; split <;> rfl
@[simp] theorem advanceTo_reclaim (t : Nat) (s : State) : (s.advanceTo t).reclaim = s.reclaim := by unfold State.advanceTo; split <;> rfl
@[simp] theorem advanceTo_ledgerErr (t : Nat) (s : State) : (s.advanceTo t).ledgerErr = s.ledgerErr := by unfold State.advanceTo; split <;> rfl
@[simp] theorem advanceTo_bal (t : Nat) (s : State) : (s.advanceTo t).bal = s.bal := by unfold State.advanceTo; split <;> rfl
@[simp] theorem advanceTo_busSeq (t : Nat) (s : State) : (s.advanceTo t).busSeq = s.busSeq := by unfold State.advanceTo; split <;> rfl
@[simp] theorem advanceTo_busAt (t : Nat) (s : State) : (s.advanceTo t).busAt = s.busAt := by unfold State.advanceTo; split <;> rfl
@[simp] theorem advanceTo_busDue (t : Nat) (s : State) : (s.advanceTo t).busDue = s.busDue := by unfold State.advanceTo; split <;> rfl
@[simp] theorem advanceTo_trigs (t : Nat) (s : State) : (s.advanceTo t).trigs = s.trigs := by unfold State.advanceTo; split <;> rfl
@[simp] theorem advanceTo_slt (t : Nat) (s : State) : (s.advanceTo t).slt = s.slt := by unfold State.advanceTo; split <;> rfl
@[simp] theorem advanceTo_ch (t : Nat) (s : State) : (s.advanceTo t).ch = s.ch := by unfold State.advanceTo; split <;> rfl
@[simp] theorem advanceTo_vrtCfg (t : Nat) (s : State) : (s.advanceTo t).vrtCfg = s.vrtCfg := by unfold State.advanceTo; split <;> rfl
@[simp] theorem advanceTo_vrtCap (t : Nat) (s : State) : (s.advanceTo t).vrtCap = s.vrtCap := by unfold State.advanceTo; split <;> rfl
@[simp] theorem advanceTo_host (t : Nat) (s : State) : (s.advanceTo t).host = s.host := by unfold State.advanceTo; split <;> rfl
@[simp] theorem advanceTo_flt (t : Nat) (s : State) : (s.advanceTo t).flt = s.flt := by unfold State.advanceTo; split <;> rfl
@[simp] theorem advanceTo_irq (t : Nat) (s : State) : (s.advanceTo t).irq = s.irq := by unfold State.advanceTo; split <;> rfl
@[simp] theorem advanceTo_nv (t : Nat) (s : State) : (s.advanceTo t).nv = s.nv := by unfold State.advanceTo; split <;> rfl
@[simp] theorem advanceTo_stamps (t : Nat) (s : State) : (s.advanceTo t).stamps = s.stamps := by unfold State.advanceTo; split <;> rfl
@[simp] theorem advanceTo_probes (t : Nat) (s : State) : (s.advanceTo t).probes = s.probes := by unfold State.advanceTo; split <;> rfl
@[simp] theorem advanceTo_selft (t : Nat) (s : State) : (s.advanceTo t).selft = s.selft := by unfold State.advanceTo; split <;> rfl
@[simp] theorem advanceTo_march (t : Nat) (s : State) : (s.advanceTo t).march = s.march := by unfold State.advanceTo; split <;> rfl
@[simp] theorem advanceTo_sec (t : Nat) (s : State) : (s.advanceTo t).sec = s.sec := by unfold State.advanceTo; split <;> rfl
@[simp] theorem advanceTo_latches (t : Nat) (s : State) : (s.advanceTo t).latches = s.latches := by unfold State.advanceTo; split <;> rfl
@[simp] theorem advanceTo_epochLo (t : Nat) (s : State) : (s.advanceTo t).epochLo = s.epochLo := by unfold State.advanceTo; split <;> rfl
@[simp] theorem advanceTo_board (t : Nat) (s : State) : (s.advanceTo t).board = s.board := by unfold State.advanceTo; split <;> rfl
@[simp] theorem advanceTo_buses (t : Nat) (s : State) : (s.advanceTo t).buses = s.buses := by unfold State.advanceTo; split <;> rfl
@[simp] theorem advanceTo_legacy (t : Nat) (s : State) : (s.advanceTo t).legacy = s.legacy := by unfold State.advanceTo; split <;> rfl
@[simp] theorem advanceTo_boot (t : Nat) (s : State) : (s.advanceTo t).boot = s.boot := by unfold State.advanceTo; split <;> rfl
@[simp] theorem advanceTo_vin (t : Nat) (s : State) : (s.advanceTo t).vin = s.vin := by unfold State.advanceTo; split <;> rfl
@[simp] theorem advanceTo_trip (t : Nat) (s : State) : (s.advanceTo t).trip = s.trip := by unfold State.advanceTo; split <;> rfl
@[simp] theorem advanceTo_tripClu (t : Nat) (s : State) : (s.advanceTo t).tripClu = s.tripClu := by unfold State.advanceTo; split <;> rfl
@[simp] theorem advanceTo_pins (t : Nat) (s : State) : (s.advanceTo t).pins = s.pins := by unfold State.advanceTo; split <;> rfl
@[simp] theorem advanceTo_gafClock (t : Nat) (s : State) : (s.advanceTo t).gafClock = s.gafClock := by unfold State.advanceTo; split <;> rfl
@[simp] theorem advanceTo_gafIdle (t : Nat) (s : State) : (s.advanceTo t).gafIdle = s.gafIdle := by unfold State.advanceTo; split <;> rfl
@[simp] theorem advanceTo_stalled (t : Nat) (s : State) : (s.advanceTo t).stalled = s.stalled := by unfold State.advanceTo; split <;> rfl
@[simp] theorem advanceTo_sramCorr (t : Nat) (s : State) : (s.advanceTo t).sramCorr = s.sramCorr := by unfold State.advanceTo; split <;> rfl
@[simp] theorem advanceTo_secCorr (t : Nat) (s : State) : (s.advanceTo t).secCorr = s.secCorr := by unfold State.advanceTo; split <;> rfl
@[simp] theorem advanceTo_retCorr (t : Nat) (s : State) : (s.advanceTo t).retCorr = s.retCorr := by unfold State.advanceTo; split <;> rfl
@[simp] theorem advanceTo_elapsed (t : Nat) (s : State) : (s.advanceTo t).elapsed = max s.elapsed t := by
  unfold State.advanceTo
  split
  · rename_i h; show s.elapsed + (t - s.elapsed) = _; omega
  · omega
@[simp] theorem advance_elapsed (t : Nat) (s : State) : (s.advance t).elapsed = s.elapsed + t := rfl

/-! ## Units after updates of other parts -/

@[simp] theorem put_cl (o : Out) (s : State) (m : Nat) : (s.put o).cl m = s.cl m := rfl
@[simp] theorem put_cell (o : Out) (s : State) (m j : Nat) : (s.put o).cell m j = s.cell m j := rfl
@[simp] theorem put_half (o : Out) (s : State) (m g : Nat) : (s.put o).half m g = s.half m g := rfl
@[simp] theorem put_dm (o : Out) (s : State) (e : Nat) : (s.put o).dm e = s.dm e := rfl
@[simp] theorem put_cx (o : Out) (s : State) (e : Nat) : (s.put o).cx e = s.cx e := rfl
@[simp] theorem put_chan (o : Out) (s : State) (e : Nat) : (s.put o).chan e = s.chan e := rfl
@[simp] theorem put_sheet (o : Out) (s : State) : (s.put o).sheet = s.sheet := rfl
@[simp] theorem modCl_dm (n : Nat) (f : Cluster → Cluster) (s : State) (e : Nat) : (s.modCl n f).dm e = s.dm e := rfl
@[simp] theorem modCl_cx (n : Nat) (f : Cluster → Cluster) (s : State) (e : Nat) : (s.modCl n f).cx e = s.cx e := rfl
@[simp] theorem modCl_chan (n : Nat) (f : Cluster → Cluster) (s : State) (e : Nat) : (s.modCl n f).chan e = s.chan e := rfl
@[simp] theorem modCl_sheet (n : Nat) (f : Cluster → Cluster) (s : State) : (s.modCl n f).sheet = s.sheet := rfl
@[simp] theorem modCell_dm (n k : Nat) (f : Cell → Cell) (s : State) (e : Nat) : (s.modCell n k f).dm e = s.dm e := rfl
@[simp] theorem modCell_cx (n k : Nat) (f : Cell → Cell) (s : State) (e : Nat) : (s.modCell n k f).cx e = s.cx e := rfl
@[simp] theorem modCell_chan (n k : Nat) (f : Cell → Cell) (s : State) (e : Nat) : (s.modCell n k f).chan e = s.chan e := rfl
@[simp] theorem modCell_sheet (n k : Nat) (f : Cell → Cell) (s : State) : (s.modCell n k f).sheet = s.sheet := rfl
@[simp] theorem modHalf_dm (n h : Nat) (f : Half → Half) (s : State) (e : Nat) : (s.modHalf n h f).dm e = s.dm e := rfl
@[simp] theorem modHalf_cx (n h : Nat) (f : Half → Half) (s : State) (e : Nat) : (s.modHalf n h f).cx e = s.cx e := rfl
@[simp] theorem modHalf_chan (n h : Nat) (f : Half → Half) (s : State) (e : Nat) : (s.modHalf n h f).chan e = s.chan e := rfl
@[simp] theorem modHalf_sheet (n h : Nat) (f : Half → Half) (s : State) : (s.modHalf n h f).sheet = s.sheet := rfl
@[simp] theorem modDm_cl (d : Nat) (f : Domain → Domain) (s : State) (m : Nat) : (s.modDm d f).cl m = s.cl m := rfl
@[simp] theorem modDm_cell (d : Nat) (f : Domain → Domain) (s : State) (m j : Nat) : (s.modDm d f).cell m j = s.cell m j := rfl
@[simp] theorem modDm_half (d : Nat) (f : Domain → Domain) (s : State) (m g : Nat) : (s.modDm d f).half m g = s.half m g := rfl
@[simp] theorem modDm_cx (d : Nat) (f : Domain → Domain) (s : State) (e : Nat) : (s.modDm d f).cx e = s.cx e := rfl
@[simp] theorem modDm_chan (d : Nat) (f : Domain → Domain) (s : State) (e : Nat) : (s.modDm d f).chan e = s.chan e := rfl
@[simp] theorem modDm_sheet (d : Nat) (f : Domain → Domain) (s : State) : (s.modDm d f).sheet = s.sheet := rfl
@[simp] theorem modCx_cl (c : Nat) (f : Context → Context) (s : State) (m : Nat) : (s.modCx c f).cl m = s.cl m := rfl
@[simp] theorem modCx_cell (c : Nat) (f : Context → Context) (s : State) (m j : Nat) : (s.modCx c f).cell m j = s.cell m j := rfl
@[simp] theorem modCx_half (c : Nat) (f : Context → Context) (s : State) (m g : Nat) : (s.modCx c f).half m g = s.half m g := rfl
@[simp] theorem modCx_dm (c : Nat) (f : Context → Context) (s : State) (e : Nat) : (s.modCx c f).dm e = s.dm e := rfl
@[simp] theorem modCx_chan (c : Nat) (f : Context → Context) (s : State) (e : Nat) : (s.modCx c f).chan e = s.chan e := rfl
@[simp] theorem modCx_sheet (c : Nat) (f : Context → Context) (s : State) : (s.modCx c f).sheet = s.sheet := rfl
@[simp] theorem modChan_cl (c : Nat) (f : Channel → Channel) (s : State) (m : Nat) : (s.modChan c f).cl m = s.cl m := rfl
@[simp] theorem modChan_cell (c : Nat) (f : Channel → Channel) (s : State) (m j : Nat) : (s.modChan c f).cell m j = s.cell m j := rfl
@[simp] theorem modChan_half (c : Nat) (f : Channel → Channel) (s : State) (m g : Nat) : (s.modChan c f).half m g = s.half m g := rfl
@[simp] theorem modChan_dm (c : Nat) (f : Channel → Channel) (s : State) (e : Nat) : (s.modChan c f).dm e = s.dm e := rfl
@[simp] theorem modChan_cx (c : Nat) (f : Channel → Channel) (s : State) (e : Nat) : (s.modChan c f).cx e = s.cx e := rfl
@[simp] theorem modChan_sheet (c : Nat) (f : Channel → Channel) (s : State) : (s.modChan c f).sheet = s.sheet := rfl
@[simp] theorem modCmd_cl (i : Nat) (f : Cmd → Cmd) (s : State) (m : Nat) : (s.modCmd i f).cl m = s.cl m := rfl
@[simp] theorem modCmd_cell (i : Nat) (f : Cmd → Cmd) (s : State) (m j : Nat) : (s.modCmd i f).cell m j = s.cell m j := rfl
@[simp] theorem modCmd_half (i : Nat) (f : Cmd → Cmd) (s : State) (m g : Nat) : (s.modCmd i f).half m g = s.half m g := rfl
@[simp] theorem modCmd_dm (i : Nat) (f : Cmd → Cmd) (s : State) (e : Nat) : (s.modCmd i f).dm e = s.dm e := rfl
@[simp] theorem modCmd_cx (i : Nat) (f : Cmd → Cmd) (s : State) (e : Nat) : (s.modCmd i f).cx e = s.cx e := rfl
@[simp] theorem modCmd_chan (i : Nat) (f : Cmd → Cmd) (s : State) (e : Nat) : (s.modCmd i f).chan e = s.chan e := rfl
@[simp] theorem modCmd_sheet (i : Nat) (f : Cmd → Cmd) (s : State) : (s.modCmd i f).sheet = s.sheet := rfl
@[simp] theorem irqDo_cl (f : Irq → Irq) (s : State) (m : Nat) : (s.irqDo f).cl m = s.cl m := rfl
@[simp] theorem irqDo_cell (f : Irq → Irq) (s : State) (m j : Nat) : (s.irqDo f).cell m j = s.cell m j := rfl
@[simp] theorem irqDo_half (f : Irq → Irq) (s : State) (m g : Nat) : (s.irqDo f).half m g = s.half m g := rfl
@[simp] theorem irqDo_dm (f : Irq → Irq) (s : State) (e : Nat) : (s.irqDo f).dm e = s.dm e := rfl
@[simp] theorem irqDo_cx (f : Irq → Irq) (s : State) (e : Nat) : (s.irqDo f).cx e = s.cx e := rfl
@[simp] theorem irqDo_chan (f : Irq → Irq) (s : State) (e : Nat) : (s.irqDo f).chan e = s.chan e := rfl
@[simp] theorem irqDo_sheet (f : Irq → Irq) (s : State) : (s.irqDo f).sheet = s.sheet := rfl
@[simp] theorem fire_cl (i : Nat) (s : State) (m : Nat) : (s.fire i).cl m = s.cl m := rfl
@[simp] theorem fire_cell (i : Nat) (s : State) (m j : Nat) : (s.fire i).cell m j = s.cell m j := rfl
@[simp] theorem fire_half (i : Nat) (s : State) (m g : Nat) : (s.fire i).half m g = s.half m g := rfl
@[simp] theorem fire_dm (i : Nat) (s : State) (e : Nat) : (s.fire i).dm e = s.dm e := rfl
@[simp] theorem fire_cx (i : Nat) (s : State) (e : Nat) : (s.fire i).cx e = s.cx e := rfl
@[simp] theorem fire_chan (i : Nat) (s : State) (e : Nat) : (s.fire i).chan e = s.chan e := rfl
@[simp] theorem fire_sheet (i : Nat) (s : State) : (s.fire i).sheet = s.sheet := rfl
@[simp] theorem advance_cl (t : Nat) (s : State) (m : Nat) : (s.advance t).cl m = s.cl m := rfl
@[simp] theorem advance_cell (t : Nat) (s : State) (m j : Nat) : (s.advance t).cell m j = s.cell m j := rfl
@[simp] theorem advance_half (t : Nat) (s : State) (m g : Nat) : (s.advance t).half m g = s.half m g := rfl
@[simp] theorem advance_dm (t : Nat) (s : State) (e : Nat) : (s.advance t).dm e = s.dm e := rfl
@[simp] theorem advance_cx (t : Nat) (s : State) (e : Nat) : (s.advance t).cx e = s.cx e := rfl
@[simp] theorem advance_chan (t : Nat) (s : State) (e : Nat) : (s.advance t).chan e = s.chan e := rfl
@[simp] theorem advance_sheet (t : Nat) (s : State) : (s.advance t).sheet = s.sheet := rfl
@[simp] theorem closeFlt_cl (p : Flt → Bool) (s : State) (m : Nat) : (s.closeFlt p).cl m = s.cl m := rfl
@[simp] theorem closeFlt_cell (p : Flt → Bool) (s : State) (m j : Nat) : (s.closeFlt p).cell m j = s.cell m j := rfl
@[simp] theorem closeFlt_half (p : Flt → Bool) (s : State) (m g : Nat) : (s.closeFlt p).half m g = s.half m g := rfl
@[simp] theorem closeFlt_dm (p : Flt → Bool) (s : State) (e : Nat) : (s.closeFlt p).dm e = s.dm e := rfl
@[simp] theorem closeFlt_cx (p : Flt → Bool) (s : State) (e : Nat) : (s.closeFlt p).cx e = s.cx e := rfl
@[simp] theorem closeFlt_chan (p : Flt → Bool) (s : State) (e : Nat) : (s.closeFlt p).chan e = s.chan e := rfl
@[simp] theorem closeFlt_sheet (p : Flt → Bool) (s : State) : (s.closeFlt p).sheet = s.sheet := rfl
@[simp] theorem wakeGaf_cl (s : State) (m : Nat) : s.wakeGaf.cl m = s.cl m := rfl
@[simp] theorem wakeGaf_cell (s : State) (m j : Nat) : s.wakeGaf.cell m j = s.cell m j := rfl
@[simp] theorem wakeGaf_half (s : State) (m g : Nat) : s.wakeGaf.half m g = s.half m g := rfl
@[simp] theorem wakeGaf_dm (s : State) (e : Nat) : s.wakeGaf.dm e = s.dm e := rfl
@[simp] theorem wakeGaf_cx (s : State) (e : Nat) : s.wakeGaf.cx e = s.cx e := rfl
@[simp] theorem wakeGaf_chan (s : State) (e : Nat) : s.wakeGaf.chan e = s.chan e := rfl
@[simp] theorem wakeGaf_sheet (s : State) : s.wakeGaf.sheet = s.sheet := rfl
@[simp] theorem advanceTo_cl (t : Nat) (s : State) (m : Nat) : (s.advanceTo t).cl m = s.cl m := by unfold State.advanceTo; split <;> rfl
@[simp] theorem advanceTo_cell (t : Nat) (s : State) (m j : Nat) : (s.advanceTo t).cell m j = s.cell m j := by unfold State.advanceTo; split <;> rfl
@[simp] theorem advanceTo_half (t : Nat) (s : State) (m g : Nat) : (s.advanceTo t).half m g = s.half m g := by unfold State.advanceTo; split <;> rfl
@[simp] theorem advanceTo_dm (t : Nat) (s : State) (e : Nat) : (s.advanceTo t).dm e = s.dm e := by unfold State.advanceTo; split <;> rfl
@[simp] theorem advanceTo_cx (t : Nat) (s : State) (e : Nat) : (s.advanceTo t).cx e = s.cx e := by unfold State.advanceTo; split <;> rfl
@[simp] theorem advanceTo_chan (t : Nat) (s : State) (e : Nat) : (s.advanceTo t).chan e = s.chan e := by unfold State.advanceTo; split <;> rfl
@[simp] theorem advanceTo_sheet (t : Nat) (s : State) : (s.advanceTo t).sheet = s.sheet := by unfold State.advanceTo; split <;> rfl

end Sys2Proof.Machine
end

