-- ==== Sys2Proof/Laws/Cells.lean ====
section
/-! SUPPORT. What leaves every cell as it was, and what a raise does. -/

namespace Sys2Proof.Machine
open Sys2Proof

/-- Every cell of the block. -/
def State.cells (s : State) : Nat → Nat → Cell := fun n k => s.cell n k

theorem ite_cells (c : Prop) [Decidable c] (a b x : State) (ha : a.cells = x.cells) (hb : b.cells = x.cells) :
    (if c then a else b).cells = x.cells := by
  split <;> assumption

theorem each_cells {α : Type} (l : List α) (f : α → State → State) (h : ∀ a s, (f a s).cells = s.cells)
    (s : State) : (each l f s).cells = s.cells := by
  unfold each
  induction l generalizing s with
  | nil => rfl
  | cons a l ih => simp only [List.foldl_cons]; rw [ih, h]

theorem foldl_cells {α : Type} (l : List α) (f : State → α → State) (h : ∀ s a, (f s a).cells = s.cells)
    (s : State) : (l.foldl f s).cells = s.cells := by
  induction l generalizing s with
  | nil => rfl
  | cons a l ih => simp only [List.foldl_cons]; rw [ih, h]

theorem foldl2_cells {α β : Type} (l : List α) (f : β × State → α → β × State)
    (h : ∀ s a, (f s a).2.cells = s.2.cells) (s : β × State) : (l.foldl f s).2.cells = s.2.cells := by
  induction l generalizing s with
  | nil => rfl
  | cons a l ih => simp only [List.foldl_cons]; rw [ih, h]

theorem State.cells_eta (s : State) : (fun n k => vget (vget s.clu n).cells k) = s.cells := rfl
theorem State.cells_mk x_pending x_out x_freeCtr x_elapsed x_oscPhase x_vaon x_supply x_epoch x_sync x_edgeKey x_clu x_dom x_csh x_cshNew x_assembled x_ctx x_cueQ x_cueDrop x_cueSkip x_up x_msgs x_reclaim x_ledgerErr x_bal x_busSeq x_busAt x_busDue x_trigs x_slt x_ch x_vrtCfg x_vrtCap x_host x_flt x_irq x_nv x_stamps x_probes x_selft x_march x_sec x_latches x_epochLo x_board x_buses x_legacy x_boot x_vin x_trip x_tripClu x_pins x_pow x_gafClock x_gafIdle x_stalled x_sramCorr x_secCorr x_retCorr : State.cells ⟨x_pending, x_out, x_freeCtr, x_elapsed, x_oscPhase, x_vaon, x_supply, x_epoch, x_sync, x_edgeKey, x_clu, x_dom, x_csh, x_cshNew, x_assembled, x_ctx, x_cueQ, x_cueDrop, x_cueSkip, x_up, x_msgs, x_reclaim, x_ledgerErr, x_bal, x_busSeq, x_busAt, x_busDue, x_trigs, x_slt, x_ch, x_vrtCfg, x_vrtCap, x_host, x_flt, x_irq, x_nv, x_stamps, x_probes, x_selft, x_march, x_sec, x_latches, x_epochLo, x_board, x_buses, x_legacy, x_boot, x_vin, x_trip, x_tripClu, x_pins, x_pow, x_gafClock, x_gafIdle, x_stalled, x_sramCorr, x_secCorr, x_retCorr⟩ = fun n k => vget (vget x_clu n).cells k := rfl
theorem State.modCl_cells (s : State) (n : Nat) (f : Cluster → Cluster) (h : ∀ c, (f c).cells = c.cells) :
    (s.modCl n f).cells = s.cells := by
  funext m k
  show vget (vget (vmod s.clu n f) m).cells k = vget (vget s.clu m).cells k
  by_cases e : n = m
  · subst e
    by_cases hl : n < 64
    · rw [vget_vmod_same _ _ _ hl, h]
    · rw [vget_vmod_ge _ _ _ _ hl]
  · rw [vget_vmod_ne _ _ _ _ e]
theorem State.modHalf_cells (s : State) (n h : Nat) (f : Half → Half) : (s.modHalf n h f).cells = s.cells :=
  State.modCl_cells s n _ (fun _ => rfl)
theorem Cluster.modAcc_cells (c : Cluster) (h : Nat) (f : Acc → Acc) : (c.modAcc h f).cells = c.cells := rfl

/-! ## Operands -/

@[simp] theorem State.modDm_cells (s : State) (d : Nat) (f : Domain → Domain) : (State.modDm s d f).cells = s.cells := by
  unfold State.modDm
  repeat' (first
    | with_reducible rfl
    | intro _
    | (simp only [implies_true, State.cells_mk, State.cells_eta])
    | with_reducible refine ite_cells _ _ _ _ ?_ ?_
    | split)

@[simp] theorem State.modCx_cells (s : State) (c : Nat) (f : Context → Context) : (State.modCx s c f).cells = s.cells := by
  unfold State.modCx
  repeat' (first
    | with_reducible rfl
    | intro _
    | (simp only [implies_true, State.cells_mk, State.cells_eta])
    | with_reducible refine ite_cells _ _ _ _ ?_ ?_
    | split)

@[simp] theorem State.modChan_cells (s : State) (c : Nat) (f : Channel → Channel) : (State.modChan s c f).cells = s.cells := by
  unfold State.modChan
  repeat' (first
    | with_reducible rfl
    | intro _
    | (simp only [implies_true, State.cells_mk, State.cells_eta])
    | with_reducible refine ite_cells _ _ _ _ ?_ ?_
    | split)

/-! ## Ops -/

@[simp] theorem State.advance_cells (dt : Nat) (s : State) : (State.advance dt s).cells = s.cells := by
  unfold State.advance
  repeat' (first
    | with_reducible rfl
    | intro _
    | (simp only [implies_true, State.cells_mk, State.cells_eta])
    | with_reducible refine ite_cells _ _ _ _ ?_ ?_
    | split)

@[simp] theorem State.advanceTo_cells (t : Nat) (s : State) : (State.advanceTo t s).cells = s.cells := by
  unfold State.advanceTo
  repeat' (first
    | with_reducible rfl
    | intro _
    | (simp only [State.advance_cells, implies_true, State.cells_mk, State.cells_eta])
    | with_reducible refine ite_cells _ _ _ _ ?_ ?_
    | split)

@[simp] theorem State.put_cells (o : Out) (s : State) : (State.put o s).cells = s.cells := by
  unfold State.put
  repeat' (first
    | with_reducible rfl
    | intro _
    | (simp only [implies_true, State.cells_mk, State.cells_eta])
    | with_reducible refine ite_cells _ _ _ _ ?_ ?_
    | split)

@[simp] theorem State.drawNat_cells (s : State) : (State.drawNat s).2.cells = s.cells := by
  unfold State.drawNat
  repeat' (first
    | with_reducible rfl
    | intro _
    | (simp only [implies_true, State.cells_mk, State.cells_eta])
    | with_reducible refine ite_cells _ _ _ _ ?_ ?_
    | split)

@[simp] theorem State.drawInt_cells (s : State) : (State.drawInt s).2.cells = s.cells := by
  unfold State.drawInt
  repeat' (first
    | with_reducible rfl
    | intro _
    | (simp only [implies_true, State.cells_mk, State.cells_eta])
    | with_reducible refine ite_cells _ _ _ _ ?_ ?_
    | split)

@[simp] theorem State.irqDo_cells (f : Irq → Irq) (s : State) : (State.irqDo f s).cells = s.cells := by
  unfold State.irqDo
  repeat' (first
    | with_reducible rfl
    | intro _
    | (simp only [implies_true, State.cells_mk, State.cells_eta])
    | with_reducible refine ite_cells _ _ _ _ ?_ ?_
    | split)

@[simp] theorem State.fire_cells (i : Nat) (s : State) : (State.fire i s).cells = s.cells := by
  unfold State.fire
  repeat' (first
    | with_reducible rfl
    | intro _
    | (simp only [State.irqDo_cells, implies_true, State.cells_mk, State.cells_eta])
    | with_reducible refine ite_cells _ _ _ _ ?_ ?_
    | split)

@[simp] theorem State.noticeLost_cells (n : Option (Nat × Nat)) (s : State) : (State.noticeLost n s).cells = s.cells := by
  unfold State.noticeLost
  repeat' (first
    | with_reducible rfl
    | intro _
    | (simp only [State.modCx_cells, implies_true, State.cells_mk, State.cells_eta])
    | with_reducible refine ite_cells _ _ _ _ ?_ ?_
    | split)

@[simp] theorem State.noticeAcked_cells (n : Option (Nat × Nat)) (s : State) : (State.noticeAcked n s).cells = s.cells := by
  unfold State.noticeAcked
  repeat' (first
    | with_reducible rfl
    | intro _
    | (simp only [State.modCx_cells, implies_true, State.cells_mk, State.cells_eta])
    | with_reducible refine ite_cells _ _ _ _ ?_ ?_
    | split)

@[simp] theorem State.evLost_cells (j : Nat) (n : Option (Nat × Nat)) (s : State) : (State.evLost j n s).cells = s.cells := by
  unfold State.evLost
  repeat' (first
    | with_reducible rfl
    | intro _
    | (simp only [State.fire_cells, State.noticeLost_cells, implies_true, State.cells_mk, State.cells_eta])
    | with_reducible refine ite_cells _ _ _ _ ?_ ?_
    | split)

@[simp] theorem State.ovfWrite_cells (c : Nat) (e : EvRec) (s : State) : (State.ovfWrite c e s).cells = s.cells := by
  unfold State.ovfWrite
  split <;> rfl

@[simp] theorem State.postEvent_cells (ctx : Option Nat) (words : List Word64) (clu : Option Nat) (n : Option (Nat × Nat)) (s : State) : (State.postEvent ctx words clu n s).cells = s.cells := by
  unfold State.postEvent
  repeat' (first
    | with_reducible rfl
    | intro _
    | (simp only [State.ovfWrite_cells, State.evLost_cells, State.fire_cells, State.noticeLost_cells, implies_true, State.cells_mk, State.cells_eta])
    | with_reducible refine ite_cells _ _ _ _ ?_ ?_
    | split)

theorem State.refillBuf_cells : ∀ (f : Nat) (s : State), (State.refillBuf f s).cells = s.cells
  | 0, _ => rfl
  | f + 1, s => by
    unfold State.refillBuf
    split
    · dsimp only
      split
      · rfl
      · refine (State.refillBuf_cells f _).trans ?_
        split
        · exact State.evLost_cells _ _ _
        · rfl
    · rfl

@[simp] theorem State.wakeGaf_cells (s : State) : (State.wakeGaf s).cells = s.cells := by
  unfold State.wakeGaf
  repeat' (first
    | with_reducible rfl
    | intro _
    | (simp only [implies_true, State.cells_mk, State.cells_eta])
    | with_reducible refine ite_cells _ _ _ _ ?_ ?_
    | split)

@[simp] theorem State.wakeClu_cells (n : Nat) (s : State) : (State.wakeClu n s).cells = s.cells := by
  unfold State.wakeClu
  repeat' (first
    | with_reducible rfl
    | intro _
    | (simp only [State.modCl_cells, State.wakeGaf_cells, implies_true, State.cells_mk, State.cells_eta])
    | with_reducible refine ite_cells _ _ _ _ ?_ ?_
    | split)

@[simp] theorem State.wakeAll_cells (s : State) : (State.wakeAll s).cells = s.cells := by
  unfold State.wakeAll
  repeat' (first
    | with_reducible rfl
    | intro _
    | (simp only [State.wakeClu_cells, State.wakeGaf_cells, implies_true, State.cells_mk, State.cells_eta])
    | with_reducible refine ite_cells _ _ _ _ ?_ ?_
    | with_reducible refine (each_cells _ _ ?_ _).trans ?_
    | split)

@[simp] theorem State.injected_cells (b : Bool) (f : State → State) (s : State) (hf : ∀ s, (f s).cells = s.cells) : (State.injected b f s).cells = s.cells := by
  unfold State.injected
  repeat' (first
    | with_reducible rfl
    | intro _
    | (simp only [hf, implies_true, State.cells_mk, State.cells_eta])
    | with_reducible refine ite_cells _ _ _ _ ?_ ?_
    | split)

@[simp] theorem State.closeFlt_cells (p : Flt → Bool) (s : State) : (State.closeFlt p s).cells = s.cells := by
  unfold State.closeFlt
  repeat' (first
    | with_reducible rfl
    | intro _
    | (simp only [implies_true, State.cells_mk, State.cells_eta])
    | with_reducible refine ite_cells _ _ _ _ ?_ ?_
    | split)

@[simp] theorem State.closeUnit_cells (u : Nat) (codes : List Nat) (s : State) : (State.closeUnit u codes s).cells = s.cells := by
  unfold State.closeUnit
  repeat' (first
    | with_reducible rfl
    | intro _
    | (simp only [State.closeFlt_cells, implies_true, State.cells_mk, State.cells_eta])
    | with_reducible refine ite_cells _ _ _ _ ?_ ?_
    | split)

@[simp] theorem State.modCmd_cells (slot : Nat) (f : Cmd → Cmd) (s : State) : (State.modCmd slot f s).cells = s.cells := by
  unfold State.modCmd
  repeat' (first
    | with_reducible rfl
    | intro _
    | (simp only [implies_true, State.cells_mk, State.cells_eta])
    | with_reducible refine ite_cells _ _ _ _ ?_ ?_
    | split)

@[simp] theorem State.completeAfter_cells (slot : Nat) (st : Status) (res : Nat) (after : List Nat) (s : State) : (State.completeAfter slot st res after s).cells = s.cells := by
  unfold State.completeAfter
  conv => zeta
  repeat' (first
    | with_reducible rfl
    | intro _
    | (simp only [State.put_cells, implies_true, State.cells_mk, State.cells_eta])
    | with_reducible refine ite_cells _ _ _ _ ?_ ?_
    | split)

@[simp] theorem State.complete_cells (slot : Nat) (st : Status) (res : Nat) (s : State) : (State.complete slot st res s).cells = s.cells := by
  unfold State.complete
  repeat' (first
    | with_reducible rfl
    | intro _
    | (simp only [State.completeAfter_cells, implies_true, State.cells_mk, State.cells_eta])
    | with_reducible refine ite_cells _ _ _ _ ?_ ?_
    | split)

@[simp] theorem State.completeOpt_cells (slot : Option Nat) (st : Status) (res : Nat) (s : State) : (State.completeOpt slot st res s).cells = s.cells := by
  unfold State.completeOpt
  repeat' (first
    | with_reducible rfl
    | intro _
    | (simp only [State.complete_cells, implies_true, State.cells_mk, State.cells_eta])
    | with_reducible refine ite_cells _ _ _ _ ?_ ?_
    | split)

@[simp] theorem State.startRead_cells (addr : Nat) (bytes : Nat) (use : RdUse) (src : Nat) (s : State) : (State.startRead addr bytes use src s).cells = s.cells := by
  unfold State.startRead
  conv => zeta
  repeat' (first
    | with_reducible rfl
    | intro _
    | (simp only [State.put_cells, implies_true, State.cells_mk, State.cells_eta])
    | with_reducible refine ite_cells _ _ _ _ ?_ ?_
    | split)

@[simp] theorem State.endRead_cells (id : Nat) (s : State) : (State.endRead id s).cells = s.cells := by
  unfold State.endRead
  conv => zeta
  repeat' (first
    | with_reducible rfl
    | intro _
    | (simp only [State.put_cells, implies_true, State.cells_mk, State.cells_eta])
    | with_reducible refine ite_cells _ _ _ _ ?_ ?_
    | split)

@[simp] theorem State.startWrite_cells (addr : Nat) (words : List Word64) (use : WrUse) (s : State) : (State.startWrite addr words use s).cells = s.cells := by
  unfold State.startWrite
  repeat' (first
    | with_reducible rfl
    | intro _
    | (simp only [State.put_cells, implies_true, State.cells_mk, State.cells_eta])
    | with_reducible refine ite_cells _ _ _ _ ?_ ?_
    | split)

theorem State.writeLong_cells : ∀ (f a : Nat) (w : List Word64) (u : Bool → WrUse) (s : State), (State.writeLong f a w u s).cells = s.cells
  | 0, _, _, _, _ => rfl
  | f + 1, a, w, u, s => by
    unfold State.writeLong
    dsimp only
    split
    · exact State.startWrite_cells _ _ _ _
    · exact (State.writeLong_cells f _ _ u _).trans (State.startWrite_cells _ _ _ _)

@[simp] theorem State.endWrite_cells (id : Nat) (s : State) : (State.endWrite id s).cells = s.cells := by
  unfold State.endWrite
  repeat' (first
    | with_reducible rfl
    | intro _
    | (simp only [State.put_cells, implies_true, State.cells_mk, State.cells_eta])
    | with_reducible refine ite_cells _ _ _ _ ?_ ?_
    | split)

@[simp] theorem State.writeIndex_cells (ring : Nat) (v : Word32) (s : State) : (State.writeIndex ring v s).cells = s.cells := by
  unfold State.writeIndex
  repeat' (first
    | with_reducible rfl
    | intro _
    | (simp only [State.startWrite_cells, implies_true, State.cells_mk, State.cells_eta])
    | with_reducible refine ite_cells _ _ _ _ ?_ ?_
    | split)

/-! ## Throttle -/

@[simp] theorem State.retarget_cells (d : Nat) (s : State) : (State.retarget d s).cells = s.cells := by
  unfold State.retarget
  repeat' (first
    | with_reducible rfl
    | intro _
    | (simp only [State.modHalf_cells, implies_true, State.cells_mk, State.cells_eta])
    | with_reducible refine ite_cells _ _ _ _ ?_ ?_
    | with_reducible refine (each_cells _ _ ?_ _).trans ?_
    | split)

@[simp] theorem State.thrDom_cells (d : Nat) (s : State) : (State.thrDom d s).cells = s.cells := by
  unfold State.thrDom
  repeat' (first
    | with_reducible rfl
    | intro _
    | (simp only [State.fire_cells, State.modDm_cells, State.retarget_cells, implies_true, State.cells_mk, State.cells_eta])
    | with_reducible refine ite_cells _ _ _ _ ?_ ?_
    | with_reducible refine (foldl_cells _ _ ?_ _).trans ?_
    | with_reducible refine (foldl2_cells _ _ ?_ _).trans ?_
    | split)

@[simp] theorem State.driveBuses_cells (s : State) : (State.driveBuses s).cells = s.cells := by
  unfold State.driveBuses
  repeat' (first
    | with_reducible rfl
    | intro _
    | (simp only [implies_true, State.cells_mk, State.cells_eta])
    | with_reducible refine ite_cells _ _ _ _ ?_ ?_
    | with_reducible refine (foldl_cells _ _ ?_ _).trans ?_
    | with_reducible refine (foldl2_cells _ _ ?_ _).trans ?_
    | split)

@[simp] theorem State.throttle_cells (ds : List Nat) (s : State) : (State.throttle ds s).cells = s.cells := by
  unfold State.throttle
  repeat' (first
    | with_reducible rfl
    | intro _
    | (simp only [State.driveBuses_cells, State.thrDom_cells, implies_true, State.cells_mk, State.cells_eta])
    | with_reducible refine ite_cells _ _ _ _ ?_ ?_
    | with_reducible refine (each_cells _ _ ?_ _).trans ?_
    | split)

@[simp] theorem State.throttleAll_cells (s : State) : (State.throttleAll s).cells = s.cells := by
  unfold State.throttleAll
  repeat' (first
    | with_reducible rfl
    | intro _
    | (simp only [State.throttle_cells, implies_true, State.cells_mk, State.cells_eta])
    | with_reducible refine ite_cells _ _ _ _ ?_ ?_
    | split)

/-! ## Credits -/

@[simp] theorem State.balAdd_cells (n : Nat) (h : Nat) (x : Int) (s : State) : (State.balAdd n h x s).cells = s.cells := by
  unfold State.balAdd
  repeat' (first
    | with_reducible rfl
    | intro _
    | (simp only [implies_true, State.cells_mk, State.cells_eta])
    | with_reducible refine ite_cells _ _ _ _ ?_ ?_
    | split)

@[simp] theorem State.send_cells (m : LMsg) (s : State) : (State.send m s).cells = s.cells := by
  unfold State.send
  repeat' (first
    | with_reducible rfl
    | intro _
    | (simp only [implies_true, State.cells_mk, State.cells_eta])
    | with_reducible refine ite_cells _ _ _ _ ?_ ?_
    | split)

@[simp] theorem State.sendUp_cells (op : Nat) (n : Nat) (h : Nat) (d : Nat) (amt : Nat) (s : State) : (State.sendUp op n h d amt s).cells = s.cells := by
  unfold State.sendUp
  repeat' (first
    | with_reducible rfl
    | intro _
    | (simp only [State.balAdd_cells, implies_true, State.cells_mk, State.cells_eta])
    | with_reducible refine ite_cells _ _ _ _ ?_ ?_
    | split)

@[simp] theorem State.accrue_cells (n : Nat) (s : State) : (State.accrue n s).cells = s.cells := by
  unfold State.accrue
  repeat' (first
    | with_reducible rfl
    | intro _
    | (simp only [State.modCl_cells, State.modHalf_cells, implies_true, State.cells_mk, State.cells_eta])
    | with_reducible refine ite_cells _ _ _ _ ?_ ?_
    | with_reducible refine (each_cells _ _ ?_ _).trans ?_
    | split)

@[simp] theorem State.borrow_cells (n : Nat) (h : Nat) (s : State) : (State.borrow n h s).cells = s.cells := by
  unfold State.borrow
  repeat' (first
    | with_reducible rfl
    | intro _
    | (simp only [State.modHalf_cells, State.send_cells, implies_true, State.cells_mk, State.cells_eta])
    | with_reducible refine ite_cells _ _ _ _ ?_ ?_
    | split)

@[simp] theorem State.examine_cells (n : Nat) (r : Nat) (s : State) : (State.examine n r s).2.cells = s.cells := by
  unfold State.examine
  repeat' (first
    | with_reducible rfl
    | intro _
    | (simp only [Cluster.modAcc_cells, State.modCl_cells, State.put_cells, implies_true, State.cells_mk, State.cells_eta])
    | with_reducible refine ite_cells _ _ _ _ ?_ ?_
    | split)

theorem State.examineAll_cells (n : Nat) : ∀ (k : Nat) (l : List Nat) (last : Option Nat) (s : State), (State.examineAll n k l last s).2.cells = s.cells
  | _, [], _, _ => by unfold State.examineAll; rfl
  | 0, _ :: _, _, _ => by unfold State.examineAll; rfl
  | k + 1, r :: t, last, s => by
    unfold State.examineAll
    dsimp only
    split
    · exact (State.examineAll_cells n k t _ _).trans (State.examine_cells n r s)
    · exact (State.examineAll_cells n (k + 1) t _ _).trans (State.examine_cells n r s)

@[simp] theorem State.round_cells (n : Nat) (s : State) : (State.round n s).cells = s.cells := by
  unfold State.round
  repeat' (first
    | with_reducible rfl
    | intro _
    | (simp only [State.examineAll_cells, State.accrue_cells, State.borrow_cells, State.modCl_cells, implies_true, State.cells_mk, State.cells_eta])
    | with_reducible refine ite_cells _ _ _ _ ?_ ?_
    | with_reducible refine (each_cells _ _ ?_ _).trans ?_
    | split)

@[simp] theorem State.badWord_cells (n : Nat) (s : State) : (State.badWord n s).cells = s.cells := by
  unfold State.badWord
  repeat' (first
    | with_reducible rfl
    | intro _
    | (simp only [State.modCl_cells, implies_true, State.cells_mk, State.cells_eta])
    | with_reducible refine ite_cells _ _ _ _ ?_ ?_
    | split)

@[simp] theorem State.request_cells (n : Nat) (r : Nat) (amt : Nat) (filler : Bool) (s : State) : (State.request n r amt filler s).cells = s.cells := by
  unfold State.request
  repeat' (first
    | with_reducible rfl
    | intro _
    | (simp only [State.badWord_cells, State.modCl_cells, State.put_cells, State.wakeClu_cells, implies_true, State.cells_mk, State.cells_eta])
    | with_reducible refine ite_cells _ _ _ _ ?_ ?_
    | split)

@[simp] theorem State.applyReturn_cells (n : Nat) (h : Nat) (amt : Nat) (s : State) : (State.applyReturn n h amt s).cells = s.cells := by
  unfold State.applyReturn
  repeat' (first
    | with_reducible rfl
    | intro _
    | (simp only [State.modHalf_cells, State.sendUp_cells, implies_true, State.cells_mk, State.cells_eta])
    | with_reducible refine ite_cells _ _ _ _ ?_ ?_
    | split)

@[simp] theorem State.returned_cells (n : Nat) (r : Nat) (amt : Nat) (slot : Nat) (gen : Nat) (s : State) : (State.returned n r amt slot gen s).cells = s.cells := by
  unfold State.returned
  repeat' (first
    | with_reducible rfl
    | intro _
    | (simp only [State.applyReturn_cells, State.modCl_cells, State.put_cells, implies_true, State.cells_mk, State.cells_eta])
    | with_reducible refine ite_cells _ _ _ _ ?_ ?_
    | split)

@[simp] theorem State.reclaimHost_cells (n : Nat) (s : State) : (State.reclaimHost n s).cells = s.cells := by
  unfold State.reclaimHost
  repeat' (first
    | with_reducible rfl
    | intro _
    | (simp only [State.modCl_cells, State.modHalf_cells, implies_true, State.cells_mk, State.cells_eta])
    | with_reducible refine ite_cells _ _ _ _ ?_ ?_
    | with_reducible refine (each_cells _ _ ?_ _).trans ?_
    | split)

@[simp] theorem State.revokeAll_cells (n : Nat) (s : State) : (State.revokeAll n s).cells = s.cells := by
  unfold State.revokeAll
  repeat' (first
    | with_reducible rfl
    | intro _
    | (simp only [State.put_cells, implies_true, State.cells_mk, State.cells_eta])
    | with_reducible refine ite_cells _ _ _ _ ?_ ?_
    | with_reducible refine (each_cells _ _ ?_ _).trans ?_
    | split)

@[simp] theorem State.restoreLedger_cells (n : Nat) (s : State) : (State.restoreLedger n s).cells = s.cells := by
  unfold State.restoreLedger
  repeat' (first
    | with_reducible rfl
    | intro _
    | (simp only [State.modCl_cells, State.modHalf_cells, implies_true, State.cells_mk, State.cells_eta])
    | with_reducible refine ite_cells _ _ _ _ ?_ ?_
    | with_reducible refine (each_cells _ _ ?_ _).trans ?_
    | split)

@[simp] theorem State.rezero_cells (n : Nat) (d : Nat) (s : State) : (State.rezero n d s).cells = s.cells := by
  unfold State.rezero
  repeat' (first
    | with_reducible rfl
    | intro _
    | (simp only [Cluster.modAcc_cells, State.modCl_cells, State.modDm_cells, implies_true, State.cells_mk, State.cells_eta])
    | with_reducible refine ite_cells _ _ _ _ ?_ ?_
    | with_reducible refine (foldl_cells _ _ ?_ _).trans ?_
    | with_reducible refine (foldl2_cells _ _ ?_ _).trans ?_
    | split)

@[simp] theorem State.rederive_cells (n : Nat) (d : Nat) (s : State) : (State.rederive n d s).cells = s.cells := by
  unfold State.rederive
  repeat' (first
    | with_reducible rfl
    | intro _
    | (simp only [State.put_cells, State.rezero_cells, implies_true, State.cells_mk, State.cells_eta])
    | with_reducible refine ite_cells _ _ _ _ ?_ ?_
    | with_reducible refine (each_cells _ _ ?_ _).trans ?_
    | split)

@[simp] theorem State.fillZero_cells (n : Nat) (h : Nat) (s : State) : (State.fillZero n h s).cells = s.cells := by
  unfold State.fillZero
  repeat' (first
    | with_reducible rfl
    | intro _
    | (simp only [State.modCl_cells, State.put_cells, implies_true, State.cells_mk, State.cells_eta])
    | with_reducible refine ite_cells _ _ _ _ ?_ ?_
    | with_reducible refine (each_cells _ _ ?_ _).trans ?_
    | split)

@[simp] theorem State.brollStop_cells (n : Nat) (h : Nat) (s : State) : (State.brollStop n h s).cells = s.cells := by
  unfold State.brollStop
  repeat' (first
    | with_reducible rfl
    | intro _
    | (simp only [State.fillZero_cells, State.modCl_cells, State.modHalf_cells, State.put_cells, implies_true, State.cells_mk, State.cells_eta])
    | with_reducible refine ite_cells _ _ _ _ ?_ ?_
    | split)

@[simp] theorem State.brollEnd_cells (n : Nat) (h : Nat) (s : State) : (State.brollEnd n h s).cells = s.cells := by
  unfold State.brollEnd
  repeat' (first
    | with_reducible rfl
    | intro _
    | (simp only [State.brollStop_cells, State.modHalf_cells, implies_true, State.cells_mk, State.cells_eta])
    | with_reducible refine ite_cells _ _ _ _ ?_ ?_
    | split)

@[simp] theorem State.ledgerLost_cells (n : Nat) (ds : List Nat) (s : State) : (State.ledgerLost n ds s).cells = s.cells := by
  unfold State.ledgerLost
  repeat' (first
    | with_reducible rfl
    | intro _
    | (simp only [State.rederive_cells, implies_true, State.cells_mk, State.cells_eta])
    | with_reducible refine ite_cells _ _ _ _ ?_ ?_
    | with_reducible refine (each_cells _ _ ?_ _).trans ?_
    | split)

/-! ## Predictor -/

@[simp] theorem State.forecastHalf_cells (n : Nat) (h : Nat) (s : State) : (State.forecastHalf n h s).cells = s.cells := by
  unfold State.forecastHalf
  repeat' (first
    | with_reducible rfl
    | intro _
    | (simp only [State.modCl_cells, State.modHalf_cells, implies_true, State.cells_mk, State.cells_eta])
    | with_reducible refine ite_cells _ _ _ _ ?_ ?_
    | split)

/-! ## Control -/

@[simp] theorem State.endPart_cells (slot : Nat) (d : Nat) (st : Status) (s : State) : (State.endPart slot d st s).cells = s.cells := by
  unfold State.endPart
  repeat' (first
    | with_reducible rfl
    | intro _
    | (simp only [State.complete_cells, State.modCmd_cells, implies_true, State.cells_mk, State.cells_eta])
    | with_reducible refine ite_cells _ _ _ _ ?_ ?_
    | split)

@[simp] theorem State.endPartWith_cells (slot : Nat) (d : Nat) (st : Status) (code : Nat) (s : State) : (State.endPartWith slot d st code s).cells = s.cells := by
  unfold State.endPartWith
  repeat' (first
    | with_reducible rfl
    | intro _
    | (simp only [State.endPart_cells, State.modCmd_cells, implies_true, State.cells_mk, State.cells_eta])
    | with_reducible refine ite_cells _ _ _ _ ?_ ?_
    | split)

@[simp] theorem State.endParts_cells (slot : Nat) (st : Status) (s : State) : (State.endParts slot st s).cells = s.cells := by
  unfold State.endParts
  repeat' (first
    | with_reducible rfl
    | intro _
    | (simp only [State.endPart_cells, implies_true, State.cells_mk, State.cells_eta])
    | with_reducible refine ite_cells _ _ _ _ ?_ ?_
    | with_reducible refine (each_cells _ _ ?_ _).trans ?_
    | split)

@[simp] theorem State.placeChange_cells (n : Nat) (h : Nat) (ch : Change) (s : State) : (State.placeChange n h ch s).cells = s.cells := by
  unfold State.placeChange
  repeat' (first
    | with_reducible rfl
    | intro _
    | (simp only [State.modHalf_cells, implies_true, State.cells_mk, State.cells_eta])
    | with_reducible refine ite_cells _ _ _ _ ?_ ?_
    | split)

@[simp] theorem State.placeDom_cells (d : Nat) (ch : Change) (s : State) : (State.placeDom d ch s).cells = s.cells := by
  unfold State.placeDom
  repeat' (first
    | with_reducible rfl
    | intro _
    | (simp only [State.placeChange_cells, implies_true, State.cells_mk, State.cells_eta])
    | with_reducible refine ite_cells _ _ _ _ ?_ ?_
    | with_reducible refine (each_cells _ _ ?_ _).trans ?_
    | split)

@[simp] theorem State.supersedes_cells (old : Nat) (new : Option Nat) (s : State) : (State.supersedes old new s).cells = s.cells := by
  unfold State.supersedes
  repeat' (first
    | with_reducible rfl
    | intro _
    | (simp only [State.modCmd_cells, implies_true, State.cells_mk, State.cells_eta])
    | with_reducible refine ite_cells _ _ _ _ ?_ ?_
    | split)

@[simp] theorem State.applyChange_cells (n : Nat) (h : Nat) (ch : Change) (s : State) : (State.applyChange n h ch s).cells = s.cells := by
  unfold State.applyChange
  repeat' (first
    | with_reducible rfl
    | intro _
    | (simp only [State.endPart_cells, State.modDm_cells, State.modHalf_cells, State.supersedes_cells, implies_true, State.cells_mk, State.cells_eta])
    | with_reducible refine ite_cells _ _ _ _ ?_ ?_
    | split)

@[simp] theorem State.applyChanges_cells (n : Nat) (h : Nat) (s : State) : (State.applyChanges n h s).2.cells = s.cells := by
  unfold State.applyChanges
  repeat' (first
    | with_reducible rfl
    | intro _
    | (simp only [State.applyChange_cells, State.modHalf_cells, implies_true, State.cells_mk, State.cells_eta])
    | with_reducible refine ite_cells _ _ _ _ ?_ ?_
    | with_reducible refine (each_cells _ _ ?_ _).trans ?_
    | split)

@[simp] theorem State.moveRamp_cells (n : Nat) (h : Nat) (s : State) : (State.moveRamp n h s).cells = s.cells := by
  unfold State.moveRamp
  repeat' (first
    | with_reducible rfl
    | intro _
    | (simp only [State.modHalf_cells, implies_true, State.cells_mk, State.cells_eta])
    | with_reducible refine ite_cells _ _ _ _ ?_ ?_
    | split)

@[simp] theorem State.movePrep_cells (n : Nat) (h : Nat) (s : State) : (State.movePrep n h s).cells = s.cells := by
  unfold State.movePrep
  repeat' (first
    | with_reducible rfl
    | intro _
    | (simp only [State.accrue_cells, State.modHalf_cells, implies_true, State.cells_mk, State.cells_eta])
    | with_reducible refine ite_cells _ _ _ _ ?_ ?_
    | with_reducible refine (foldl_cells _ _ ?_ _).trans ?_
    | with_reducible refine (foldl2_cells _ _ ?_ _).trans ?_
    | split)

@[simp] theorem State.withdraw_cells (n : Nat) (h : Nat) (s : State) : (State.withdraw n h s).cells = s.cells := by
  unfold State.withdraw
  repeat' (first
    | with_reducible rfl
    | intro _
    | (simp only [State.accrue_cells, State.modHalf_cells, implies_true, State.cells_mk, State.cells_eta])
    | with_reducible refine ite_cells _ _ _ _ ?_ ?_
    | split)

@[simp] theorem State.moveBroll_cells (n : Nat) (h : Nat) (s : State) : (State.moveBroll n h s).cells = s.cells := by
  unfold State.moveBroll
  repeat' (first
    | with_reducible rfl
    | intro _
    | (simp only [State.accrue_cells, State.brollStop_cells, State.modCl_cells, State.modHalf_cells, implies_true, State.cells_mk, State.cells_eta])
    | with_reducible refine ite_cells _ _ _ _ ?_ ?_
    | split)

@[simp] theorem State.moveFill_cells (n : Nat) (h : Nat) (s : State) : (State.moveFill n h s).cells = s.cells := by
  unfold State.moveFill
  repeat' (first
    | with_reducible rfl
    | intro _
    | (simp only [State.modCl_cells, State.put_cells, implies_true, State.cells_mk, State.cells_eta])
    | with_reducible refine ite_cells _ _ _ _ ?_ ?_
    | with_reducible refine (each_cells _ _ ?_ _).trans ?_
    | split)

@[simp] theorem State.thErrs_cells (n : Nat) (s : State) : (State.thErrs n s).cells = s.cells := by
  unfold State.thErrs
  repeat' (first
    | with_reducible rfl
    | intro _
    | (simp only [State.modCl_cells, implies_true, State.cells_mk, State.cells_eta])
    | with_reducible refine ite_cells _ _ _ _ ?_ ?_
    | split)

@[simp] theorem State.creditSamples_cells (n : Nat) (s : State) : (State.creditSamples n s).cells = s.cells := by
  unfold State.creditSamples
  repeat' (first
    | with_reducible rfl
    | intro _
    | (simp only [State.modCl_cells, implies_true, State.cells_mk, State.cells_eta])
    | with_reducible refine ite_cells _ _ _ _ ?_ ?_
    | with_reducible refine (foldl_cells _ _ ?_ _).trans ?_
    | with_reducible refine (foldl2_cells _ _ ?_ _).trans ?_
    | split)

@[simp] theorem State.decayRc_cells (n : Nat) (s : State) : (State.decayRc n s).cells = s.cells := by
  unfold State.decayRc
  repeat' (first
    | with_reducible rfl
    | intro _
    | (simp only [State.modHalf_cells, implies_true, State.cells_mk, State.cells_eta])
    | with_reducible refine ite_cells _ _ _ _ ?_ ?_
    | with_reducible refine (each_cells _ _ ?_ _).trans ?_
    | split)

@[simp] theorem State.sawSample_cells (n : Nat) (s : State) : (State.sawSample n s).cells = s.cells := by
  unfold State.sawSample
  repeat' (first
    | with_reducible rfl
    | intro _
    | (simp only [State.modDm_cells, implies_true, State.cells_mk, State.cells_eta])
    | with_reducible refine ite_cells _ _ _ _ ?_ ?_
    | with_reducible refine (each_cells _ _ ?_ _).trans ?_
    | split)

/-! ## Probe -/

@[simp] theorem State.probeRamp_cells (p : Probe) (code : Nat) (s : State) : (State.probeRamp p code s).cells = s.cells := by
  unfold State.probeRamp
  repeat' (first
    | with_reducible rfl
    | intro _
    | (simp only [State.placeDom_cells, State.put_cells, implies_true, State.cells_mk, State.cells_eta])
    | with_reducible refine ite_cells _ _ _ _ ?_ ?_
    | split)

@[simp] theorem State.setProbe_cells (p : Probe) (s : State) : (State.setProbe p s).cells = s.cells := by
  unfold State.setProbe
  repeat' (first
    | with_reducible rfl
    | intro _
    | (simp only [State.put_cells, implies_true, State.cells_mk, State.cells_eta])
    | with_reducible refine ite_cells _ _ _ _ ?_ ?_
    | split)

@[simp] theorem State.endProbe_cells (slot : Nat) (s : State) : (State.endProbe slot s).cells = s.cells := by
  unfold State.endProbe
  repeat' (first
    | with_reducible rfl
    | intro _
    | (simp only [State.modDm_cells, implies_true, State.cells_mk, State.cells_eta])
    | with_reducible refine ite_cells _ _ _ _ ?_ ?_
    | split)

@[simp] theorem State.probeRestore_cells (slot : Nat) (stop : Nat) (s : State) : (State.probeRestore slot stop s).cells = s.cells := by
  unfold State.probeRestore
  repeat' (first
    | with_reducible rfl
    | intro _
    | (simp only [State.probeRamp_cells, implies_true, State.cells_mk, State.cells_eta])
    | with_reducible refine ite_cells _ _ _ _ ?_ ?_
    | split)

@[simp] theorem State.probeStep_cells (slot : Nat) (k : Nat) (s : State) : (State.probeStep slot k s).cells = s.cells := by
  unfold State.probeStep
  repeat' (first
    | with_reducible rfl
    | intro _
    | (simp only [State.probeRamp_cells, State.probeRestore_cells, implies_true, State.cells_mk, State.cells_eta])
    | with_reducible refine ite_cells _ _ _ _ ?_ ?_
    | split)

@[simp] theorem State.probeCheck_cells (s : State) : (State.probeCheck s).cells = s.cells := by
  unfold State.probeCheck
  repeat' (first
    | with_reducible rfl
    | intro _
    | (simp only [State.probeRestore_cells, State.setProbe_cells, implies_true, State.cells_mk, State.cells_eta])
    | with_reducible refine ite_cells _ _ _ _ ?_ ?_
    | with_reducible refine (each_cells _ _ ?_ _).trans ?_
    | split)

@[simp] theorem State.probeSettled_cells (d : Nat) (s : State) : (State.probeSettled d s).cells = s.cells := by
  unfold State.probeSettled
  repeat' (first
    | with_reducible rfl
    | intro _
    | (simp only [State.setProbe_cells, State.startWrite_cells, implies_true, State.cells_mk, State.cells_eta])
    | with_reducible refine ite_cells _ _ _ _ ?_ ?_
    | with_reducible refine (each_cells _ _ ?_ _).trans ?_
    | split)

@[simp] theorem State.probeTimeout_cells (d : Nat) (s : State) : (State.probeTimeout d s).cells = s.cells := by
  unfold State.probeTimeout
  repeat' (first
    | with_reducible rfl
    | intro _
    | (simp only [State.probeRestore_cells, implies_true, State.cells_mk, State.cells_eta])
    | with_reducible refine ite_cells _ _ _ _ ?_ ?_
    | with_reducible refine (each_cells _ _ ?_ _).trans ?_
    | split)

@[simp] theorem State.probeAcked_cells (slot : Nat) (last : Bool) (s : State) : (State.probeAcked slot last s).cells = s.cells := by
  unfold State.probeAcked
  repeat' (first
    | with_reducible rfl
    | intro _
    | (simp only [State.complete_cells, State.endProbe_cells, State.setProbe_cells, implies_true, State.cells_mk, State.cells_eta])
    | with_reducible refine ite_cells _ _ _ _ ?_ ?_
    | split)

@[simp] theorem State.probeVerdict_cells (slot : Nat) (w : Option Word64) (s : State) : (State.probeVerdict slot w s).cells = s.cells := by
  unfold State.probeVerdict
  repeat' (first
    | with_reducible rfl
    | intro _
    | (simp only [State.probeRestore_cells, State.probeStep_cells, State.setProbe_cells, implies_true, State.cells_mk, State.cells_eta])
    | with_reducible refine ite_cells _ _ _ _ ?_ ?_
    | split)

/-! ## Retake -/

@[simp] theorem State.modPlayed_cells (c : Nat) (seq : Nat) (f : Played → Played) (s : State) : (State.modPlayed c seq f s).cells = s.cells := by
  unfold State.modPlayed
  repeat' (first
    | with_reducible rfl
    | intro _
    | (simp only [State.modCx_cells, implies_true, State.cells_mk, State.cells_eta])
    | with_reducible refine ite_cells _ _ _ _ ?_ ?_
    | split)

@[simp] theorem State.issue_cells (c : Nat) (seq : Nat) (cause : Nat) (unit : Nat) (t0 : Nat) (t1 : Nat) (s : State) : (State.issue c seq cause unit t0 t1 s).cells = s.cells := by
  unfold State.issue
  repeat' (first
    | with_reducible rfl
    | intro _
    | (simp only [State.modCx_cells, State.modPlayed_cells, State.postEvent_cells, implies_true, State.cells_mk, State.cells_eta])
    | with_reducible refine ite_cells _ _ _ _ ?_ ?_
    | split)

@[simp] theorem State.issueAll_cells (c : Nat) (cause : Nat) (unit : Nat) (t0 : Nat) (t1 : Nat) (s : State) : (State.issueAll c cause unit t0 t1 s).cells = s.cells := by
  unfold State.issueAll
  repeat' (first
    | with_reducible rfl
    | intro _
    | (simp only [State.issue_cells, implies_true, State.cells_mk, State.cells_eta])
    | with_reducible refine ite_cells _ _ _ _ ?_ ?_
    | with_reducible refine (each_cells _ _ ?_ _).trans ?_
    | split)

@[simp] theorem State.trigOpen_cells (d : Option Nat) (cause : Nat) (unit : Nat) (t0 : Nat) (s : State) : (State.trigOpen d cause unit t0 s).cells = s.cells := by
  unfold State.trigOpen
  repeat' (first
    | with_reducible rfl
    | intro _
    | (simp only [implies_true, State.cells_mk, State.cells_eta])
    | with_reducible refine ite_cells _ _ _ _ ?_ ?_
    | split)

@[simp] theorem State.trigClose_cells (cause : Nat) (unit : Nat) (t1 : Nat) (s : State) : (State.trigClose cause unit t1 s).cells = s.cells := by
  unfold State.trigClose
  repeat' (first
    | with_reducible rfl
    | intro _
    | (simp only [State.issue_cells, implies_true, State.cells_mk, State.cells_eta])
    | with_reducible refine ite_cells _ _ _ _ ?_ ?_
    | with_reducible refine (each_cells _ _ ?_ _).trans ?_
    | split)

@[simp] theorem State.endPhases_cells (s : State) : (State.endPhases s).cells = s.cells := by
  unfold State.endPhases
  repeat' (first
    | with_reducible rfl
    | intro _
    | (simp only [State.trigClose_cells, implies_true, State.cells_mk, State.cells_eta])
    | with_reducible refine ite_cells _ _ _ _ ?_ ?_
    | with_reducible refine (each_cells _ _ ?_ _).trans ?_
    | split)

@[simp] theorem State.trigAt_cells (d : Option Nat) (cause : Nat) (unit : Nat) (t0 : Nat) (t1 : Nat) (s : State) : (State.trigAt d cause unit t0 t1 s).cells = s.cells := by
  unfold State.trigAt
  repeat' (first
    | with_reducible rfl
    | intro _
    | (simp only [State.issueAll_cells, implies_true, State.cells_mk, State.cells_eta])
    | with_reducible refine ite_cells _ _ _ _ ?_ ?_
    | with_reducible refine (each_cells _ _ ?_ _).trans ?_
    | split)

@[simp] theorem State.closeCell_cells (n : Nat) (k : Nat) (a : CellState) (b : CellState) (s : State) : (State.closeCell n k a b s).cells = s.cells := by
  unfold State.closeCell
  repeat' (first
    | with_reducible rfl
    | intro _
    | (simp only [State.closeUnit_cells, implies_true, State.cells_mk, State.cells_eta])
    | with_reducible refine ite_cells _ _ _ _ ?_ ?_
    | split)

@[simp] theorem State.noteParks_cells (s : State) (old : State) : (State.noteParks s old).cells = s.cells := by
  unfold State.noteParks
  repeat' (first
    | with_reducible rfl
    | intro _
    | (simp only [State.closeCell_cells, State.probeCheck_cells, State.trigClose_cells, State.trigOpen_cells, implies_true, State.cells_mk, State.cells_eta])
    | with_reducible refine ite_cells _ _ _ _ ?_ ?_
    | with_reducible refine (each_cells _ _ ?_ _).trans ?_
    | split)

@[simp] theorem State.shutCtx_cells (c : Nat) (s : State) : (State.shutCtx c s).cells = s.cells := by
  unfold State.shutCtx
  repeat' (first
    | with_reducible rfl
    | intro _
    | (simp only [State.modCl_cells, State.modCx_cells, State.modHalf_cells, implies_true, State.cells_mk, State.cells_eta])
    | with_reducible refine ite_cells _ _ _ _ ?_ ?_
    | with_reducible refine (each_cells _ _ ?_ _).trans ?_
    | split)

@[simp] theorem State.closeDone_cells (c : Nat) (s : State) : (State.closeDone c s).cells = s.cells := by
  unfold State.closeDone
  repeat' (first
    | with_reducible rfl
    | intro _
    | (simp only [State.complete_cells, State.shutCtx_cells, implies_true, State.cells_mk, State.cells_eta])
    | with_reducible refine ite_cells _ _ _ _ ?_ ?_
    | split)

@[simp] theorem State.wmAdvance_cells (c : Nat) (s : State) : (State.wmAdvance c s).cells = s.cells := by
  unfold State.wmAdvance
  repeat' (first
    | with_reducible rfl
    | intro _
    | (simp only [State.closeDone_cells, State.fire_cells, State.modCx_cells, implies_true, State.cells_mk, State.cells_eta])
    | with_reducible refine ite_cells _ _ _ _ ?_ ?_
    | split)

@[simp] theorem State.endShot_cells (c : Nat) (seq : Nat) (t : Nat) (s : State) : (State.endShot c seq t s).cells = s.cells := by
  unfold State.endShot
  repeat' (first
    | with_reducible rfl
    | intro _
    | (simp only [State.issue_cells, State.modPlayed_cells, implies_true, State.cells_mk, State.cells_eta])
    | with_reducible refine ite_cells _ _ _ _ ?_ ?_
    | split)

@[simp] theorem State.endPlay_cells (c : Nat) (s : State) : (State.endPlay c s).cells = s.cells := by
  unfold State.endPlay
  repeat' (first
    | with_reducible rfl
    | intro _
    | (simp only [State.endShot_cells, implies_true, State.cells_mk, State.cells_eta])
    | with_reducible refine ite_cells _ _ _ _ ?_ ?_
    | with_reducible refine (each_cells _ _ ?_ _).trans ?_
    | split)

@[simp] theorem State.noticeAll_cells (c : Nat) (cause : Nat) (t0 : Nat) (s : State) : (State.noticeAll c cause t0 s).cells = s.cells := by
  unfold State.noticeAll
  repeat' (first
    | with_reducible rfl
    | intro _
    | (simp only [State.issue_cells, implies_true, State.cells_mk, State.cells_eta])
    | with_reducible refine ite_cells _ _ _ _ ?_ ?_
    | with_reducible refine (each_cells _ _ ?_ _).trans ?_
    | split)

@[simp] theorem State.evalShot_cells (c : Nat) (p : Played) (s : State) : (State.evalShot c p s).cells = s.cells := by
  unfold State.evalShot
  repeat' (first
    | with_reducible rfl
    | intro _
    | (simp only [State.issue_cells, State.modPlayed_cells, implies_true, State.cells_mk, State.cells_eta])
    | with_reducible refine ite_cells _ _ _ _ ?_ ?_
    | with_reducible refine (each_cells _ _ ?_ _).trans ?_
    | split)

/-! ## Raises below FATAL -/

theorem State.collect_cells (r : Raise) (s : State) (h : r.cls ≠ 4) : (s.collect r).cells = s.cells := by
  unfold State.collect
  have h4 : (r.cls == 4) = false := by simpa using h
  dsimp only
  rw [h4]
  simp only [Bool.false_eq_true, if_false]
  have hc : (State.wakeGaf (match scopeClu r.sc with
    | some n => s.wakeClu n
    | none => s)).cells = s.cells := by
    rw [State.wakeGaf_cells]
    split
    · exact State.wakeClu_cells _ _
    · rfl
  generalize State.wakeGaf _ = x at hc ⊢
  rw [← hc]
  split <;> rfl

/-- A raise of a code that is not FATAL leaves every cell as it was. -/
theorem State.raise_cells (code : Nat) (sc : Scope) (d : Nat) (s : State) (h : fltClass code ≠ some 4) :
    (s.raise code sc d).cells = s.cells := by
  refine State.collect_cells _ s ?_
  show (fltClass code).getD 1 ≠ 4
  cases hc : fltClass code with
  | none => decide
  | some k => intro e; apply h; rw [hc]; simpa using e

theorem State.cell_eq_of_cells {s t : State} (h : s.cells = t.cells) (n k : Nat) : s.cell n k = t.cell n k :=
  congrFun (congrFun h n) k

/-- A DEGRADED or CORRECTED raise is open afterwards (14 R433). -/
theorem State.raise_open (code : Nat) (sc : Scope) (d k : Nat) (s : State) (hk : fltClass code = some k) (h2 : 2 ≤ k)
    (h4 : k ≠ 4) :
    (s.raise code sc d).flt.opens.any (fun f => f.code == code && f.sc == sc && f.cls == k) = true := by
  unfold State.raise State.collect
  rw [hk]
  have e4 : (k == 4) = false := by simpa using h4
  have e2 : ¬ k < 2 := by omega
  simp only [Option.getD_some, e4, Bool.false_eq_true, if_false]
  generalize hx : State.wakeGaf _ = x
  split <;> simp [State.fire, State.irqDo, openAfter, e2]

end Sys2Proof.Machine
end

