-- ==== Sys2Proof/Laws/Cycles.lean ====
section
/-! SUPPORT. What a row does that may share a cycle with others: an event that ends its cycle acts at once, one that does not
waits. -/

namespace Sys2Proof.Machine
open Sys2Proof

/-! ## Ledger events (07 R227) -/

/-- A command that is no event of a ledger acts at once. -/
theorem State.ledgerEvent_free (c : Instr) (s : State) (h : s.ledgerOf c = none) : s.ledgerEvent c = s.ledgerDo c := by
  unfold State.ledgerEvent
  rw [h]

/-- An event that ends its cycle acts, at its own instant where it has one. -/
theorem State.ledgerEvent_last (c : Instr) (n r : Nat) (s : State) (h : s.ledgerOf c = some (n, r))
    (hl : LastEvent s n r) :
    s.ledgerEvent c = State.ledgerDo c (match s.ledgerAt c with
      | some t => s.advanceTo t
      | none => s) := by
  have h0 := hl.2 0
  rw [State.advanceTo, if_neg (Nat.not_lt_zero _)] at h0
  unfold State.ledgerEvent
  rw [h]
  cases s.ledgerAt c with
  | none => simp [h0, hl.1]
  | some t =>
    have e : ((s.advanceTo t).cl n).led.defer = [] := by
      unfold State.cl
      rw [advanceTo_clu]
      exact hl.1
    simp only [hl.2 t, Bool.false_eq_true, if_false]
    rw [e]

/-- An event that another of its cycle goes before waits, and nothing else changes. -/
theorem State.ledgerEvent_waits (c : Instr) (n r : Nat) (s u : State) (h : s.ledgerOf c = some (n, r))
    (hu : u = (match s.ledgerAt c with
      | some t => s.advanceTo t
      | none => s)) (hm : u.ledgerMore n r = true) :
    s.ledgerEvent c = u.modCl n (fun x => { x with led := { x.led with defer := x.led.defer ++ [c] } }) := by
  unfold State.ledgerEvent
  rw [h]
  subst hu
  exact if_pos hm

/-- Events of a ledger stand at place 1 or later. -/
theorem State.ledgerOf_pos (c : Instr) (n r : Nat) (s : State) (h : s.ledgerOf c = some (n, r)) : 1 ≤ r := by
  unfold State.ledgerOf at h
  split at h <;> first
    | (split at h <;> simp at h; omega)
    | (simp only [Option.map_eq_some_iff, Prod.mk.injEq] at h; obtain ⟨_, _, _, rfl⟩ := h; decide)
    | (simp only [Option.some.injEq, Prod.mk.injEq] at h; obtain ⟨_, rfl⟩ := h; decide)
    | cases h

/-- A RETURN goes before every other event of a cycle. -/
theorem State.ledgerMore_one (n : Nat) (s : State) : s.ledgerMore n 1 = false := by
  unfold State.ledgerMore
  split
  · rfl
  · split
    · rfl
    · rename_i h
      have := State.ledgerOf_pos _ _ _ _ h
      simp [Nat.not_lt.mpr this]

/-! ## Events of a cell's carrier period (03 R78) -/

/-- With no row of a detector behind it, and no disable waiting, a row has the period to itself. -/
theorem State.cellTop_alone (n k : Nat) (s : State) (h : ∀ c, s.pending.head? = some c → Instr.cellRow c = false)
    (d : (s.cell n k).disDue = false) : s.cellTop n k = 6 := by
  unfold State.cellTop
  rw [d]
  cases e : s.pending with
  | nil => rfl
  | cons c l => rw [List.takeWhile_cons, h c (by rw [e]; rfl)]; rfl

/-- Time leaves the rank as it is. -/
theorem State.advanceTo_cellTop (t n k : Nat) (s : State) : (s.advanceTo t).cellTop n k = s.cellTop n k := by
  unfold State.advanceTo
  split <;> rfl

/-! ## Cues and switches of one cycle (06 R196) -/

/-- A switch that is not due behind a cue changes nothing. -/
theorem State.switchWaiting_idle (c : Nat) (s : State) (h : (s.cx c).switchDue = false) : s.switchWaiting c = s := by
  unfold State.switchWaiting
  rw [h]
  rfl

/-- Time leaves the next waiting cue as it is. -/
theorem State.advanceTo_cueNext (t c : Nat) (s : State) : (s.advanceTo t).cueNext c = s.cueNext c := by
  by_cases h : s.elapsed < t
  · rw [State.advanceTo, if_pos h]; rfl
  · rw [State.advanceTo, if_neg h]

/-! ## Time and the plan (05 R155) -/

/-- Time leaves the shots ahead as they are. -/
theorem State.advance_window (d c fuel : Nat) (i : Option Nat) (s : State) :
    (s.advance d).window c fuel i = s.window c fuel i := by
  induction fuel generalizing i with
  | zero => rfl
  | succ f ih =>
    cases i with
    | none => rfl
    | some i => exact congrArg (i :: ·) (ih _)

/-- Time leaves the planned onsets as they are. -/
theorem State.advance_ahead (d c : Nat) (s : State) : (s.advance d).ahead c = s.ahead c := by
  unfold State.ahead
  simp only [State.advance_window]
  rfl

/-- Time leaves the next preparation as it is. -/
theorem State.advanceTo_nextPrep (t n h : Nat) (s : State) : (s.advanceTo t).nextPrep n h = s.nextPrep n h := by
  by_cases e : s.elapsed < t
  · rw [State.advanceTo, if_pos e]
    unfold State.nextPrep
    simp only [State.advance_ahead]
    rfl
  · rw [State.advanceTo, if_neg e]

/-! ## Slate events (08 R276) -/

/-- A slate event that is alone in its word clock acts, at its own instant where it has one. -/
theorem State.slateEvent_alone (c : Instr) (s : State) (h : Alone s) :
    s.slateEvent c = State.slateDo c ((match s.slateAt c with
      | some t => s.advanceTo t
      | none => s).modSlt (fun x => { x with defer := [] })) := by
  have h0 := h.2 0
  rw [State.advanceTo, if_neg (Nat.not_lt_zero _)] at h0
  unfold State.slateEvent
  cases s.slateAt c with
  | none =>
    simp only [h0, h.1, Bool.false_eq_true, if_false]
    rfl
  | some t =>
    have e : (s.advanceTo t).slt.defer = [] := by rw [advanceTo_slt]; exact h.1
    simp only [h.2 t, e, Bool.false_eq_true, if_false]
    rfl

end Sys2Proof.Machine
end

