-- ==== Sys2Proof/Laws/Rest.lean ====
section
/-! SUPPORT. What the shared operations of Ops.lean leave as it was. -/

namespace Sys2Proof.Machine
open Sys2Proof

/-- the parts of State that no shared operation of Ops.lean changes -/
structure Rest where
  pending : List Instr
  oscPhase : Nat
  vaon : Bool
  supply : Bool
  epoch : Word64
  sync : SyncIn
  edgeKey : Nat
  dom : Vector Domain 128
  csh : Option CallSheet
  cshNew : Option (Nat × CallSheet)
  assembled : Bool
  cueQ : List (Word64 × Nat)
  cueDrop : Nat
  cueSkip : Nat
  up : Upper
  msgs : List LMsg
  reclaim : Nat
  ledgerErr : Nat
  bal : Vector (Vector Nat 2) 64
  busSeq : Nat
  busAt : Nat
  busDue : Option Nat
  trigs : List Trig
  slt : Slate
  ch : Vector Channel 66
  vrtCfg : Word32
  vrtCap : Word32
  nv : Nv
  stamps : Vector StampReg 64
  probes : Tab Probe
  selft : Option SelfT
  march : Option Nat
  sec : Secure
  latches : Tab Word32
  epochLo : Tab Word32
  board : Board
  buses : Buses
  legacy : Legacy
  boot : Boot
  vin : Vin
  trip : Bool
  tripClu : Nat
  stalled : List Instr
  sramCorr : Nat
  secCorr : Nat
  retCorr : Nat

/-- The parts of State that no shared operation of Ops.lean changes -/
def State.rest (s : State) : Rest := ⟨s.pending, s.oscPhase, s.vaon, s.supply, s.epoch, s.sync, s.edgeKey, s.dom,
  s.csh, s.cshNew, s.assembled, s.cueQ, s.cueDrop, s.cueSkip, s.up, s.msgs, s.reclaim, s.ledgerErr, s.bal, s.busSeq,
  s.busAt, s.busDue, s.trigs, s.slt, s.ch, s.vrtCfg, s.vrtCap, s.nv, s.stamps, s.probes, s.selft, s.march, s.sec,
  s.latches, s.epochLo, s.board, s.buses, s.legacy, s.boot, s.vin, s.trip, s.tripClu, s.stalled, s.sramCorr,
  s.secCorr, s.retCorr⟩

theorem State.rest_eta (s : State) : (⟨s.pending, s.oscPhase, s.vaon, s.supply, s.epoch, s.sync, s.edgeKey, s.dom,
  s.csh, s.cshNew, s.assembled, s.cueQ, s.cueDrop, s.cueSkip, s.up, s.msgs, s.reclaim, s.ledgerErr, s.bal, s.busSeq,
  s.busAt, s.busDue, s.trigs, s.slt, s.ch, s.vrtCfg, s.vrtCap, s.nv, s.stamps, s.probes, s.selft, s.march, s.sec,
  s.latches, s.epochLo, s.board, s.buses, s.legacy, s.boot, s.vin, s.trip, s.tripClu, s.stalled, s.sramCorr,
  s.secCorr, s.retCorr⟩ : Rest) = s.rest := rfl

theorem State.rest_mk x_pending x_out x_freeCtr x_elapsed x_oscPhase x_vaon x_supply x_epoch x_sync x_edgeKey x_clu
  x_dom x_csh x_cshNew x_assembled x_ctx x_cueQ x_cueDrop x_cueSkip x_up x_msgs x_reclaim x_ledgerErr x_bal x_busSeq
  x_busAt x_busDue x_trigs x_slt x_ch x_vrtCfg x_vrtCap x_host x_flt x_irq x_nv x_stamps x_probes x_selft x_march
  x_sec x_latches x_epochLo x_board x_buses x_legacy x_boot x_vin x_trip x_tripClu x_pins x_pow x_gafClock x_gafIdle
  x_stalled x_sramCorr x_secCorr x_retCorr : State.rest ⟨x_pending, x_out, x_freeCtr, x_elapsed, x_oscPhase, x_vaon,
  x_supply, x_epoch, x_sync, x_edgeKey, x_clu, x_dom, x_csh, x_cshNew, x_assembled, x_ctx, x_cueQ, x_cueDrop,
  x_cueSkip, x_up, x_msgs, x_reclaim, x_ledgerErr, x_bal, x_busSeq, x_busAt, x_busDue, x_trigs, x_slt, x_ch,
  x_vrtCfg, x_vrtCap, x_host, x_flt, x_irq, x_nv, x_stamps, x_probes, x_selft, x_march, x_sec, x_latches, x_epochLo,
  x_board, x_buses, x_legacy, x_boot, x_vin, x_trip, x_tripClu, x_pins, x_pow, x_gafClock, x_gafIdle, x_stalled,
  x_sramCorr, x_secCorr, x_retCorr⟩ = ⟨x_pending, x_oscPhase, x_vaon, x_supply, x_epoch, x_sync, x_edgeKey, x_dom,
  x_csh, x_cshNew, x_assembled, x_cueQ, x_cueDrop, x_cueSkip, x_up, x_msgs, x_reclaim, x_ledgerErr, x_bal, x_busSeq,
  x_busAt, x_busDue, x_trigs, x_slt, x_ch, x_vrtCfg, x_vrtCap, x_nv, x_stamps, x_probes, x_selft, x_march, x_sec,
  x_latches, x_epochLo, x_board, x_buses, x_legacy, x_boot, x_vin, x_trip, x_tripClu, x_stalled, x_sramCorr,
  x_secCorr, x_retCorr⟩ := rfl

theorem ite_rest (c : Prop) [Decidable c] (a b x : State) (ha : a.rest = x.rest) (hb : b.rest = x.rest) :
    (if c then a else b).rest = x.rest := by
  split <;> assumption

theorem each_rest {α : Type} (l : List α) (f : α → State → State) (h : ∀ a s, (f a s).rest = s.rest)
    (s : State) : (each l f s).rest = s.rest := by
  unfold each
  induction l generalizing s with
  | nil => rfl
  | cons a l ih => simp only [List.foldl_cons]; rw [ih, h]

theorem foldl_rest {α : Type} (l : List α) (f : State → α → State) (h : ∀ s a, (f s a).rest = s.rest)
    (s : State) : (l.foldl f s).rest = s.rest := by
  induction l generalizing s with
  | nil => rfl
  | cons a l ih => simp only [List.foldl_cons]; rw [ih, h]

theorem foldl2_rest {α β : Type} (l : List α) (f : β × State → α → β × State)
    (h : ∀ s a, (f s a).2.rest = s.2.rest) (s : β × State) : (l.foldl f s).2.rest = s.2.rest := by
  induction l generalizing s with
  | nil => rfl
  | cons a l ih => simp only [List.foldl_cons]; rw [ih, h]

/-! ## Operands -/

@[simp] theorem State.modCl_rest (s : State) (n : Nat) (f : Cluster → Cluster) : (State.modCl s n f).rest = s.rest
    := by
  unfold State.modCl
  repeat' (first
    | with_reducible rfl
    | (simp only [State.rest_mk, State.rest_eta])
    | split)

@[simp] theorem State.modCell_rest (s : State) (n : Nat) (k : Nat) (f : Cell → Cell) : (State.modCell s n k f).rest
    = s.rest := by
  unfold State.modCell
  repeat' (first
    | with_reducible rfl
    | (simp only [State.modCl_rest, State.rest_mk, State.rest_eta])
    | split)

@[simp] theorem State.modHalf_rest (s : State) (n : Nat) (h : Nat) (f : Half → Half) : (State.modHalf s n h f).rest
    = s.rest := by
  unfold State.modHalf
  repeat' (first
    | with_reducible rfl
    | (simp only [State.modCl_rest, State.rest_mk, State.rest_eta])
    | split)

@[simp] theorem State.modCx_rest (s : State) (c : Nat) (f : Context → Context) : (State.modCx s c f).rest = s.rest
    := by
  unfold State.modCx
  repeat' (first
    | with_reducible rfl
    | (simp only [State.rest_mk, State.rest_eta])
    | split)

/-! ## Ops -/

@[simp] theorem State.advance_rest (dt : Nat) (s : State) : (State.advance dt s).rest = s.rest := by
  unfold State.advance
  repeat' (first
    | with_reducible rfl
    | (simp only [State.rest_mk, State.rest_eta])
    | with_reducible refine ite_rest _ _ _ _ ?_ ?_
    | split)

@[simp] theorem State.advanceTo_rest (t : Nat) (s : State) : (State.advanceTo t s).rest = s.rest := by
  unfold State.advanceTo
  repeat' (first
    | with_reducible rfl
    | (simp only [State.advance_rest, State.rest_mk, State.rest_eta])
    | with_reducible refine ite_rest _ _ _ _ ?_ ?_
    | split)

@[simp] theorem State.put_rest (o : Out) (s : State) : (State.put o s).rest = s.rest := by
  unfold State.put
  repeat' (first
    | with_reducible rfl
    | (simp only [State.rest_mk, State.rest_eta])
    | split)

@[simp] theorem State.drawNat_rest (s : State) : (State.drawNat s).2.rest = s.rest := by
  unfold State.drawNat
  repeat' (first
    | with_reducible rfl
    | (simp only [State.rest_mk, State.rest_eta])
    | split)

@[simp] theorem State.drawInt_rest (s : State) : (State.drawInt s).2.rest = s.rest := by
  unfold State.drawInt
  repeat' (first
    | with_reducible rfl
    | (simp only [State.rest_mk, State.rest_eta])
    | split)

@[simp] theorem State.irqDo_rest (f : Irq → Irq) (s : State) : (State.irqDo f s).rest = s.rest := by
  unfold State.irqDo
  repeat' (first
    | with_reducible rfl
    | (simp only [State.rest_mk, State.rest_eta])
    | split)

@[simp] theorem State.fire_rest (i : Nat) (s : State) : (State.fire i s).rest = s.rest := by
  unfold State.fire
  repeat' (first
    | with_reducible rfl
    | (simp only [State.irqDo_rest, State.rest_mk, State.rest_eta])
    | split)

@[simp] theorem State.noticeLost_rest (n : Option (Nat × Nat)) (s : State) : (State.noticeLost n s).rest = s.rest :=
    by
  unfold State.noticeLost
  repeat' (first
    | with_reducible rfl
    | (simp only [State.modCx_rest, State.rest_mk, State.rest_eta])
    | with_reducible refine ite_rest _ _ _ _ ?_ ?_
    | split)

@[simp] theorem State.noticeAcked_rest (n : Option (Nat × Nat)) (s : State) : (State.noticeAcked n s).rest = s.rest
    := by
  unfold State.noticeAcked
  repeat' (first
    | with_reducible rfl
    | (simp only [State.modCx_rest, State.rest_mk, State.rest_eta])
    | with_reducible refine ite_rest _ _ _ _ ?_ ?_
    | split)

@[simp] theorem State.evLost_rest (j : Nat) (n : Option (Nat × Nat)) (s : State) : (State.evLost j n s).rest =
    s.rest := by
  unfold State.evLost
  repeat' (first
    | with_reducible rfl
    | (simp only [State.fire_rest, State.noticeLost_rest, State.rest_mk, State.rest_eta])
    | with_reducible refine ite_rest _ _ _ _ ?_ ?_
    | split)

@[simp] theorem State.ovfWrite_rest (c : Nat) (e : EvRec) (s : State) : (State.ovfWrite c e s).rest = s.rest := by
  unfold State.ovfWrite
  split <;> rfl

@[simp] theorem State.postEvent_rest (ctx : Option Nat) (words : List Word64) (clu : Option Nat) (n : Option (Nat ×
    Nat)) (s : State) : (State.postEvent ctx words clu n s).rest = s.rest := by
  unfold State.postEvent
  repeat' (first
    | with_reducible rfl
    | (simp only [State.ovfWrite_rest, State.evLost_rest, State.fire_rest, State.noticeLost_rest, State.rest_mk, State.rest_eta])
    | with_reducible refine ite_rest _ _ _ _ ?_ ?_
    | split)

theorem State.refillBuf_rest : ∀ (f : Nat) (s : State), (State.refillBuf f s).rest = s.rest
  | 0, _ => rfl
  | f + 1, s => by
    unfold State.refillBuf
    split
    · dsimp only
      split
      · rfl
      · refine (State.refillBuf_rest f _).trans ?_
        split
        · exact State.evLost_rest _ _ _
        · rfl
    · rfl

@[simp] theorem State.parkAll_rest (s : State) : (State.parkAll s).rest = s.rest := by
  unfold State.parkAll
  repeat' (first
    | with_reducible rfl
    | (simp only [State.rest_mk, State.rest_eta])
    | split)

@[simp] theorem State.enterFatal_rest (s : State) : (State.enterFatal s).rest = s.rest := by
  unfold State.enterFatal
  repeat' (first
    | with_reducible rfl
    | intro _
    | (simp only [State.noticeLost_rest, State.parkAll_rest, State.rest_mk, State.rest_eta])
    | with_reducible refine ite_rest _ _ _ _ ?_ ?_
    | with_reducible refine (foldl_rest _ _ ?_ _).trans ?_
    | with_reducible refine (foldl2_rest _ _ ?_ _).trans ?_
    | split)

@[simp] theorem State.wakeGaf_rest (s : State) : (State.wakeGaf s).rest = s.rest := by
  unfold State.wakeGaf
  repeat' (first
    | with_reducible rfl
    | (simp only [State.rest_mk, State.rest_eta])
    | with_reducible refine ite_rest _ _ _ _ ?_ ?_
    | split)

@[simp] theorem State.wakeClu_rest (n : Nat) (s : State) : (State.wakeClu n s).rest = s.rest := by
  unfold State.wakeClu
  repeat' (first
    | with_reducible rfl
    | (simp only [State.modCl_rest, State.wakeGaf_rest, State.rest_mk, State.rest_eta])
    | with_reducible refine ite_rest _ _ _ _ ?_ ?_
    | split)

@[simp] theorem State.wakeAll_rest (s : State) : (State.wakeAll s).rest = s.rest := by
  unfold State.wakeAll
  repeat' (first
    | with_reducible rfl
    | intro _
    | (simp only [State.wakeClu_rest, State.wakeGaf_rest, State.rest_mk, State.rest_eta])
    | with_reducible refine (each_rest _ _ ?_ _).trans ?_
    | split)

@[simp] theorem State.collect_rest (r0 : Raise) (s : State) : (State.collect r0 s).rest = s.rest := by
  unfold State.collect
  repeat' (first
    | with_reducible rfl
    | (simp only [State.enterFatal_rest, State.fire_rest, State.wakeClu_rest, State.wakeGaf_rest, State.rest_mk,
      State.rest_eta])
    | with_reducible refine ite_rest _ _ _ _ ?_ ?_
    | split)

@[simp] theorem State.raise_rest (code : Nat) (sc : Scope) (detail : Nat) (s : State) : (State.raise code sc detail
    s).rest = s.rest := by
  unfold State.raise
  repeat' (first
    | with_reducible rfl
    | (simp only [State.collect_rest, State.rest_mk, State.rest_eta])
    | split)

@[simp] theorem State.raiseAcc_rest (code : Nat) (sc : Scope) (detail : Nat) (addr : Nat) (master : Nat) (acc : Nat)
    (inj : Bool) (s : State) : (State.raiseAcc code sc detail addr master acc inj s).rest = s.rest := by
  unfold State.raiseAcc
  repeat' (first
    | with_reducible rfl
    | (simp only [State.collect_rest, State.rest_mk, State.rest_eta])
    | split)

@[simp] theorem State.injected_rest (b : Bool) (f : State → State) (s : State) (hf : ∀ s, (f s).rest = s.rest) :
    (State.injected b f s).rest = s.rest := by
  unfold State.injected
  repeat' (first
    | with_reducible rfl
    | (simp only [hf, State.rest_mk, State.rest_eta])
    | with_reducible refine ite_rest _ _ _ _ ?_ ?_
    | split)

@[simp] theorem State.closeFlt_rest (p : Flt → Bool) (s : State) : (State.closeFlt p s).rest = s.rest := by
  unfold State.closeFlt
  repeat' (first
    | with_reducible rfl
    | (simp only [State.rest_mk, State.rest_eta])
    | split)

@[simp] theorem State.closeUnit_rest (u : Nat) (codes : List Nat) (s : State) : (State.closeUnit u codes s).rest =
    s.rest := by
  unfold State.closeUnit
  repeat' (first
    | with_reducible rfl
    | (simp only [State.closeFlt_rest, State.rest_mk, State.rest_eta])
    | split)

@[simp] theorem State.modCmd_rest (slot : Nat) (f : Cmd → Cmd) (s : State) : (State.modCmd slot f s).rest = s.rest
    := by
  unfold State.modCmd
  repeat' (first
    | with_reducible rfl
    | (simp only [State.rest_mk, State.rest_eta])
    | split)

@[simp] theorem State.completeAfter_rest (slot : Nat) (st : Status) (res : Nat) (after : List Nat) (s : State) :
    (State.completeAfter slot st res after s).rest = s.rest := by
  unfold State.completeAfter
  conv => zeta
  repeat' (first
    | with_reducible rfl
    | (simp only [State.put_rest, State.rest_mk, State.rest_eta])
    | with_reducible refine ite_rest _ _ _ _ ?_ ?_
    | split)

@[simp] theorem State.complete_rest (slot : Nat) (st : Status) (res : Nat) (s : State) : (State.complete slot st res
    s).rest = s.rest := by
  unfold State.complete
  repeat' (first
    | with_reducible rfl
    | (simp only [State.completeAfter_rest, State.rest_mk, State.rest_eta])
    | split)

@[simp] theorem State.completeOpt_rest (slot : Option Nat) (st : Status) (res : Nat) (s : State) :
    (State.completeOpt slot st res s).rest = s.rest := by
  unfold State.completeOpt
  repeat' (first
    | with_reducible rfl
    | (simp only [State.complete_rest, State.rest_mk, State.rest_eta])
    | split)

@[simp] theorem State.startRead_rest (addr : Nat) (bytes : Nat) (use : RdUse) (src : Nat) (s : State) :
    (State.startRead addr bytes use src s).rest = s.rest := by
  unfold State.startRead
  conv => zeta
  repeat' (first
    | with_reducible rfl
    | (simp only [State.put_rest, State.rest_mk, State.rest_eta])
    | split)

@[simp] theorem State.endRead_rest (id : Nat) (s : State) : (State.endRead id s).rest = s.rest := by
  unfold State.endRead
  conv => zeta
  repeat' (first
    | with_reducible rfl
    | (simp only [State.put_rest, State.rest_mk, State.rest_eta])
    | split)

@[simp] theorem State.startWrite_rest (addr : Nat) (words : List Word64) (use : WrUse) (s : State) :
    (State.startWrite addr words use s).rest = s.rest := by
  unfold State.startWrite
  repeat' (first
    | with_reducible rfl
    | (simp only [State.put_rest, State.rest_mk, State.rest_eta])
    | split)

theorem State.writeLong_rest : ∀ (f a : Nat) (w : List Word64) (u : Bool → WrUse) (s : State), (State.writeLong f a w u s).rest = s.rest
  | 0, _, _, _, _ => rfl
  | f + 1, a, w, u, s => by
    unfold State.writeLong
    dsimp only
    split
    · exact State.startWrite_rest _ _ _ _
    · exact (State.writeLong_rest f _ _ u _).trans (State.startWrite_rest _ _ _ _)

@[simp] theorem State.endWrite_rest (id : Nat) (s : State) : (State.endWrite id s).rest = s.rest := by
  unfold State.endWrite
  repeat' (first
    | with_reducible rfl
    | (simp only [State.put_rest, State.rest_mk, State.rest_eta])
    | split)

@[simp] theorem State.writeIndex_rest (ring : Nat) (v : Word32) (s : State) : (State.writeIndex ring v s).rest =
    s.rest := by
  unfold State.writeIndex
  repeat' (first
    | with_reducible rfl
    | (simp only [State.startWrite_rest, State.rest_mk, State.rest_eta])
    | with_reducible refine ite_rest _ _ _ _ ?_ ?_
    | split)

/-! ## Single fields after raise -/

@[simp] theorem raise_pending (code : Nat) (sc : Scope) (detail : Nat) (s : State) : (s.raise code sc detail).pending = s.pending := congrArg Rest.pending (State.raise_rest code sc detail s)
@[simp] theorem raise_oscPhase (code : Nat) (sc : Scope) (detail : Nat) (s : State) : (s.raise code sc detail).oscPhase = s.oscPhase := congrArg Rest.oscPhase (State.raise_rest code sc detail s)
@[simp] theorem raise_vaon (code : Nat) (sc : Scope) (detail : Nat) (s : State) : (s.raise code sc detail).vaon = s.vaon := congrArg Rest.vaon (State.raise_rest code sc detail s)
@[simp] theorem raise_supply (code : Nat) (sc : Scope) (detail : Nat) (s : State) : (s.raise code sc detail).supply = s.supply := congrArg Rest.supply (State.raise_rest code sc detail s)
@[simp] theorem raise_epoch (code : Nat) (sc : Scope) (detail : Nat) (s : State) : (s.raise code sc detail).epoch = s.epoch := congrArg Rest.epoch (State.raise_rest code sc detail s)
@[simp] theorem raise_sync (code : Nat) (sc : Scope) (detail : Nat) (s : State) : (s.raise code sc detail).sync = s.sync := congrArg Rest.sync (State.raise_rest code sc detail s)
@[simp] theorem raise_edgeKey (code : Nat) (sc : Scope) (detail : Nat) (s : State) : (s.raise code sc detail).edgeKey = s.edgeKey := congrArg Rest.edgeKey (State.raise_rest code sc detail s)
@[simp] theorem raise_dom (code : Nat) (sc : Scope) (detail : Nat) (s : State) : (s.raise code sc detail).dom = s.dom := congrArg Rest.dom (State.raise_rest code sc detail s)
@[simp] theorem raise_csh (code : Nat) (sc : Scope) (detail : Nat) (s : State) : (s.raise code sc detail).csh = s.csh := congrArg Rest.csh (State.raise_rest code sc detail s)
@[simp] theorem raise_cshNew (code : Nat) (sc : Scope) (detail : Nat) (s : State) : (s.raise code sc detail).cshNew = s.cshNew := congrArg Rest.cshNew (State.raise_rest code sc detail s)
@[simp] theorem raise_assembled (code : Nat) (sc : Scope) (detail : Nat) (s : State) : (s.raise code sc detail).assembled = s.assembled := congrArg Rest.assembled (State.raise_rest code sc detail s)
@[simp] theorem raise_cueQ (code : Nat) (sc : Scope) (detail : Nat) (s : State) : (s.raise code sc detail).cueQ = s.cueQ := congrArg Rest.cueQ (State.raise_rest code sc detail s)
@[simp] theorem raise_cueDrop (code : Nat) (sc : Scope) (detail : Nat) (s : State) : (s.raise code sc detail).cueDrop = s.cueDrop := congrArg Rest.cueDrop (State.raise_rest code sc detail s)
@[simp] theorem raise_cueSkip (code : Nat) (sc : Scope) (detail : Nat) (s : State) : (s.raise code sc detail).cueSkip = s.cueSkip := congrArg Rest.cueSkip (State.raise_rest code sc detail s)
@[simp] theorem raise_up (code : Nat) (sc : Scope) (detail : Nat) (s : State) : (s.raise code sc detail).up = s.up := congrArg Rest.up (State.raise_rest code sc detail s)
@[simp] theorem raise_msgs (code : Nat) (sc : Scope) (detail : Nat) (s : State) : (s.raise code sc detail).msgs = s.msgs := congrArg Rest.msgs (State.raise_rest code sc detail s)
@[simp] theorem raise_reclaim (code : Nat) (sc : Scope) (detail : Nat) (s : State) : (s.raise code sc detail).reclaim = s.reclaim := congrArg Rest.reclaim (State.raise_rest code sc detail s)
@[simp] theorem raise_ledgerErr (code : Nat) (sc : Scope) (detail : Nat) (s : State) : (s.raise code sc detail).ledgerErr = s.ledgerErr := congrArg Rest.ledgerErr (State.raise_rest code sc detail s)
@[simp] theorem raise_bal (code : Nat) (sc : Scope) (detail : Nat) (s : State) : (s.raise code sc detail).bal = s.bal := congrArg Rest.bal (State.raise_rest code sc detail s)
@[simp] theorem raise_busSeq (code : Nat) (sc : Scope) (detail : Nat) (s : State) : (s.raise code sc detail).busSeq = s.busSeq := congrArg Rest.busSeq (State.raise_rest code sc detail s)
@[simp] theorem raise_busAt (code : Nat) (sc : Scope) (detail : Nat) (s : State) : (s.raise code sc detail).busAt = s.busAt := congrArg Rest.busAt (State.raise_rest code sc detail s)
@[simp] theorem raise_busDue (code : Nat) (sc : Scope) (detail : Nat) (s : State) : (s.raise code sc detail).busDue = s.busDue := congrArg Rest.busDue (State.raise_rest code sc detail s)
@[simp] theorem raise_trigs (code : Nat) (sc : Scope) (detail : Nat) (s : State) : (s.raise code sc detail).trigs = s.trigs := congrArg Rest.trigs (State.raise_rest code sc detail s)
@[simp] theorem raise_slt (code : Nat) (sc : Scope) (detail : Nat) (s : State) : (s.raise code sc detail).slt = s.slt := congrArg Rest.slt (State.raise_rest code sc detail s)
@[simp] theorem raise_ch (code : Nat) (sc : Scope) (detail : Nat) (s : State) : (s.raise code sc detail).ch = s.ch := congrArg Rest.ch (State.raise_rest code sc detail s)
@[simp] theorem raise_vrtCfg (code : Nat) (sc : Scope) (detail : Nat) (s : State) : (s.raise code sc detail).vrtCfg = s.vrtCfg := congrArg Rest.vrtCfg (State.raise_rest code sc detail s)
@[simp] theorem raise_vrtCap (code : Nat) (sc : Scope) (detail : Nat) (s : State) : (s.raise code sc detail).vrtCap = s.vrtCap := congrArg Rest.vrtCap (State.raise_rest code sc detail s)
@[simp] theorem raise_nv (code : Nat) (sc : Scope) (detail : Nat) (s : State) : (s.raise code sc detail).nv = s.nv := congrArg Rest.nv (State.raise_rest code sc detail s)
@[simp] theorem raise_stamps (code : Nat) (sc : Scope) (detail : Nat) (s : State) : (s.raise code sc detail).stamps = s.stamps := congrArg Rest.stamps (State.raise_rest code sc detail s)
@[simp] theorem raise_probes (code : Nat) (sc : Scope) (detail : Nat) (s : State) : (s.raise code sc detail).probes = s.probes := congrArg Rest.probes (State.raise_rest code sc detail s)
@[simp] theorem raise_selft (code : Nat) (sc : Scope) (detail : Nat) (s : State) : (s.raise code sc detail).selft = s.selft := congrArg Rest.selft (State.raise_rest code sc detail s)
@[simp] theorem raise_march (code : Nat) (sc : Scope) (detail : Nat) (s : State) : (s.raise code sc detail).march = s.march := congrArg Rest.march (State.raise_rest code sc detail s)
@[simp] theorem raise_sec (code : Nat) (sc : Scope) (detail : Nat) (s : State) : (s.raise code sc detail).sec = s.sec := congrArg Rest.sec (State.raise_rest code sc detail s)
@[simp] theorem raise_latches (code : Nat) (sc : Scope) (detail : Nat) (s : State) : (s.raise code sc detail).latches = s.latches := congrArg Rest.latches (State.raise_rest code sc detail s)
@[simp] theorem raise_epochLo (code : Nat) (sc : Scope) (detail : Nat) (s : State) : (s.raise code sc detail).epochLo = s.epochLo := congrArg Rest.epochLo (State.raise_rest code sc detail s)
@[simp] theorem raise_board (code : Nat) (sc : Scope) (detail : Nat) (s : State) : (s.raise code sc detail).board = s.board := congrArg Rest.board (State.raise_rest code sc detail s)
@[simp] theorem raise_buses (code : Nat) (sc : Scope) (detail : Nat) (s : State) : (s.raise code sc detail).buses = s.buses := congrArg Rest.buses (State.raise_rest code sc detail s)
@[simp] theorem raise_legacy (code : Nat) (sc : Scope) (detail : Nat) (s : State) : (s.raise code sc detail).legacy = s.legacy := congrArg Rest.legacy (State.raise_rest code sc detail s)
@[simp] theorem raise_boot (code : Nat) (sc : Scope) (detail : Nat) (s : State) : (s.raise code sc detail).boot = s.boot := congrArg Rest.boot (State.raise_rest code sc detail s)
@[simp] theorem raise_vin (code : Nat) (sc : Scope) (detail : Nat) (s : State) : (s.raise code sc detail).vin = s.vin := congrArg Rest.vin (State.raise_rest code sc detail s)
@[simp] theorem raise_trip (code : Nat) (sc : Scope) (detail : Nat) (s : State) : (s.raise code sc detail).trip = s.trip := congrArg Rest.trip (State.raise_rest code sc detail s)
@[simp] theorem raise_tripClu (code : Nat) (sc : Scope) (detail : Nat) (s : State) : (s.raise code sc detail).tripClu = s.tripClu := congrArg Rest.tripClu (State.raise_rest code sc detail s)
@[simp] theorem raise_stalled (code : Nat) (sc : Scope) (detail : Nat) (s : State) : (s.raise code sc detail).stalled = s.stalled := congrArg Rest.stalled (State.raise_rest code sc detail s)
@[simp] theorem raise_sramCorr (code : Nat) (sc : Scope) (detail : Nat) (s : State) : (s.raise code sc detail).sramCorr = s.sramCorr := congrArg Rest.sramCorr (State.raise_rest code sc detail s)
@[simp] theorem raise_secCorr (code : Nat) (sc : Scope) (detail : Nat) (s : State) : (s.raise code sc detail).secCorr = s.secCorr := congrArg Rest.secCorr (State.raise_rest code sc detail s)
@[simp] theorem raise_retCorr (code : Nat) (sc : Scope) (detail : Nat) (s : State) : (s.raise code sc detail).retCorr = s.retCorr := congrArg Rest.retCorr (State.raise_rest code sc detail s)
@[simp] theorem raise_sheet (code : Nat) (sc : Scope) (detail : Nat) (s : State) : (s.raise code sc detail).sheet = s.sheet := by unfold State.sheet; rw [raise_csh]
@[simp] theorem raise_dm (code : Nat) (sc : Scope) (detail : Nat) (s : State) (e : Nat) : (s.raise code sc detail).dm e = s.dm e := by unfold State.dm; rw [raise_dom]
@[simp] theorem raise_chan (code : Nat) (sc : Scope) (detail : Nat) (s : State) (e : Nat) : (s.raise code sc detail).chan e = s.chan e := by unfold State.chan; rw [raise_ch]

/-! ## Single fields after wakeClu -/

@[simp] theorem wakeClu_pending (n : Nat) (s : State) : (s.wakeClu n).pending = s.pending := congrArg Rest.pending (State.wakeClu_rest n s)
@[simp] theorem wakeClu_oscPhase (n : Nat) (s : State) : (s.wakeClu n).oscPhase = s.oscPhase := congrArg Rest.oscPhase (State.wakeClu_rest n s)
@[simp] theorem wakeClu_vaon (n : Nat) (s : State) : (s.wakeClu n).vaon = s.vaon := congrArg Rest.vaon (State.wakeClu_rest n s)
@[simp] theorem wakeClu_supply (n : Nat) (s : State) : (s.wakeClu n).supply = s.supply := congrArg Rest.supply (State.wakeClu_rest n s)
@[simp] theorem wakeClu_epoch (n : Nat) (s : State) : (s.wakeClu n).epoch = s.epoch := congrArg Rest.epoch (State.wakeClu_rest n s)
@[simp] theorem wakeClu_sync (n : Nat) (s : State) : (s.wakeClu n).sync = s.sync := congrArg Rest.sync (State.wakeClu_rest n s)
@[simp] theorem wakeClu_edgeKey (n : Nat) (s : State) : (s.wakeClu n).edgeKey = s.edgeKey := congrArg Rest.edgeKey (State.wakeClu_rest n s)
@[simp] theorem wakeClu_dom (n : Nat) (s : State) : (s.wakeClu n).dom = s.dom := congrArg Rest.dom (State.wakeClu_rest n s)
@[simp] theorem wakeClu_csh (n : Nat) (s : State) : (s.wakeClu n).csh = s.csh := congrArg Rest.csh (State.wakeClu_rest n s)
@[simp] theorem wakeClu_cshNew (n : Nat) (s : State) : (s.wakeClu n).cshNew = s.cshNew := congrArg Rest.cshNew (State.wakeClu_rest n s)
@[simp] theorem wakeClu_assembled (n : Nat) (s : State) : (s.wakeClu n).assembled = s.assembled := congrArg Rest.assembled (State.wakeClu_rest n s)
@[simp] theorem wakeClu_cueQ (n : Nat) (s : State) : (s.wakeClu n).cueQ = s.cueQ := congrArg Rest.cueQ (State.wakeClu_rest n s)
@[simp] theorem wakeClu_cueDrop (n : Nat) (s : State) : (s.wakeClu n).cueDrop = s.cueDrop := congrArg Rest.cueDrop (State.wakeClu_rest n s)
@[simp] theorem wakeClu_cueSkip (n : Nat) (s : State) : (s.wakeClu n).cueSkip = s.cueSkip := congrArg Rest.cueSkip (State.wakeClu_rest n s)
@[simp] theorem wakeClu_up (n : Nat) (s : State) : (s.wakeClu n).up = s.up := congrArg Rest.up (State.wakeClu_rest n s)
@[simp] theorem wakeClu_msgs (n : Nat) (s : State) : (s.wakeClu n).msgs = s.msgs := congrArg Rest.msgs (State.wakeClu_rest n s)
@[simp] theorem wakeClu_reclaim (n : Nat) (s : State) : (s.wakeClu n).reclaim = s.reclaim := congrArg Rest.reclaim (State.wakeClu_rest n s)
@[simp] theorem wakeClu_ledgerErr (n : Nat) (s : State) : (s.wakeClu n).ledgerErr = s.ledgerErr := congrArg Rest.ledgerErr (State.wakeClu_rest n s)
@[simp] theorem wakeClu_bal (n : Nat) (s : State) : (s.wakeClu n).bal = s.bal := congrArg Rest.bal (State.wakeClu_rest n s)
@[simp] theorem wakeClu_busSeq (n : Nat) (s : State) : (s.wakeClu n).busSeq = s.busSeq := congrArg Rest.busSeq (State.wakeClu_rest n s)
@[simp] theorem wakeClu_busAt (n : Nat) (s : State) : (s.wakeClu n).busAt = s.busAt := congrArg Rest.busAt (State.wakeClu_rest n s)
@[simp] theorem wakeClu_busDue (n : Nat) (s : State) : (s.wakeClu n).busDue = s.busDue := congrArg Rest.busDue (State.wakeClu_rest n s)
@[simp] theorem wakeClu_trigs (n : Nat) (s : State) : (s.wakeClu n).trigs = s.trigs := congrArg Rest.trigs (State.wakeClu_rest n s)
@[simp] theorem wakeClu_slt (n : Nat) (s : State) : (s.wakeClu n).slt = s.slt := congrArg Rest.slt (State.wakeClu_rest n s)
@[simp] theorem wakeClu_ch (n : Nat) (s : State) : (s.wakeClu n).ch = s.ch := congrArg Rest.ch (State.wakeClu_rest n s)
@[simp] theorem wakeClu_vrtCfg (n : Nat) (s : State) : (s.wakeClu n).vrtCfg = s.vrtCfg := congrArg Rest.vrtCfg (State.wakeClu_rest n s)
@[simp] theorem wakeClu_vrtCap (n : Nat) (s : State) : (s.wakeClu n).vrtCap = s.vrtCap := congrArg Rest.vrtCap (State.wakeClu_rest n s)
@[simp] theorem wakeClu_nv (n : Nat) (s : State) : (s.wakeClu n).nv = s.nv := congrArg Rest.nv (State.wakeClu_rest n s)
@[simp] theorem wakeClu_stamps (n : Nat) (s : State) : (s.wakeClu n).stamps = s.stamps := congrArg Rest.stamps (State.wakeClu_rest n s)
@[simp] theorem wakeClu_probes (n : Nat) (s : State) : (s.wakeClu n).probes = s.probes := congrArg Rest.probes (State.wakeClu_rest n s)
@[simp] theorem wakeClu_selft (n : Nat) (s : State) : (s.wakeClu n).selft = s.selft := congrArg Rest.selft (State.wakeClu_rest n s)
@[simp] theorem wakeClu_march (n : Nat) (s : State) : (s.wakeClu n).march = s.march := congrArg Rest.march (State.wakeClu_rest n s)
@[simp] theorem wakeClu_sec (n : Nat) (s : State) : (s.wakeClu n).sec = s.sec := congrArg Rest.sec (State.wakeClu_rest n s)
@[simp] theorem wakeClu_latches (n : Nat) (s : State) : (s.wakeClu n).latches = s.latches := congrArg Rest.latches (State.wakeClu_rest n s)
@[simp] theorem wakeClu_epochLo (n : Nat) (s : State) : (s.wakeClu n).epochLo = s.epochLo := congrArg Rest.epochLo (State.wakeClu_rest n s)
@[simp] theorem wakeClu_board (n : Nat) (s : State) : (s.wakeClu n).board = s.board := congrArg Rest.board (State.wakeClu_rest n s)
@[simp] theorem wakeClu_buses (n : Nat) (s : State) : (s.wakeClu n).buses = s.buses := congrArg Rest.buses (State.wakeClu_rest n s)
@[simp] theorem wakeClu_legacy (n : Nat) (s : State) : (s.wakeClu n).legacy = s.legacy := congrArg Rest.legacy (State.wakeClu_rest n s)
@[simp] theorem wakeClu_boot (n : Nat) (s : State) : (s.wakeClu n).boot = s.boot := congrArg Rest.boot (State.wakeClu_rest n s)
@[simp] theorem wakeClu_vin (n : Nat) (s : State) : (s.wakeClu n).vin = s.vin := congrArg Rest.vin (State.wakeClu_rest n s)
@[simp] theorem wakeClu_trip (n : Nat) (s : State) : (s.wakeClu n).trip = s.trip := congrArg Rest.trip (State.wakeClu_rest n s)
@[simp] theorem wakeClu_tripClu (n : Nat) (s : State) : (s.wakeClu n).tripClu = s.tripClu := congrArg Rest.tripClu (State.wakeClu_rest n s)
@[simp] theorem wakeClu_stalled (n : Nat) (s : State) : (s.wakeClu n).stalled = s.stalled := congrArg Rest.stalled (State.wakeClu_rest n s)
@[simp] theorem wakeClu_sramCorr (n : Nat) (s : State) : (s.wakeClu n).sramCorr = s.sramCorr := congrArg Rest.sramCorr (State.wakeClu_rest n s)
@[simp] theorem wakeClu_secCorr (n : Nat) (s : State) : (s.wakeClu n).secCorr = s.secCorr := congrArg Rest.secCorr (State.wakeClu_rest n s)
@[simp] theorem wakeClu_retCorr (n : Nat) (s : State) : (s.wakeClu n).retCorr = s.retCorr := congrArg Rest.retCorr (State.wakeClu_rest n s)
@[simp] theorem wakeClu_sheet (n : Nat) (s : State) : (s.wakeClu n).sheet = s.sheet := by unfold State.sheet; rw [wakeClu_csh]
@[simp] theorem wakeClu_dm (n : Nat) (s : State) (e : Nat) : (s.wakeClu n).dm e = s.dm e := by unfold State.dm; rw [wakeClu_dom]
@[simp] theorem wakeClu_chan (n : Nat) (s : State) (e : Nat) : (s.wakeClu n).chan e = s.chan e := by unfold State.chan; rw [wakeClu_ch]

/-! ## Single fields after complete -/

@[simp] theorem complete_pending (i : Nat) (st : Status) (res : Nat) (s : State) : (s.complete i st res).pending = s.pending := congrArg Rest.pending (State.complete_rest i st res s)
@[simp] theorem complete_oscPhase (i : Nat) (st : Status) (res : Nat) (s : State) : (s.complete i st res).oscPhase = s.oscPhase := congrArg Rest.oscPhase (State.complete_rest i st res s)
@[simp] theorem complete_vaon (i : Nat) (st : Status) (res : Nat) (s : State) : (s.complete i st res).vaon = s.vaon := congrArg Rest.vaon (State.complete_rest i st res s)
@[simp] theorem complete_supply (i : Nat) (st : Status) (res : Nat) (s : State) : (s.complete i st res).supply = s.supply := congrArg Rest.supply (State.complete_rest i st res s)
@[simp] theorem complete_epoch (i : Nat) (st : Status) (res : Nat) (s : State) : (s.complete i st res).epoch = s.epoch := congrArg Rest.epoch (State.complete_rest i st res s)
@[simp] theorem complete_sync (i : Nat) (st : Status) (res : Nat) (s : State) : (s.complete i st res).sync = s.sync := congrArg Rest.sync (State.complete_rest i st res s)
@[simp] theorem complete_edgeKey (i : Nat) (st : Status) (res : Nat) (s : State) : (s.complete i st res).edgeKey = s.edgeKey := congrArg Rest.edgeKey (State.complete_rest i st res s)
@[simp] theorem complete_dom (i : Nat) (st : Status) (res : Nat) (s : State) : (s.complete i st res).dom = s.dom := congrArg Rest.dom (State.complete_rest i st res s)
@[simp] theorem complete_csh (i : Nat) (st : Status) (res : Nat) (s : State) : (s.complete i st res).csh = s.csh := congrArg Rest.csh (State.complete_rest i st res s)
@[simp] theorem complete_cshNew (i : Nat) (st : Status) (res : Nat) (s : State) : (s.complete i st res).cshNew = s.cshNew := congrArg Rest.cshNew (State.complete_rest i st res s)
@[simp] theorem complete_assembled (i : Nat) (st : Status) (res : Nat) (s : State) : (s.complete i st res).assembled = s.assembled := congrArg Rest.assembled (State.complete_rest i st res s)
@[simp] theorem complete_cueQ (i : Nat) (st : Status) (res : Nat) (s : State) : (s.complete i st res).cueQ = s.cueQ := congrArg Rest.cueQ (State.complete_rest i st res s)
@[simp] theorem complete_cueDrop (i : Nat) (st : Status) (res : Nat) (s : State) : (s.complete i st res).cueDrop = s.cueDrop := congrArg Rest.cueDrop (State.complete_rest i st res s)
@[simp] theorem complete_cueSkip (i : Nat) (st : Status) (res : Nat) (s : State) : (s.complete i st res).cueSkip = s.cueSkip := congrArg Rest.cueSkip (State.complete_rest i st res s)
@[simp] theorem complete_up (i : Nat) (st : Status) (res : Nat) (s : State) : (s.complete i st res).up = s.up := congrArg Rest.up (State.complete_rest i st res s)
@[simp] theorem complete_msgs (i : Nat) (st : Status) (res : Nat) (s : State) : (s.complete i st res).msgs = s.msgs := congrArg Rest.msgs (State.complete_rest i st res s)
@[simp] theorem complete_reclaim (i : Nat) (st : Status) (res : Nat) (s : State) : (s.complete i st res).reclaim = s.reclaim := congrArg Rest.reclaim (State.complete_rest i st res s)
@[simp] theorem complete_ledgerErr (i : Nat) (st : Status) (res : Nat) (s : State) : (s.complete i st res).ledgerErr = s.ledgerErr := congrArg Rest.ledgerErr (State.complete_rest i st res s)
@[simp] theorem complete_bal (i : Nat) (st : Status) (res : Nat) (s : State) : (s.complete i st res).bal = s.bal := congrArg Rest.bal (State.complete_rest i st res s)
@[simp] theorem complete_busSeq (i : Nat) (st : Status) (res : Nat) (s : State) : (s.complete i st res).busSeq = s.busSeq := congrArg Rest.busSeq (State.complete_rest i st res s)
@[simp] theorem complete_busAt (i : Nat) (st : Status) (res : Nat) (s : State) : (s.complete i st res).busAt = s.busAt := congrArg Rest.busAt (State.complete_rest i st res s)
@[simp] theorem complete_busDue (i : Nat) (st : Status) (res : Nat) (s : State) : (s.complete i st res).busDue = s.busDue := congrArg Rest.busDue (State.complete_rest i st res s)
@[simp] theorem complete_trigs (i : Nat) (st : Status) (res : Nat) (s : State) : (s.complete i st res).trigs = s.trigs := congrArg Rest.trigs (State.complete_rest i st res s)
@[simp] theorem complete_slt (i : Nat) (st : Status) (res : Nat) (s : State) : (s.complete i st res).slt = s.slt := congrArg Rest.slt (State.complete_rest i st res s)
@[simp] theorem complete_ch (i : Nat) (st : Status) (res : Nat) (s : State) : (s.complete i st res).ch = s.ch := congrArg Rest.ch (State.complete_rest i st res s)
@[simp] theorem complete_vrtCfg (i : Nat) (st : Status) (res : Nat) (s : State) : (s.complete i st res).vrtCfg = s.vrtCfg := congrArg Rest.vrtCfg (State.complete_rest i st res s)
@[simp] theorem complete_vrtCap (i : Nat) (st : Status) (res : Nat) (s : State) : (s.complete i st res).vrtCap = s.vrtCap := congrArg Rest.vrtCap (State.complete_rest i st res s)
@[simp] theorem complete_nv (i : Nat) (st : Status) (res : Nat) (s : State) : (s.complete i st res).nv = s.nv := congrArg Rest.nv (State.complete_rest i st res s)
@[simp] theorem complete_stamps (i : Nat) (st : Status) (res : Nat) (s : State) : (s.complete i st res).stamps = s.stamps := congrArg Rest.stamps (State.complete_rest i st res s)
@[simp] theorem complete_probes (i : Nat) (st : Status) (res : Nat) (s : State) : (s.complete i st res).probes = s.probes := congrArg Rest.probes (State.complete_rest i st res s)
@[simp] theorem complete_selft (i : Nat) (st : Status) (res : Nat) (s : State) : (s.complete i st res).selft = s.selft := congrArg Rest.selft (State.complete_rest i st res s)
@[simp] theorem complete_march (i : Nat) (st : Status) (res : Nat) (s : State) : (s.complete i st res).march = s.march := congrArg Rest.march (State.complete_rest i st res s)
@[simp] theorem complete_sec (i : Nat) (st : Status) (res : Nat) (s : State) : (s.complete i st res).sec = s.sec := congrArg Rest.sec (State.complete_rest i st res s)
@[simp] theorem complete_latches (i : Nat) (st : Status) (res : Nat) (s : State) : (s.complete i st res).latches = s.latches := congrArg Rest.latches (State.complete_rest i st res s)
@[simp] theorem complete_epochLo (i : Nat) (st : Status) (res : Nat) (s : State) : (s.complete i st res).epochLo = s.epochLo := congrArg Rest.epochLo (State.complete_rest i st res s)
@[simp] theorem complete_board (i : Nat) (st : Status) (res : Nat) (s : State) : (s.complete i st res).board = s.board := congrArg Rest.board (State.complete_rest i st res s)
@[simp] theorem complete_buses (i : Nat) (st : Status) (res : Nat) (s : State) : (s.complete i st res).buses = s.buses := congrArg Rest.buses (State.complete_rest i st res s)
@[simp] theorem complete_legacy (i : Nat) (st : Status) (res : Nat) (s : State) : (s.complete i st res).legacy = s.legacy := congrArg Rest.legacy (State.complete_rest i st res s)
@[simp] theorem complete_boot (i : Nat) (st : Status) (res : Nat) (s : State) : (s.complete i st res).boot = s.boot := congrArg Rest.boot (State.complete_rest i st res s)
@[simp] theorem complete_vin (i : Nat) (st : Status) (res : Nat) (s : State) : (s.complete i st res).vin = s.vin := congrArg Rest.vin (State.complete_rest i st res s)
@[simp] theorem complete_trip (i : Nat) (st : Status) (res : Nat) (s : State) : (s.complete i st res).trip = s.trip := congrArg Rest.trip (State.complete_rest i st res s)
@[simp] theorem complete_tripClu (i : Nat) (st : Status) (res : Nat) (s : State) : (s.complete i st res).tripClu = s.tripClu := congrArg Rest.tripClu (State.complete_rest i st res s)
@[simp] theorem complete_stalled (i : Nat) (st : Status) (res : Nat) (s : State) : (s.complete i st res).stalled = s.stalled := congrArg Rest.stalled (State.complete_rest i st res s)
@[simp] theorem complete_sramCorr (i : Nat) (st : Status) (res : Nat) (s : State) : (s.complete i st res).sramCorr = s.sramCorr := congrArg Rest.sramCorr (State.complete_rest i st res s)
@[simp] theorem complete_secCorr (i : Nat) (st : Status) (res : Nat) (s : State) : (s.complete i st res).secCorr = s.secCorr := congrArg Rest.secCorr (State.complete_rest i st res s)
@[simp] theorem complete_retCorr (i : Nat) (st : Status) (res : Nat) (s : State) : (s.complete i st res).retCorr = s.retCorr := congrArg Rest.retCorr (State.complete_rest i st res s)
@[simp] theorem complete_sheet (i : Nat) (st : Status) (res : Nat) (s : State) : (s.complete i st res).sheet = s.sheet := by unfold State.sheet; rw [complete_csh]
@[simp] theorem complete_dm (i : Nat) (st : Status) (res : Nat) (s : State) (e : Nat) : (s.complete i st res).dm e = s.dm e := by unfold State.dm; rw [complete_dom]
@[simp] theorem complete_chan (i : Nat) (st : Status) (res : Nat) (s : State) (e : Nat) : (s.complete i st res).chan e = s.chan e := by unfold State.chan; rw [complete_ch]

/-! ## Single fields after startWrite -/

@[simp] theorem startWrite_pending (a : Nat) (w : List Word64) (u : WrUse) (s : State) : (s.startWrite a w u).pending = s.pending := congrArg Rest.pending (State.startWrite_rest a w u s)
@[simp] theorem startWrite_oscPhase (a : Nat) (w : List Word64) (u : WrUse) (s : State) : (s.startWrite a w u).oscPhase = s.oscPhase := congrArg Rest.oscPhase (State.startWrite_rest a w u s)
@[simp] theorem startWrite_vaon (a : Nat) (w : List Word64) (u : WrUse) (s : State) : (s.startWrite a w u).vaon = s.vaon := congrArg Rest.vaon (State.startWrite_rest a w u s)
@[simp] theorem startWrite_supply (a : Nat) (w : List Word64) (u : WrUse) (s : State) : (s.startWrite a w u).supply = s.supply := congrArg Rest.supply (State.startWrite_rest a w u s)
@[simp] theorem startWrite_epoch (a : Nat) (w : List Word64) (u : WrUse) (s : State) : (s.startWrite a w u).epoch = s.epoch := congrArg Rest.epoch (State.startWrite_rest a w u s)
@[simp] theorem startWrite_sync (a : Nat) (w : List Word64) (u : WrUse) (s : State) : (s.startWrite a w u).sync = s.sync := congrArg Rest.sync (State.startWrite_rest a w u s)
@[simp] theorem startWrite_edgeKey (a : Nat) (w : List Word64) (u : WrUse) (s : State) : (s.startWrite a w u).edgeKey = s.edgeKey := congrArg Rest.edgeKey (State.startWrite_rest a w u s)
@[simp] theorem startWrite_dom (a : Nat) (w : List Word64) (u : WrUse) (s : State) : (s.startWrite a w u).dom = s.dom := congrArg Rest.dom (State.startWrite_rest a w u s)
@[simp] theorem startWrite_csh (a : Nat) (w : List Word64) (u : WrUse) (s : State) : (s.startWrite a w u).csh = s.csh := congrArg Rest.csh (State.startWrite_rest a w u s)
@[simp] theorem startWrite_cshNew (a : Nat) (w : List Word64) (u : WrUse) (s : State) : (s.startWrite a w u).cshNew = s.cshNew := congrArg Rest.cshNew (State.startWrite_rest a w u s)
@[simp] theorem startWrite_assembled (a : Nat) (w : List Word64) (u : WrUse) (s : State) : (s.startWrite a w u).assembled = s.assembled := congrArg Rest.assembled (State.startWrite_rest a w u s)
@[simp] theorem startWrite_cueQ (a : Nat) (w : List Word64) (u : WrUse) (s : State) : (s.startWrite a w u).cueQ = s.cueQ := congrArg Rest.cueQ (State.startWrite_rest a w u s)
@[simp] theorem startWrite_cueDrop (a : Nat) (w : List Word64) (u : WrUse) (s : State) : (s.startWrite a w u).cueDrop = s.cueDrop := congrArg Rest.cueDrop (State.startWrite_rest a w u s)
@[simp] theorem startWrite_cueSkip (a : Nat) (w : List Word64) (u : WrUse) (s : State) : (s.startWrite a w u).cueSkip = s.cueSkip := congrArg Rest.cueSkip (State.startWrite_rest a w u s)
@[simp] theorem startWrite_up (a : Nat) (w : List Word64) (u : WrUse) (s : State) : (s.startWrite a w u).up = s.up := congrArg Rest.up (State.startWrite_rest a w u s)
@[simp] theorem startWrite_msgs (a : Nat) (w : List Word64) (u : WrUse) (s : State) : (s.startWrite a w u).msgs = s.msgs := congrArg Rest.msgs (State.startWrite_rest a w u s)
@[simp] theorem startWrite_reclaim (a : Nat) (w : List Word64) (u : WrUse) (s : State) : (s.startWrite a w u).reclaim = s.reclaim := congrArg Rest.reclaim (State.startWrite_rest a w u s)
@[simp] theorem startWrite_ledgerErr (a : Nat) (w : List Word64) (u : WrUse) (s : State) : (s.startWrite a w u).ledgerErr = s.ledgerErr := congrArg Rest.ledgerErr (State.startWrite_rest a w u s)
@[simp] theorem startWrite_bal (a : Nat) (w : List Word64) (u : WrUse) (s : State) : (s.startWrite a w u).bal = s.bal := congrArg Rest.bal (State.startWrite_rest a w u s)
@[simp] theorem startWrite_busSeq (a : Nat) (w : List Word64) (u : WrUse) (s : State) : (s.startWrite a w u).busSeq = s.busSeq := congrArg Rest.busSeq (State.startWrite_rest a w u s)
@[simp] theorem startWrite_busAt (a : Nat) (w : List Word64) (u : WrUse) (s : State) : (s.startWrite a w u).busAt = s.busAt := congrArg Rest.busAt (State.startWrite_rest a w u s)
@[simp] theorem startWrite_busDue (a : Nat) (w : List Word64) (u : WrUse) (s : State) : (s.startWrite a w u).busDue = s.busDue := congrArg Rest.busDue (State.startWrite_rest a w u s)
@[simp] theorem startWrite_trigs (a : Nat) (w : List Word64) (u : WrUse) (s : State) : (s.startWrite a w u).trigs = s.trigs := congrArg Rest.trigs (State.startWrite_rest a w u s)
@[simp] theorem startWrite_slt (a : Nat) (w : List Word64) (u : WrUse) (s : State) : (s.startWrite a w u).slt = s.slt := congrArg Rest.slt (State.startWrite_rest a w u s)
@[simp] theorem startWrite_ch (a : Nat) (w : List Word64) (u : WrUse) (s : State) : (s.startWrite a w u).ch = s.ch := congrArg Rest.ch (State.startWrite_rest a w u s)
@[simp] theorem startWrite_vrtCfg (a : Nat) (w : List Word64) (u : WrUse) (s : State) : (s.startWrite a w u).vrtCfg = s.vrtCfg := congrArg Rest.vrtCfg (State.startWrite_rest a w u s)
@[simp] theorem startWrite_vrtCap (a : Nat) (w : List Word64) (u : WrUse) (s : State) : (s.startWrite a w u).vrtCap = s.vrtCap := congrArg Rest.vrtCap (State.startWrite_rest a w u s)
@[simp] theorem startWrite_nv (a : Nat) (w : List Word64) (u : WrUse) (s : State) : (s.startWrite a w u).nv = s.nv := congrArg Rest.nv (State.startWrite_rest a w u s)
@[simp] theorem startWrite_stamps (a : Nat) (w : List Word64) (u : WrUse) (s : State) : (s.startWrite a w u).stamps = s.stamps := congrArg Rest.stamps (State.startWrite_rest a w u s)
@[simp] theorem startWrite_probes (a : Nat) (w : List Word64) (u : WrUse) (s : State) : (s.startWrite a w u).probes = s.probes := congrArg Rest.probes (State.startWrite_rest a w u s)
@[simp] theorem startWrite_selft (a : Nat) (w : List Word64) (u : WrUse) (s : State) : (s.startWrite a w u).selft = s.selft := congrArg Rest.selft (State.startWrite_rest a w u s)
@[simp] theorem startWrite_march (a : Nat) (w : List Word64) (u : WrUse) (s : State) : (s.startWrite a w u).march = s.march := congrArg Rest.march (State.startWrite_rest a w u s)
@[simp] theorem startWrite_sec (a : Nat) (w : List Word64) (u : WrUse) (s : State) : (s.startWrite a w u).sec = s.sec := congrArg Rest.sec (State.startWrite_rest a w u s)
@[simp] theorem startWrite_latches (a : Nat) (w : List Word64) (u : WrUse) (s : State) : (s.startWrite a w u).latches = s.latches := congrArg Rest.latches (State.startWrite_rest a w u s)
@[simp] theorem startWrite_epochLo (a : Nat) (w : List Word64) (u : WrUse) (s : State) : (s.startWrite a w u).epochLo = s.epochLo := congrArg Rest.epochLo (State.startWrite_rest a w u s)
@[simp] theorem startWrite_board (a : Nat) (w : List Word64) (u : WrUse) (s : State) : (s.startWrite a w u).board = s.board := congrArg Rest.board (State.startWrite_rest a w u s)
@[simp] theorem startWrite_buses (a : Nat) (w : List Word64) (u : WrUse) (s : State) : (s.startWrite a w u).buses = s.buses := congrArg Rest.buses (State.startWrite_rest a w u s)
@[simp] theorem startWrite_legacy (a : Nat) (w : List Word64) (u : WrUse) (s : State) : (s.startWrite a w u).legacy = s.legacy := congrArg Rest.legacy (State.startWrite_rest a w u s)
@[simp] theorem startWrite_boot (a : Nat) (w : List Word64) (u : WrUse) (s : State) : (s.startWrite a w u).boot = s.boot := congrArg Rest.boot (State.startWrite_rest a w u s)
@[simp] theorem startWrite_vin (a : Nat) (w : List Word64) (u : WrUse) (s : State) : (s.startWrite a w u).vin = s.vin := congrArg Rest.vin (State.startWrite_rest a w u s)
@[simp] theorem startWrite_trip (a : Nat) (w : List Word64) (u : WrUse) (s : State) : (s.startWrite a w u).trip = s.trip := congrArg Rest.trip (State.startWrite_rest a w u s)
@[simp] theorem startWrite_tripClu (a : Nat) (w : List Word64) (u : WrUse) (s : State) : (s.startWrite a w u).tripClu = s.tripClu := congrArg Rest.tripClu (State.startWrite_rest a w u s)
@[simp] theorem startWrite_stalled (a : Nat) (w : List Word64) (u : WrUse) (s : State) : (s.startWrite a w u).stalled = s.stalled := congrArg Rest.stalled (State.startWrite_rest a w u s)
@[simp] theorem startWrite_sramCorr (a : Nat) (w : List Word64) (u : WrUse) (s : State) : (s.startWrite a w u).sramCorr = s.sramCorr := congrArg Rest.sramCorr (State.startWrite_rest a w u s)
@[simp] theorem startWrite_secCorr (a : Nat) (w : List Word64) (u : WrUse) (s : State) : (s.startWrite a w u).secCorr = s.secCorr := congrArg Rest.secCorr (State.startWrite_rest a w u s)
@[simp] theorem startWrite_retCorr (a : Nat) (w : List Word64) (u : WrUse) (s : State) : (s.startWrite a w u).retCorr = s.retCorr := congrArg Rest.retCorr (State.startWrite_rest a w u s)
@[simp] theorem startWrite_sheet (a : Nat) (w : List Word64) (u : WrUse) (s : State) : (s.startWrite a w u).sheet = s.sheet := by unfold State.sheet; rw [startWrite_csh]
@[simp] theorem startWrite_dm (a : Nat) (w : List Word64) (u : WrUse) (s : State) (e : Nat) : (s.startWrite a w u).dm e = s.dm e := by unfold State.dm; rw [startWrite_dom]
@[simp] theorem startWrite_chan (a : Nat) (w : List Word64) (u : WrUse) (s : State) (e : Nat) : (s.startWrite a w u).chan e = s.chan e := by unfold State.chan; rw [startWrite_ch]

/-! ## Single fields after startRead -/

@[simp] theorem startRead_pending (a b : Nat) (u : RdUse) (src : Nat) (s : State) : (s.startRead a b u src).pending = s.pending := congrArg Rest.pending (State.startRead_rest a b u src s)
@[simp] theorem startRead_oscPhase (a b : Nat) (u : RdUse) (src : Nat) (s : State) : (s.startRead a b u src).oscPhase = s.oscPhase := congrArg Rest.oscPhase (State.startRead_rest a b u src s)
@[simp] theorem startRead_vaon (a b : Nat) (u : RdUse) (src : Nat) (s : State) : (s.startRead a b u src).vaon = s.vaon := congrArg Rest.vaon (State.startRead_rest a b u src s)
@[simp] theorem startRead_supply (a b : Nat) (u : RdUse) (src : Nat) (s : State) : (s.startRead a b u src).supply = s.supply := congrArg Rest.supply (State.startRead_rest a b u src s)
@[simp] theorem startRead_epoch (a b : Nat) (u : RdUse) (src : Nat) (s : State) : (s.startRead a b u src).epoch = s.epoch := congrArg Rest.epoch (State.startRead_rest a b u src s)
@[simp] theorem startRead_sync (a b : Nat) (u : RdUse) (src : Nat) (s : State) : (s.startRead a b u src).sync = s.sync := congrArg Rest.sync (State.startRead_rest a b u src s)
@[simp] theorem startRead_edgeKey (a b : Nat) (u : RdUse) (src : Nat) (s : State) : (s.startRead a b u src).edgeKey = s.edgeKey := congrArg Rest.edgeKey (State.startRead_rest a b u src s)
@[simp] theorem startRead_dom (a b : Nat) (u : RdUse) (src : Nat) (s : State) : (s.startRead a b u src).dom = s.dom := congrArg Rest.dom (State.startRead_rest a b u src s)
@[simp] theorem startRead_csh (a b : Nat) (u : RdUse) (src : Nat) (s : State) : (s.startRead a b u src).csh = s.csh := congrArg Rest.csh (State.startRead_rest a b u src s)
@[simp] theorem startRead_cshNew (a b : Nat) (u : RdUse) (src : Nat) (s : State) : (s.startRead a b u src).cshNew = s.cshNew := congrArg Rest.cshNew (State.startRead_rest a b u src s)
@[simp] theorem startRead_assembled (a b : Nat) (u : RdUse) (src : Nat) (s : State) : (s.startRead a b u src).assembled = s.assembled := congrArg Rest.assembled (State.startRead_rest a b u src s)
@[simp] theorem startRead_cueQ (a b : Nat) (u : RdUse) (src : Nat) (s : State) : (s.startRead a b u src).cueQ = s.cueQ := congrArg Rest.cueQ (State.startRead_rest a b u src s)
@[simp] theorem startRead_cueDrop (a b : Nat) (u : RdUse) (src : Nat) (s : State) : (s.startRead a b u src).cueDrop = s.cueDrop := congrArg Rest.cueDrop (State.startRead_rest a b u src s)
@[simp] theorem startRead_cueSkip (a b : Nat) (u : RdUse) (src : Nat) (s : State) : (s.startRead a b u src).cueSkip = s.cueSkip := congrArg Rest.cueSkip (State.startRead_rest a b u src s)
@[simp] theorem startRead_up (a b : Nat) (u : RdUse) (src : Nat) (s : State) : (s.startRead a b u src).up = s.up := congrArg Rest.up (State.startRead_rest a b u src s)
@[simp] theorem startRead_msgs (a b : Nat) (u : RdUse) (src : Nat) (s : State) : (s.startRead a b u src).msgs = s.msgs := congrArg Rest.msgs (State.startRead_rest a b u src s)
@[simp] theorem startRead_reclaim (a b : Nat) (u : RdUse) (src : Nat) (s : State) : (s.startRead a b u src).reclaim = s.reclaim := congrArg Rest.reclaim (State.startRead_rest a b u src s)
@[simp] theorem startRead_ledgerErr (a b : Nat) (u : RdUse) (src : Nat) (s : State) : (s.startRead a b u src).ledgerErr = s.ledgerErr := congrArg Rest.ledgerErr (State.startRead_rest a b u src s)
@[simp] theorem startRead_bal (a b : Nat) (u : RdUse) (src : Nat) (s : State) : (s.startRead a b u src).bal = s.bal := congrArg Rest.bal (State.startRead_rest a b u src s)
@[simp] theorem startRead_busSeq (a b : Nat) (u : RdUse) (src : Nat) (s : State) : (s.startRead a b u src).busSeq = s.busSeq := congrArg Rest.busSeq (State.startRead_rest a b u src s)
@[simp] theorem startRead_busAt (a b : Nat) (u : RdUse) (src : Nat) (s : State) : (s.startRead a b u src).busAt = s.busAt := congrArg Rest.busAt (State.startRead_rest a b u src s)
@[simp] theorem startRead_busDue (a b : Nat) (u : RdUse) (src : Nat) (s : State) : (s.startRead a b u src).busDue = s.busDue := congrArg Rest.busDue (State.startRead_rest a b u src s)
@[simp] theorem startRead_trigs (a b : Nat) (u : RdUse) (src : Nat) (s : State) : (s.startRead a b u src).trigs = s.trigs := congrArg Rest.trigs (State.startRead_rest a b u src s)
@[simp] theorem startRead_slt (a b : Nat) (u : RdUse) (src : Nat) (s : State) : (s.startRead a b u src).slt = s.slt := congrArg Rest.slt (State.startRead_rest a b u src s)
@[simp] theorem startRead_ch (a b : Nat) (u : RdUse) (src : Nat) (s : State) : (s.startRead a b u src).ch = s.ch := congrArg Rest.ch (State.startRead_rest a b u src s)
@[simp] theorem startRead_vrtCfg (a b : Nat) (u : RdUse) (src : Nat) (s : State) : (s.startRead a b u src).vrtCfg = s.vrtCfg := congrArg Rest.vrtCfg (State.startRead_rest a b u src s)
@[simp] theorem startRead_vrtCap (a b : Nat) (u : RdUse) (src : Nat) (s : State) : (s.startRead a b u src).vrtCap = s.vrtCap := congrArg Rest.vrtCap (State.startRead_rest a b u src s)
@[simp] theorem startRead_nv (a b : Nat) (u : RdUse) (src : Nat) (s : State) : (s.startRead a b u src).nv = s.nv := congrArg Rest.nv (State.startRead_rest a b u src s)
@[simp] theorem startRead_stamps (a b : Nat) (u : RdUse) (src : Nat) (s : State) : (s.startRead a b u src).stamps = s.stamps := congrArg Rest.stamps (State.startRead_rest a b u src s)
@[simp] theorem startRead_probes (a b : Nat) (u : RdUse) (src : Nat) (s : State) : (s.startRead a b u src).probes = s.probes := congrArg Rest.probes (State.startRead_rest a b u src s)
@[simp] theorem startRead_selft (a b : Nat) (u : RdUse) (src : Nat) (s : State) : (s.startRead a b u src).selft = s.selft := congrArg Rest.selft (State.startRead_rest a b u src s)
@[simp] theorem startRead_march (a b : Nat) (u : RdUse) (src : Nat) (s : State) : (s.startRead a b u src).march = s.march := congrArg Rest.march (State.startRead_rest a b u src s)
@[simp] theorem startRead_sec (a b : Nat) (u : RdUse) (src : Nat) (s : State) : (s.startRead a b u src).sec = s.sec := congrArg Rest.sec (State.startRead_rest a b u src s)
@[simp] theorem startRead_latches (a b : Nat) (u : RdUse) (src : Nat) (s : State) : (s.startRead a b u src).latches = s.latches := congrArg Rest.latches (State.startRead_rest a b u src s)
@[simp] theorem startRead_epochLo (a b : Nat) (u : RdUse) (src : Nat) (s : State) : (s.startRead a b u src).epochLo = s.epochLo := congrArg Rest.epochLo (State.startRead_rest a b u src s)
@[simp] theorem startRead_board (a b : Nat) (u : RdUse) (src : Nat) (s : State) : (s.startRead a b u src).board = s.board := congrArg Rest.board (State.startRead_rest a b u src s)
@[simp] theorem startRead_buses (a b : Nat) (u : RdUse) (src : Nat) (s : State) : (s.startRead a b u src).buses = s.buses := congrArg Rest.buses (State.startRead_rest a b u src s)
@[simp] theorem startRead_legacy (a b : Nat) (u : RdUse) (src : Nat) (s : State) : (s.startRead a b u src).legacy = s.legacy := congrArg Rest.legacy (State.startRead_rest a b u src s)
@[simp] theorem startRead_boot (a b : Nat) (u : RdUse) (src : Nat) (s : State) : (s.startRead a b u src).boot = s.boot := congrArg Rest.boot (State.startRead_rest a b u src s)
@[simp] theorem startRead_vin (a b : Nat) (u : RdUse) (src : Nat) (s : State) : (s.startRead a b u src).vin = s.vin := congrArg Rest.vin (State.startRead_rest a b u src s)
@[simp] theorem startRead_trip (a b : Nat) (u : RdUse) (src : Nat) (s : State) : (s.startRead a b u src).trip = s.trip := congrArg Rest.trip (State.startRead_rest a b u src s)
@[simp] theorem startRead_tripClu (a b : Nat) (u : RdUse) (src : Nat) (s : State) : (s.startRead a b u src).tripClu = s.tripClu := congrArg Rest.tripClu (State.startRead_rest a b u src s)
@[simp] theorem startRead_stalled (a b : Nat) (u : RdUse) (src : Nat) (s : State) : (s.startRead a b u src).stalled = s.stalled := congrArg Rest.stalled (State.startRead_rest a b u src s)
@[simp] theorem startRead_sramCorr (a b : Nat) (u : RdUse) (src : Nat) (s : State) : (s.startRead a b u src).sramCorr = s.sramCorr := congrArg Rest.sramCorr (State.startRead_rest a b u src s)
@[simp] theorem startRead_secCorr (a b : Nat) (u : RdUse) (src : Nat) (s : State) : (s.startRead a b u src).secCorr = s.secCorr := congrArg Rest.secCorr (State.startRead_rest a b u src s)
@[simp] theorem startRead_retCorr (a b : Nat) (u : RdUse) (src : Nat) (s : State) : (s.startRead a b u src).retCorr = s.retCorr := congrArg Rest.retCorr (State.startRead_rest a b u src s)
@[simp] theorem startRead_sheet (a b : Nat) (u : RdUse) (src : Nat) (s : State) : (s.startRead a b u src).sheet = s.sheet := by unfold State.sheet; rw [startRead_csh]
@[simp] theorem startRead_dm (a b : Nat) (u : RdUse) (src : Nat) (s : State) (e : Nat) : (s.startRead a b u src).dm e = s.dm e := by unfold State.dm; rw [startRead_dom]
@[simp] theorem startRead_chan (a b : Nat) (u : RdUse) (src : Nat) (s : State) (e : Nat) : (s.startRead a b u src).chan e = s.chan e := by unfold State.chan; rw [startRead_ch]

end Sys2Proof.Machine
end

