-- ==== Sys2Proof/WellFormed.lean ====
section
/-! DEFINITION. Well-formed commands: lists of measurements have the length their converters deliver, a read returns 1
to 16 beats (13 R395), and codes lie in their tables. -/

namespace Sys2Proof

/-- A frame's results: 32 channels, 4 urgent holds (09 R279, R292). -/
def FrameMeas.wf (m : FrameMeas) : Bool := m.a.length == 32 && m.urg.length == 4

/-- A transfer: lanes 0 to 79, clock bonds 0 to 7 (12 Table 12-2). -/
def LineMeas.wf (m : LineMeas) : Bool := m.corr.all (fun l => decide (l < 80)) && m.ck.all (fun b => decide (b < 8))

/-- A lane's eye lies within its delay line of 64 steps (12 R381). -/
def LaneEye.wf (e : LaneEye) : Bool := decide (e.lo + e.width ≤ 64)

/-- A cluster's wake report: 33 inputs at two phase ends (09 R295), eight temperatures, a memory code in its table (15 Table 15-1). -/
def WakeMeas.wf (m : WakeMeas) : Bool :=
  m.phase1.length == 33 && m.phase2.length == 33 && m.temps.length == 8 && (match m.marchFail with
    | some c => decide (c.1 < 4) && decide (1 ≤ c.2)
    | none => true)

/-- The secure page's entries: at most one per cluster, 16 cells' trims (15 Table 15-4). -/
def SecStore.wf (m : SecStore) : Bool := decide (m.clus.length ≤ 64) && decide (m.cellTrim.length ≤ 1024)

/-- Well-formed commands. -/
def Instr.wf : Instr → Bool
  | .readData _ beats _ => decide (1 ≤ beats.length) && decide (beats.length ≤ 16)
  | .senseFrame _ m => m.wf
  | .channelRead _ m => m.wf
  | .channelTraining _ _ l => l.length == 90 && l.all LaneEye.wf
  | .recalibration _ l => l.length == 10 && l.all LaneEye.wf
  | .thermalSampleDelivered _ t => t.length == 8
  | .clusterWakeReport _ m => m.wf
  | .securePageFill st _ => st.wf
  | .cellSelfTest _ _ x _ _ => x.trips.length == 4
  | .marchComplete _ n => decide (n < 2 ^ 32)
  | .mergeExpiry c _ => decide (c < 2 ^ 12)
  | .correctedFaultClose c _ => decide (c < 2 ^ 12)
  | _ => true

end Sys2Proof
end

