-- ==== Sys2Proof/Tests/Slice0.lean ====
section
/-! SUPPORT. Tests of single steps and of the checks of well-formedness, and a witness for every statement that has
hypotheses: theorem test_<Statement> shows for each of its clauses a concrete state and operands that meet the clause's
hypotheses together, and, where a step is named, a value that the cited rule gives for the state after it. The values
come from the rules, by hand. -/

-- the witnesses are checked one after the other
set_option Elab.async false

open Sys2Proof Sys2Proof.Machine

namespace Sys2Proof.Tests

/-! ## Small states -/

/-- The state after a command; the state itself where the command has none. -/
def after (i : Instr) (s : State) : State :=
  match exec i s with
  | .next t => t
  | _ => s

/-- The command answers a next state. -/
def runs (i : Instr) (s : State) : Bool :=
  match exec i s with
  | .next _ => true
  | _ => false

/-- The command answers a next state, of which something holds. -/
def ok (i : Instr) (s : State) (p : State → Bool) : Bool :=
  match exec i s with
  | .next t => p t
  | _ => false

/-- Every one of some facts. -/
def all (l : List Bool) : Bool := l.all (fun b => b)

/-- A call sheet: cluster 0 serves domain 0, a LOGIC domain; cluster 1 is split between domains 1 and 2 of another type;
domain 3 is of type AON; group 1 holds domains 1 and 2. -/
def dr (d ty par : Nat) : DomRec :=
  { dom := d, dtype := ty, vmin := 700, vmax := 3000, vboot := 1000, vreset := 900, parent := par, ilim := 640, slope := 100
    fmax := 0xFFF, thrDom := 0, thrEn := true, stackMask := 0 }

/-- The call sheet of the tests. -/
def sheet : CallSheet :=
  { clus := [{ clu := 0, cells := 0xFFFF, domLo := 0, domHi := 0 }, { clu := 1, cells := 0xFFFF, domLo := 1, domHi := 2 }]
    doms := [dr 0 0 0, dr 1 1 1, dr 2 1 1, dr 3 4 0]
    grps := [{ grp := 0, level := 0, parent := 0 }, { grp := 1, level := 1, parent := 0 }] }

/-- The reset state with that call sheet in force and both clusters woken. -/
def base : State :=
  (({ State.reset with csh := some sheet } : State).modCl 0 (fun c => { c with woke := true })).modCl 1
    (fun c => { c with woke := true })

/-- In service; the protection ID 0 has every context and the global commands in its scope. -/
def ready : State :=
  { base with
    pins := { base.pins with rdy := true }
    boot := { base.boot with step := 9 }
    sec := { base.sec with prot := vset base.sec.prot 0 (vrep 8 0x1FFFF) } }

/-- A command of opcode `opc` addressed to unit `u`, with its operand words from word 2 on. -/
def cmd (opc u : Nat) (g : Stage) (ops : List Word64) : Cmd :=
  { opc, gen := 0, unit := u, ctx := 0, pred0 := none, pred1 := none, ops, cookie := 0, ring := 0, index := 0, age := 0
    stage := g, parts := [], ends := [], fails := [], wait := 0, holdFor := [] }

/-- A state that holds one command, in slot 0. -/
def holding (c : Cmd) (s : State) : State := { s with host := { s.host with cmds := [(0, c)] } }

/-- Commands are served. -/
def serving (s : State) : Bool := s.accessible && !s.flt.fatal && decide (s.gafClock = .running)

/-- Slot 0 holds a command of an opcode in a stage, and commands are served. -/
def at0 (s : State) (opc : Nat) (g : Stage) : Bool :=
  serving s && (match s.cmd? 0 with
    | some c => decide (c.opc = opc) && decide (c.stage = g)
    | none => false)

/-- The tests' terms say what the statements' terms say. -/
theorem test_at0_is_cmdAt (s : State) (opc : Nat) (g : Stage) (h : at0 s opc g = true) :
    ∃ c, CmdAt s 0 opc g c := by
  unfold at0 serving at h
  cases e : s.cmd? 0 with
  | none => simp [e] at h
  | some c =>
    simp [e] at h
    exact ⟨c, ⟨h.1.1.1, h.1.1.2, h.1.2⟩, e, h.2.1, h.2.2⟩

/-- A write of the word at an offset has its effect for requester 0. -/
def mayW (s : State) (off : Nat) : Bool :=
  s.accessible && off % 4 == 0 && s.permits 0 off true && s.stalled.isEmpty && (match regAt off with
    | some r => !s.regAbsent r && !s.lockedReg r && s.regAwake r && (match r.cluster with
      | some n => !s.shadowOnly n
      | none => true)
    | none => false)

/-- A read at an offset has its effect for requester 0. -/
def mayR (s : State) (off : Nat) : Bool :=
  s.accessible && off % 4 == 0 && s.permits 0 off false && s.stalled.isEmpty && (match regAt off with
    | some r => !s.regAbsent r && s.regAwake r && (match r.cluster with
      | some n => !s.shadowOnly n
      | none => true)
    | none => false)

/-- The tests' condition of a write implies the statements'. -/
theorem test_mayW_is_MayWrite (s : State) (off : Nat) (h : mayW s off = true) : MayWrite s 0 off := by
  unfold mayW at h
  cases e : regAt off with
  | none => simp [e] at h
  | some r =>
    simp [e] at h
    refine ⟨h.1.1.1.1, h.1.1.1.2, h.1.1.2, h.1.2, r, e, h.2.1.1.1, h.2.1.1.2, h.2.1.2, ?_⟩
    intro n hn
    simpa [hn] using h.2.2

/-- The tests' condition of a read implies the statements'. -/
theorem test_mayR_is_MayRead (s : State) (off : Nat) (h : mayR s off = true) : MayRead s 0 off := by
  unfold mayR at h
  cases e : regAt off with
  | none => simp [e] at h
  | some r =>
    simp [e] at h
    refine ⟨h.1.1.1.1, h.1.1.1.2, h.1.1.2, h.1.2, r, e, h.2.1.1, h.2.1.2, ?_⟩
    intro n hn
    simpa [hn] using h.2.2

/-- In service with one command in slot 0 that Arbitrate has chosen. -/
def sel (opc u : Nat) (ops : List Word64) : State := holding (cmd opc u .selected ops) ready

/-- In service with one decoded command in slot 0. -/
def dec (opc u : Nat) (ops : List Word64) : State := holding (cmd opc u .decoded ops) ready

/-- The first command's status in the complete stage, with its RESULT. -/
def ended (s : State) : Option (Status × Word64) := s.host.cpls.getLast?.map (fun r => (r.status, r.result))

/-- The state with one domain, one cluster's control part or one context changed. -/
def withDm (d : Nat) (f : Domain → Domain) (s : State) : State := s.modDm d f
/-- One cluster. -/
def withCl (n : Nat) (f : Cluster → Cluster) (s : State) : State := s.modCl n f
/-- One context. -/
def withCx (x : Nat) (f : Context → Context) (s : State) : State := s.modCx x f
/-- One half of a cluster, one cell, one lane, one channel. -/
def withHalf (n h : Nat) (f : Half → Half) (s : State) : State := s.modHalf n h f
/-- One cell. -/
def withCell (n k : Nat) (f : Cell → Cell) (s : State) : State := s.modCell n k f
/-- The slate port. -/
def withSlt (f : Slate → Slate) (s : State) : State := { s with slt := f s.slt }
/-- The clock of a cluster runs, and it is in service. -/
def runsClu (n : Nat) (s : State) : State := withCl n (fun c => { c with woke := true, clock := .running }) s
/-- The role of the chip in the slate tree. -/
def inRole (r : Nat) (s : State) : State := { s with csh := some { sheet with s9 := { sheet.s9 with role := r } } }
/-- One port of the slate. -/
def withPort (p : Nat) (f : SPort → SPort) (s : State) : State :=
  withSlt (fun x => { x with ports := vset x.ports p (f (vget x.ports p)) }) s

/-- The command of slot 0. -/
def c0 (s : State) : Cmd := (s.cmd? 0).getD (cmd 0 0 .held [])

/-- A command waits behind the present one. -/
def behind (i : Instr) (s : State) : State := { s with pending := [i] }

/-- With nothing deferred and an empty queue an event ends its ledger's cycle. -/
theorem test_lastEvent (s : State) (n r : Nat) (hd : (s.cl n).led.defer = []) (hp : s.pending = []) :
    LastEvent s n r := by
  refine ⟨hd, fun t => ?_⟩
  have e : (s.advanceTo t).pending = s.pending := by
    unfold State.advanceTo
    split <;> rfl
  unfold State.ledgerMore
  rw [e, hp]
  rfl
/-! ## Well-formedness refuses an ill-formed term for each of its checks -/

/-- A frame of the right lengths. -/
def frame : FrameMeas :=
  { a := List.replicate 32 0, vin := 0, bI := 0, bV := 0, pulse := 0, urg := [0, 0, 0, 0] }
/-- A wake report of the right lengths. -/
def wakeRep : WakeMeas := { phase1 := List.replicate 33 0, phase2 := List.replicate 33 0, temps := List.replicate 8 400, marchFail := none }
/-- A secure store within its lengths. -/
def store : SecStore :=
  { readable := true, crcOk := true, tCrit := 2000, soaVmax := 3800, devId := 0, lc := 0, clus := [], cellTrim := [] }

/-- A cluster's part of the store. -/
def secClu : SecCluster := { fBin := 0, sBin := 0, ageRef := 0, oTrim := [], gTrim := [], tTrim := [], sensTrim := [] }

theorem test_wf_readData : (Instr.readData 0 [] false).wf = false ∧
    (Instr.readData 0 (List.replicate 17 0) false).wf = false ∧ (Instr.readData 0 (List.replicate 16 0) false).wf = true := by
  decide +kernel
theorem test_wf_senseFrame : (Instr.senseFrame 0 { frame with a := [] }).wf = false ∧
    (Instr.senseFrame 0 { frame with urg := [0] }).wf = false ∧
    (Instr.senseFrame 0 frame).wf = true := by decide +kernel
/-- A line that arrives as it was sent. -/
def okLine : LineMeas := { strobe := true, fixed := 0, dbl := false, poison := 0, corr := [], ck := [] }
theorem test_wf_channelRead : (Instr.channelRead 0 { okLine with corr := [80] }).wf = false ∧
    (Instr.channelRead 0 { okLine with ck := [8] }).wf = false ∧
    (Instr.channelRead 0 { okLine with corr := [79], ck := [7] }).wf = true := by decide +kernel
theorem test_wf_recalibration : (Instr.recalibration 0 (List.replicate 9 ⟨0, 8⟩)).wf = false ∧
    (Instr.recalibration 0 (List.replicate 10 ⟨0, 8⟩)).wf = true ∧ (Instr.channelTraining 0 true (List.replicate 89 ⟨0, 8⟩)).wf = false ∧
    (Instr.channelTraining 0 true (List.replicate 90 ⟨0, 8⟩)).wf = true := by
  decide +kernel
theorem test_wf_thermalSampleDelivered : (Instr.thermalSampleDelivered 0 [1]).wf = false ∧
    (Instr.thermalSampleDelivered 0 (List.replicate 8 1)).wf = true := by decide +kernel
theorem test_wf_clusterWakeReport : (Instr.clusterWakeReport 0 { wakeRep with temps := [] }).wf = false ∧
    (Instr.clusterWakeReport 0 { wakeRep with phase1 := [] }).wf = false ∧
    (Instr.clusterWakeReport 0 { wakeRep with phase2 := [0] }).wf = false ∧
    (Instr.clusterWakeReport 0 { wakeRep with marchFail := some (4, 1) }).wf = false ∧
    (Instr.clusterWakeReport 0 { wakeRep with marchFail := some (3, 0) }).wf = false ∧
    (Instr.clusterWakeReport 0 wakeRep).wf = true := by decide +kernel
theorem test_wf_securePageFill :
    (Instr.securePageFill { store with cellTrim := List.replicate 1025 0 } false).wf = false ∧
    (Instr.securePageFill { store with clus := List.replicate 65 secClu } false).wf = false ∧
    (Instr.securePageFill store false).wf = true := by decide +kernel
/-- A cell's readings in TEST that pass every check, at 0.5 V. -/
def goodTest : CellTest := { vAdc := 500000, iZero := 0, trips := [1200, 1000, 1000, 1000], toggles := true, freewheel := true
                             ripple := 1000, open_ := 0 }
theorem test_wf_cellSelfTest :
    (Instr.cellSelfTest 0 0 { goodTest with trips := [1200] } 0 { vout := 0, vin := 0, imean := 0, cbc := false }).wf = false ∧
    (Instr.cellSelfTest 0 0 goodTest 0 { vout := 0, vin := 0, imean := 0, cbc := false }).wf = true := by decide +kernel
theorem test_wf_codes : (Instr.marchComplete 0 (2 ^ 32)).wf = false ∧ (Instr.mergeExpiry 4096 (.unit 0)).wf = false ∧
    (Instr.correctedFaultClose 4096 (.unit 0)).wf = false ∧ (Instr.marchComplete 0 1).wf = true ∧
    (Instr.mergeExpiry 4095 (.unit 0)).wf = true ∧ (Instr.correctedFaultClose 4095 (.unit 0)).wf = true := by decide +kernel
theorem test_no_word_spells_a_command : decodeTableWord 32 0 = none := by decide

/-! ## The rules stated whole, and the whole machine -/

theorem test_IdentityRegisterReads : base.accessible = true ∧ base.permits 0 0 false = true ∧
    base.permits 16 0 false = true ∧ (after (.pairLoRead 0 0) base).out = [.regData 0 0x301] ∧ base.gafClock = .running ∧
    ({ base with gafClock := .asleep } : State).gafClock ≠ .running ∧ base.stalled = [] ∧
    (after (.pairLoRead 0 0) { base with gafClock := .asleep }).out = [] ∧
    (after (.pairLoRead 0 0) { base with stalled := [.pairLoRead 1 0] }).stalled = [.pairLoRead 1 0, .pairLoRead 0 0] := by decide +kernel
theorem test_EpochWordIsKept : base.accessible = true ∧ base.sec.lock = false ∧ base.sec.lc = 0 ∧
    Tab.wf base.epochLo = true ∧ base.gafClock = .running ∧ base.stalled = [] ∧ runs (.nop 0) base = true ∧
    (after (.epochWrite 3 0x12345678 0xF) (after (.registerWrite 3 0x00048 0x9ABCDEF0 0xF) base)).epoch =
      0x123456789ABCDEF0 := by decide +kernel
theorem test_DitherCounterReturnsToZeroOnlyAtPowerOff : runs (.ditherStep 0) base = true ∧
    ((after (.powerLoss true) (base.modCl 0 (fun c => { c with carrier := { c.carrier with m := 5 } }))).cl 0).carrier.m = 0 ∧
    ((after .blockReset (base.modCl 0 (fun c => { c with carrier := { c.carrier with m := 5 } }))).cl 0).carrier.m = 5 := by
  decide +kernel
theorem test_StepRunsTheFrontCommand :
    ({ base with pending := [.nop 0, .fence 1] } : State).pending = .nop 0 :: [.fence 1] := by decide
theorem test_StepTakesOneCommand :
    (match step { base with pending := [.nop 0, .fence 1] } with
      | .next t => t.pending
      | _ => []) = [.fence 1] := by decide +kernel
theorem test_ElapsedNeverGoesBack : runs (.pairLoRead 0 0) base = true ∧
    ([] : List Instr).head? ≠ some (Instr.powerUp true) ∧ ([] : List Instr).head? ≠ some (Instr.powerLoss true) := by
  decide +kernel
theorem test_ElapsedCountsWhileWatchIsUp : base.pending = [] ∧ base.vaon = true ∧ base.supply = true ∧
    ({ base with supply := false } : State).supply = false ∧ base.gafClock = .running ∧
    ({ base with vaon := false } : State).vaon = false ∧ ({ base with gafClock := .asleep } : State).gafClock ≠ .running ∧
    (match step { base with gafClock := .asleep, oscPhase := 3 } with
      | .next t => (t.elapsed, t.oscPhase)
      | _ => (0, 9)) = (32, 0) := by decide +kernel
theorem test_BroadcastInstantStaysOnGrid : base.busAt % 1000 = 0 ∧ runs .shareBusBroadcast base = true ∧
    (after .shareBusBroadcast base).busAt = 2000 := by decide +kernel
theorem test_TripPinFollowsLatch : base.pins.thermtripN = (!base.trip) ∧
    (after (.criticalTrip 1 7) base).pins.thermtripN = false ∧ (after (.criticalTrip 1 7) base).trip = true := by decide +kernel
theorem test_trip_latch_holds : ({ base with trip := true } : State).trip = true ∧
    (after .blockReset { base with trip := true }).trip = true := by decide +kernel
theorem test_OnlyPowerRowsMoveTheSupplies : runs .blockReset base = true ∧
    (after .blockReset base).supply = true ∧ (after (.powerLoss true) base).vaon = false := by decide +kernel

/-! ## Commands of the rings -/

/-- Ring 0 with the protection ID 5, whose scope is one unit that the command does not name. -/
def inRing5 : State :=
  let s := dec 0x02 (uDom 0) [800]
  { s with host := { s.host with rings := vset s.host.rings 0 { pid := 5 } } }
theorem test_CommandsOutOfScopeDoNothing :
    (at0 inRing5 0x02 .decoded = true ∧ inRing5.flt.injects = [] ∧ inRing5.inScope (c0 inRing5) = false ∧
      (Instr.setTarget 0, 2) ∈ opRows 0 ∧ ended (after (.setTarget 0) inRing5) = some (.done, 0) ∧
      (after (.setTarget 0) inRing5).sec.violCnt = 1) ∧
    ((c0 inRing5).opc ≠ 0x03 ∧ (Instr.ramp 0, 3) ∈ opRows 0) ∧
    (inRing5.cmd? 1 = none ∧ (Instr.setTarget 1, 2) ∈ opRows 1) ∧
    (at0 (holding (cmd 0x19 0 .held []) ready) 0x19 .held = true ∧ (Instr.unitEnable 0, 0x19) ∈ opRows 0) := by
  decide +kernel
theorem test_DomainCommandsComplete :
    (at0 (dec 0 0 []) 0 .decoded = true ∧ (dec 0 0 []).flt.injects = [] ∧
      ended (after (.nop 0) (dec 0 0 [])) = some (.done, 0)) ∧
    (at0 (sel 1 0 []) 1 .selected = true ∧ ended (after (.fence 0) (sel 1 0 [])) = some (.done, 0)) ∧
    (at0 (sel 2 (uDom 0) [800]) 2 .selected = true ∧ 0 ∈ sheet.reach (uDom 0) ∧ ready.domInReset 0 = false ∧
      (0, 0) ∈ sheet.domHalves 0 ∧
      (((after (.setTarget 0) (sel 2 (uDom 0) [800])).half 0 0).ramp.chg.map (fun x => (x.tgt, x.rate))) = [(800, 40)]) ∧
    (at0 (sel 2 (uDom 9) [800]) 2 .selected = true ∧ sheet.reach (uDom 9) = [] ∧ sheet.reach (uDom 127) = []) ∧
    (at0 (sel 3 1 [0x14900]) 3 .selected = true ∧ sheet.reach 1 = [1, 2] ∧ (1, 1) ∈ sheet.domHalves 2 ∧
      (((after (.ramp 0) (sel 3 1 [0x14900])).half 1 1).ramp.chg.map (fun x => (x.tgt, x.rate))) = [(0x900, 20)]) ∧
    (at0 (sel 4 (uDom 0) []) 4 .selected = true ∧ onCheck (c0 (sel 4 (uDom 0) [])) (sel 4 (uDom 0) []) = none ∧
      ((after (.domainOn 0) (sel 4 (uDom 0) [])).dm 0).on = true) ∧
    (onCheck (c0 (sel 4 (uDom 3) [])) (sel 4 (uDom 3) []) = some (.rejectedState, 0)) ∧
    (onCheck (c0 (sel 4 (uDom 0) [])) (withDm 0 (fun d => { d with disabled := true }) (sel 4 (uDom 0) [])) =
      some (.rejectedState, 0)) ∧
    (at0 (withDm 0 (fun d => { d with stages := 8 }) (sel 5 (uDom 0) [])) 5 .selected = true ∧
      offCheck (c0 (sel 5 (uDom 0) [])) (withDm 0 (fun d => { d with stages := 8 }) (sel 5 (uDom 0) [])) = none ∧
      ((after (.domainOff 0) (withDm 0 (fun d => { d with stages := 8 }) (sel 5 (uDom 0) []))).dm 0).stages = 7) ∧
    (offCheck (c0 (sel 5 (uDom 0) [])) (sel 5 (uDom 0) []) = some (.rejectedState, 0)) ∧
    (at0 (sel 0x0E (uDom 1) [0x640280]) 0x0E .selected = true ∧ 1 ∈ sheet.reach (uDom 1) ∧
      ((after (.creditConfig 0) (sel 0x0E (uDom 1) [0x640280])).dm 1).cfgWait = some (0, 0x280, 0x64)) ∧
    (at0 (sel 0x0F (uDom 2) [0x50000]) 0x0F .selected = true ∧ (c0 (sel 0x0F (uDom 2) [0x50000])).opnd 2 0 1 = 0 ∧
      ((after (.capSet 0) (sel 0x0F (uDom 2) [0x50000])).dm 2).ceilW = 5) ∧
    (at0 (sel 0x0F 0 [1, 0, 0, 0, 0, 0]) 0x0F .selected = true ∧
      (c0 (sel 0x0F 0 [1, 0, 0, 0, 0, 0])).opnd 2 0 1 = 1 ∧ (capOps (c0 (sel 0x0F 0 [1, 0, 0, 0, 0, 0]))).isSome = true) := by
  decide +kernel
/-- A valid bank. -/
def bankOk : Bank := { fswLo := 200, fswHi := 250, cls := 0, red := false, lanes := vrep 16 {}, valid := true }
/-- A state of the witness below. -/
def unitCommands1 : State := withCl 1 (fun c => { c with ctl := { c.ctl with bankB := bankOk } }) (sel 7 (uClu 1) [])
/-- A state of the witness below. -/
def unitCommands2 : State := sel 0x19 (uCell 0 3) []
/-- A state of the witness below. -/
def unitCommands3 : State :=
  withCl 0 (fun c => { c with cells := vrep 16 { st := .disabled } }) (sel 0x19 (uClu 0) [])
theorem test_UnitCommandsComplete :
    (at0 (sel 6 (uClu 0) [0x1000]) 6 .selected = true ∧ sheet.bankClus (uClu 0) = [0] ∧ sheet.bankClus (uDom 2) = [1] ∧
      (ready.cl 0).ctl.swap = none ∧ (ready.cl 0).inReset = none ∧
      (c0 (sel 6 (uClu 0) [0x1000])).opnd 2 48 3 = 0 ∧
      (after (.loadBank 0) (sel 6 (uClu 0) [0x1000])).out.head? = some (.memRead 0 0x1000 16 0) ∧
      ((after (.loadBank 0) (sel 6 (uClu 0) [0x1000])).cl 0).ctl.loadBusy = true) ∧
    ((c0 (sel 6 (uClu 0) [0x4000000000000])).opnd 2 48 3 = 4 ∧
      (withCl 0 (fun x => x) (sel 6 (uClu 0) [0x4000000000000])).present 0 = true ∧
      ((sel 6 (uClu 0) [0x4000000000000]).sheet.bankClus (uClu 0)).find? (fun n =>
        ((sel 6 (uClu 0) [0x4000000000000]).cl n).ctl.swap.isSome ||
        ((sel 6 (uClu 0) [0x4000000000000]).chan n).st == 3) = some 0 ∧
      ended (after (.loadBank 0) (sel 6 (uClu 0) [0x4000000000000])) = some (.rejectedState, 0)) ∧
    (at0 (sel 6 (uClu 5) []) 6 .selected = true ∧ sheet.bankClus (uClu 5) = []) ∧
    (at0 (sel 7 (uClu 1) []) 7 .selected = true ∧
      (sheet.bankClus (uClu 1)).find? (sel 7 (uClu 1) []).swapBad = some 1 ∧
      ended (after (.swapBank 0) (sel 7 (uClu 1) [])) = some (.rejectedState, 256)) ∧
    (at0 unitCommands1 7 .selected = true ∧ (sheet.bankClus (uClu 1)).find? unitCommands1.swapBad = none ∧
      ((after (.swapBank 0) unitCommands1).cl 1).ctl.swap = some (0, unitCommands1.elapsed + 100000)) ∧
    (at0 (sel 0x18 (uClu 0) []) 0x18 .selected = true ∧ uCell 0 0 ∈ ready.switchSub (uClu 0) ∧
      uCell 0 15 ∈ ready.switchSub (uClu 0) ∧ uClu 0 ∈ ready.switchSub (uClu 0) ∧ uDom 0 ∈ ready.switchSub (uDom 0) ∧
      ((after (.unitDisable 0) (sel 0x18 (uCell 0 15) [])).cell 0 15).st = .disabled) ∧
    (at0 unitCommands2 0x19 .selected = true ∧ (clusIn (unitCommands2.switchSub (uCell 0 3))).filter unitCommands2.cluDisabled = [] ∧
      uCell 0 3 ∈ unitCommands2.switchSub (uCell 0 3) ∧ (unitCommands2.cell 0 3).st = .idle ∧
      ((after (.unitEnable 0) (withCell 0 3 (fun c => { c with st := .latched }) unitCommands2)).cell 0 3).st = .test) ∧
    (at0 unitCommands3 0x19 .selected = true ∧ uClu 0 ∈ unitCommands3.switchSub (uClu 0) ∧ unitCommands3.cluDisabled 0 = true ∧ unitCommands3.present 0 = true ∧
      (unitCommands3.cl 0).inReset = none ∧ ((after (.unitEnable 0) unitCommands3).cl 0).inReset = some unitCommands3.elapsed) := by decide +kernel
/-- Context 1 reactive, with one resident reel of shots 4 and 5. -/
def ctx1 (s : State) : State :=
  withCx 1 (fun x => { x with st := .reactive, reels := [{ num := 7, sbase := 4, nshot := 2, pbase := 0, nprof := 0, fr := none }] }) s
/-- A selected command of context 1. -/
def selc (opc : Nat) (ops : List Word64) : State := ctx1 (holding { cmd opc 0 .selected ops with ctx := 1 } ready)
/-- A state of the witness below. -/
def readingCommands1 : State := dec 0x16 0 [0x6000, 0x200]
/-- A state of the witness below. -/
def readingCommands2 : State := { dec 0x16 0 [0x6000, 0x401FF] with nv := { ready := true } }
/-- A state of the witness below. -/
def readingCommands3 : State := { sel 0x16 0 [0x6000, 0x200] with nv := { ready := true } }
/-- A state of the witness below. -/
def readingCommands4 : State := { sel 0x16 0 [0x6000, 0x200] with nv :=
        { ready := true, flash := [(0, { words := List.replicate 16 0, committed := true })] } }
/-- A state of the witness below. -/
def readingCommands5 : State := { sel 0x16 0 [0x6000, 0x200] with nv := { ready := true, erasing := true } }
theorem test_ReadingCommandsComplete :
    (at0 (sel 8 0 [0x2000]) 8 .selected = true ∧
      (after (.callSheetLoad 0) (sel 8 0 [0x2000])).out.head? = some (.memRead 0 0x2000 4 0)) ∧
    (at0 (sel 9 0 [0x2FF0]) 9 .selected = true ∧
      (after (.contextOpen 0) (sel 9 0 [0x2FF0])).out.head? = some (.memRead 0 0x2FF0 1 0)) ∧
    (at0 (selc 0x0B [0x3000]) 0x0B .selected = true ∧ (c0 (selc 0x0B [0x3000])).ctx = 1 ∧
      ((selc 0x0B []).cx 1).st ≠ .closed ∧ ((selc 0x0B []).cx 1).closing = none ∧ ((selc 0x0B []).cx 1).loads.length = 0 ∧
      ((after (.reelLoad 0) (selc 0x0B [0x3000])).cx 1).loads.length = 1) ∧
    (((sel 0x0B 0 []).cx 0).st = .closed ∧ ended (after (.reelLoad 0) (sel 0x0B 0 [])) = some (.rejectedState, 1)) ∧
    (at0 (sel 0x15 (uDom 0) [0x5000]) 0x15 .selected = true ∧ sheet.telUnits (uDom 0) 0 = [uDom 0] ∧
      ((sheet.telUnits (uDom 0) 0).flatMap (sel 0x15 (uDom 0) [0x5000]).telRecord).length ≤
        2 * chunkBeats 0x5000 (8 * ((sheet.telUnits (uDom 0) 0).flatMap (sel 0x15 (uDom 0) [0x5000]).telRecord).length)) ∧
    (at0 (sel 0x15 1 [0x2000000005000]) 0x15 .selected = true ∧ (sheet.telUnits 1 2).length = 20 ∧
      2 * chunkBeats 0x5000 (8 * ((sheet.telUnits 1 2).flatMap (sel 0x15 1 [0x2000000005000]).telRecord).length) <
        ((sheet.telUnits 1 2).flatMap (sel 0x15 1 [0x2000000005000]).telRecord).length) ∧
    (at0 readingCommands1 0x16 .decoded = true ∧ readingCommands1.flt.injects = [] ∧ readingCommands1.inScope (c0 readingCommands1) = true ∧ (c0 readingCommands1).opnd 2 0 7 = 0 ∧
      (c0 readingCommands1).opnd 3 9 10 = 1 ∧ readingCommands1.nv.ready = false ∧ ended (after (.nvRead 0) readingCommands1) = some (.rejectedState, 0)) ∧
    (at0 readingCommands2 0x16 .decoded = true ∧ readingCommands2.inScope (c0 readingCommands2) = true ∧ (c0 readingCommands2).opnd 3 9 10 = 512 ∧ (c0 readingCommands2).opnd 3 0 9 = 511 ∧
      readingCommands2.nv.ready = true ∧ ended (after (.nvRead 0) readingCommands2) = some (.rejectedLimit, 0)) ∧
    (at0 readingCommands3 0x16 .selected = true ∧ readingCommands3.nv.busy = false ∧
      ((readingCommands3.nv.committed (2 ^ 32)).drop ((c0 readingCommands3).opnd 3 0 9)).take ((c0 readingCommands3).opnd 3 9 10) = [] ∧
      ended (after (.nvRead 0) readingCommands3) = some (.done, 0)) ∧
    (at0 readingCommands4 0x16 .selected = true ∧ readingCommands4.nv.busy = false ∧
      ((readingCommands4.nv.committed (2 ^ 32)).drop ((c0 readingCommands4).opnd 3 0 9)).take ((c0 readingCommands4).opnd 3 9 10) ≠ [] ∧
      (List.replicate 16 (0 : Word64)).length ≤ 2 * chunkBeats 0x6000 (8 * 16) ∧ runs (.nvRead 0) readingCommands4 = true) ∧
    (readingCommands5.nv.busy = true ∧ ended (after (.nvRead 0) readingCommands5) = none) := by decide +kernel

/-- A played shot that waits for its notice. -/
def waits : Played :=
  { seq := 3, shot := 4, step := 0, guard := 0, onset := none, end_ := none, evaluated := false, notice := .waiting
    flagged := none, begun := false }
/-- A plan under way with one load held, whose command stands in slot 3. -/
def planned : State :=
  let s := withCx 1 (fun x => { x with st := .armed, loads := [{ slot := 3, loading := false, openN := 0, hdr := [] }] })
    (selc 0x0D [])
  { s with host := { s.host with cmds := s.host.cmds ++ [(3, { cmd 0x0B 0 .dispatched [] with ctx := 1 })] } }
/-- A member chip with its parent's port UP and slate time locked. -/
def member : State :=
  withSlt (fun x => { x with time := { x.time with locked := true } })
    (withPort 0 (fun p => { p with st := 2 }) (inRole 1 (selc 0x10 [])))
theorem test_ContextCommandsComplete : all [
    at0 (sel 0x0A 0 []) 0x0A .selected = true && ((sel 0x0A 0 []).cx 0).st = .closed &&
      ended (after (.contextClose 0) (sel 0x0A 0 [])) = some (.rejectedState, 0),
    at0 (selc 0x0A []) 0x0A .selected = true && ((selc 0x0A []).cx 1).st ≠ .closed && ((selc 0x0A []).cx 1).closing = none &&
      ((selc 0x0A []).cx 1).plan = false && ((selc 0x0A []).cx 1).played = [] && ((selc 0x0A []).cx 1).wmDirty = false &&
      ((selc 0x0A []).cx 1).loads = [] &&
      ok (.contextClose 0) (selc 0x0A []) (fun t => ended t == some (.done, 0) && (t.cx 1).st == .closed) = true,
    ((withCx 1 (fun x => { x with played := [waits] }) (selc 0x0A [])).cx 1).wmStop = false && waits.notice = .waiting &&
      ok (.contextClose 0) (withCx 1 (fun x => { x with played := [waits] }) (selc 0x0A []))
        (fun t => (t.cx 1).closing == some 0 && (t.cx 1).st == .reactive) = true,
    at0 (selc 0x0C [8]) 0x0C .selected = true && ((selc 0x0C [8]).cx 1).reel ((c0 (selc 0x0C [8])).opnd 2 0 8) = none &&
      ended (after (.planArm 0) (selc 0x0C [8])) = some (.rejectedState, 0),
    at0 (selc 0x0C [7]) 0x0C .selected = true &&
      (((selc 0x0C [7]).cx 1).reel ((c0 (selc 0x0C [7])).opnd 2 0 8)).isSome = true &&
      ((selc 0x0C [7]).cx 1).st = .reactive &&
      ok (.planArm 0) (selc 0x0C [7]) (fun t => ended t == some (.done, 0) && (t.cx 1).st == .armed &&
        (t.cx 1).next.bind (fun n => n.shot) == some 4) = true,
    at0 (selc 0x0D []) 0x0D .selected = true && ended (after (.planDisarm 0) (selc 0x0D [])) = some (.rejectedState, 0),
    at0 planned 0x0D .selected = true && (planned.cx 1).plan = true && (planned.cx 1).loads.length = 1 &&
      (planned.cmd? 3).isSome = true &&
      ok (.planDisarm 0) planned (fun t => ended t == some (.abortedDisabled, 0) && (t.cx 1).leaving) = true,
    at0 (sel 0x10 0 []) 0x10 .selected = true && (sel 0x10 0 []).role = 0 &&
      ended (after (.slateJoin 0) (sel 0x10 0 [])) = some (.rejectedState, 0),
    at0 member 0x10 .selected = true && member.slt.joined = false && member.slt.join = none &&
      (member.cx 1).st ≠ .closed && member.role = 1 && (vget member.slt.ports 0).st = 2 && member.slt.time.locked = true &&
      member.slt.disc ≠ 1 && ok (.slateJoin 0) member (fun t => t.out.length == 2 && t.slt.join.isSome) = true,
    at0 (withPort 2 (fun p => { p with st := 2 }) (inRole 2 (selc 0x10 []))) 0x10 .selected = true &&
      (withPort 2 (fun p => { p with st := 2 }) (inRole 2 (selc 0x10 []))).downPorts = [2] &&
      ok (.slateJoin 0) (withPort 2 (fun p => { p with st := 2 }) (inRole 2 (selc 0x10 [])))
        (fun t => t.slt.disc == 1 && (vget t.slt.ports 2).asked) = true,
    (inRole 2 (selc 0x10 [])).downPorts = [] && ok (.slateJoin 0) (inRole 2 (selc 0x10 []))
      (fun t => ended t == some (.done, 1) && t.slt.joined && t.slt.n == 1) = true,
    at0 (selc 0x11 []) 0x11 .selected = true && (selc 0x11 []).slt.joined = false &&
      ended (after (.slateLeave 0) (selc 0x11 [])) = some (.rejectedState, 0),
    (withSlt (fun x => { x with joined := true }) (inRole 2 (selc 0x11 []))).slt.open_ = false &&
      ok (.slateLeave 0) (withSlt (fun x => { x with joined := true }) (inRole 2 (selc 0x11 [])))
        (fun t => ended t == some (.done, 0) && !t.slt.joined) = true,
    ok (.slateLeave 0) (withSlt (fun x => { x with joined := true }) (inRole 1 (selc 0x11 [])))
      (fun t => t.slt.leaving && t.slt.joined && t.slt.leave == some 0) = true] = true := by decide +kernel
/-- A domain of type LOGIC that is on, at code 1000, with a command for it in slot 0. -/
def onDom (opc : Nat) (ops : List Word64) : State :=
  withDm 0 (fun d => { d with stages := 8, on := true, tgt := 1000 }) (sel opc (uDom 0) ops)
/-- A probe of it that dwells. -/
def dwells : State :=
  { onDom 0x12 [0x642020A, 0x4008] with probes := [(0, { slot := 0, dom := 0, t := 1000, k := 1, last := 0, stop := 0, run := 0, phase := 2, dwellBy := 90 })] }
theorem test_TestCommandsComplete : all [
    at0 (sel 0x12 (uDom 0) [0x642020A, 0x4008]) 0x12 .selected = true && uKind (uDom 0) = .domain 0 &&
      ((sel 0x12 (uDom 0) [0x642020A, 0x4008]).probeRefused (c0 (sel 0x12 (uDom 0) [0x642020A, 0x4008])) 0).isSome =
        true &&
      ended (after (.marginProbe 0) (sel 0x12 (uDom 0) [0x642020A, 0x4008])) = some (.rejectedLimit, 0),
    at0 (onDom 0x12 [0x642020A, 0x4008]) 0x12 .selected = true && probeLimits (c0 (onDom 0x12 [0x642020A, 0x4008])) = true &&
      (onDom 0x12 [0x642020A, 0x4008]).probeRefused (c0 (onDom 0x12 [0x642020A, 0x4008])) 0 = none &&
      ok (.marginProbe 0) (onDom 0x12 [0x642020A, 0x4008]) (fun t => (t.dm 0).probeT == some 1000 &&
        (t.half 0 0).ramp.chg.map (fun x => x.tgt) == [990]) = true,
    ok (.marginProbeDwell 0) dwells (fun t => t.elapsed == 90 && t.out == [.memRead 0 0x4000 1 0]) = true,
    at0 (sel 0x13 0 [0x1000]) 0x13 .selected = true &&
      selfCheck (c0 (sel 0x13 0 [0x1000])) (sel 0x13 0 [0x1000]) = some (.rejectedLimit, 0) &&
      ended (after (.selfTest 0) (sel 0x13 0 [0x1000])) = some (.rejectedLimit, 0),
    at0 (sel 0x13 0 [0x4040, 7]) 0x13 .selected = true &&
      selfCheck (c0 (sel 0x13 0 [0x4040, 7])) (sel 0x13 0 [0x4040, 7]) = none &&
      ok (.selfTest 0) (sel 0x13 0 [0x4040, 7]) (fun t => t.selft.map (fun x => (x.a, x.b, x.nops, x.seed)) ==
        some (0, 1, 4, 7)) = true,
    at0 (sel 0x14 0 [2]) 0x14 .selected = true && (c0 (sel 0x14 0 [2])).marchOps = (2, 0, false) &&
      (withCl 0 (fun c => { c with ctl := { c.ctl with loadBusy := true } }) (sel 0x14 0 [2])).marchFree 2 0 = false &&
      ended (after (.march 0) (withCl 0 (fun c => { c with ctl := { c.ctl with loadBusy := true } }) (sel 0x14 0 [2]))) =
        some (.rejectedState, 0),
    (withCl 0 (fun c => { c with inReset := some 0 }) (sel 0x14 0 [3])).marchFree 3 0 = true &&
      ended (after (.march 0) (withCl 0 (fun c => { c with inReset := some 0 }) (sel 0x14 0 [3]))) =
        some (.abortedReset, 0),
    (c0 (sel 0x14 0 [0x403])).marchOps = (3, 0, true) && ok (.march 0) (sel 0x14 0 [0x403]) (fun t => t.march == some 0) =
      true,
    (sel 0x14 0 [2]).marchFree 2 0 = true && ok (.march 0) (sel 0x14 0 [2]) (fun t =>
      t.march == some 0 && !(t.cl 0).ctl.inactive.valid) = true,
    (withHalf 1 1 (fun h => { h with acc := { h.acc with ord := 9 } }) (sel 0x14 0 [0x13])).marchFree 3 1 = true &&
      ok (.march 0) (withHalf 1 1 (fun h => { h with acc := { h.acc with ord := 9 } }) (sel 0x14 0 [0x13])) (fun t =>
        (t.half 1 1).acc == {}) = true,
    (sel 0x14 0 [9]).marchFree 9 0 = true && ok (.march 0) (sel 0x14 0 [9]) (fun t =>
      (List.finRange 16).all (fun i => vget t.sec.prot i == vrep 8 0)) = true,
    at0 { holding (cmd 0x14 0 .dispatched [0x13]) ready with march := some 0 } 0x14 .dispatched = true &&
      ok (.marchComplete 0 3) { holding (cmd 0x14 0 .dispatched [0x13]) ready with march := some 0 } (fun t =>
        t.march == none && ended t == some (.done, 3) && (t.cl 1).marchFail == 3) = true,
    at0 (sel 0x17 0 [0x2043]) 0x17 .selected = true && ok (.stampConfig 0) (sel 0x17 0 [0x2043]) (fun t =>
      (vget t.stamps 3).chg == some (1, true, 0)) = true] = true := by decide +kernel

/-! ## The host interface -/

/-- One ring. -/
def withRing (k : Nat) (f : Ring → Ring) (s : State) : State :=
  { s with host := { s.host with rings := vset s.host.rings k (f (vget s.host.rings k)) } }
/-- Command ring 0 is on, at 0x10000, with slots 0 to 7 and two descriptors that have not been fetched. -/
def rung : State := withRing 0 (fun r => { r with on := true, base := 0x10000, slotCnt := 8, prod := 2 }) ready
/-- A fetched descriptor of ring 0 with its first word. -/
def fetched (w0 : Word64) (poison : Bool) : State :=
  { rung with host := { rung.host with fetched := [{ ring := 0, index := 5, words := [w0, 0, 0, 0, 0, 0, 0, 0x77], poison, age := 0 }] } }
/-- The descriptor's own record. -/
def lastCpl (t : State) : Option (Option Nat × Status × BitVec 32) :=
  t.host.cpls.getLast?.map (fun r => (r.slot, r.status, r.index))
theorem test_HostPipelineRowsComplete : all [
    base.accessible && (12 : BitVec 12).toNat % 8 != 0 && runs (.doorbell 12 1 0xFF) base,
    (288 : BitVec 12).toNat / 8 == 36 && (0xF0 : BitVec 8).toNat % 16 == 0,
    !base.pins.rdy && ok (.doorbell 0 1 0xF) base (fun t => t.host.dbDrop == 1),
    ready.pins.rdy && !(vget ready.host.rings 0).on && ok (.doorbell 0 1 0xF) ready (fun t => t.host.dbBad == 1),
    rung.pins.rdy && (3 : BitVec 8).toNat % 16 != 15 && ok (.doorbell 0 3 3) rung (fun t => t.host.dbBad == 1),
    !(vget rung.host.rings 0).admits true 1 && ok (.doorbell 0 1 0xF) rung (fun t => t.host.dbBad == 1),
    (vget rung.host.rings 0).admits true 64 && !(vget rung.host.rings 0).admits true 65 &&
      ok (.doorbell 0 64 0xF) rung (fun t => (vget t.host.rings 0).prod == 64 && (vget t.host.rings 0).db == some (0, 2)),
    (let s := withRing 16 (fun r => { r with on := true, prod := 3, acked := 3 }) ready
     (vget s.host.rings 16).admits false 3 && !(vget s.host.rings 16).admits false 4 &&
      ok (.doorbell 128 3 0xF) s (fun t => (vget t.host.rings 16).cons == 3)),
    serving rung && !rung.host.reset && rung.fetchN 0 == 2 &&
      ((List.range 16).map (fun j => (rung.host.rr + j) % 16)).find? (fun k => decide (0 < rung.fetchN k)) == some 0 &&
      ok .descriptorFetch rung (fun t => t.host.rr == 1 && (vget t.host.rings 0).issued == 2 &&
        t.out == [.memRead 0 0x10000 8 0]),
    serving (fetched 0x100 true) && (fetched 0x100 true).nextFetched.isSome &&
      ok .descriptorDecode (fetched 0x100 true) (fun t => lastCpl t == some (none, .poisoned, 5)),
    ok .descriptorDecode (fetched 0x800 false) (fun t => lastCpl t == some (none, .rejectedFormat, 5)),
    ok .descriptorDecode (fetched 0x20700 false) (fun t => lastCpl t == some (none, .rejectedFormat, 5)),
    fmtBad [0x1A, 0, 0, 0, 0, 0, 0, 0] && ok .descriptorDecode (fetched 0x71A false)
      (fun t => lastCpl t == some (some 7, .rejectedFormat, 5)),
    !fmtBad [0x700, 0, 0, 0, 0, 0, 0, 0] && !(vget rung.host.rings 0).dis && ok .descriptorDecode (fetched 0x700 false)
      (fun t => (t.cmd? 7).map (fun c => c.stage) == some .decoded && t.host.cpls == []),
    (let s := holding { cmd 0 0 .held [] with pred0 := some 3 } rung
     let s : State := { s with host := { s.host with cmds := s.host.cmds ++ [(3, { cmd 0 0 .decoded [] with age := 9 })] } }
     serving s && (s.cmd? 0).map (fun c => c.stage) == some .held && !s.waitsResolve 0 (c0 s)),
    (let s := holding (cmd 1 0 .held []) rung
     let s : State := { s with host := { s.host with cmds := [(0, { cmd 1 0 .held [] with age := 9 }), (3, cmd 0 0 .decoded [])] } }
     s.waitsResolve 0 (c0 s) && ok (.commandDispatch 0) s (fun t => (c0 t).stage == .held)),
    (let s := holding (cmd 1 0 .held []) rung
     !s.waitsResolve 0 (c0 s) && s.abortsOf (c0 s) == [] &&
      ok (.commandDispatch 0) s (fun t => (c0 t).stage == .selected))] = true := by decide +kernel
/-- A completion record of slot 4. -/
def rec4 : CplRec :=
  { ring := 0, slot := some 4, tag := 4, status := .done, opc := 0, index := 1, result := 0, time := 0, cookie := 9, after := [] }
/-- The completion ring of ring 0 with room, and one record that waits. -/
def cplS : State :=
  withRing 16 (fun r => { r with on := true, base := 0x20000, prod := 65, cons := 2 })
    { rung with host := { rung.host with cpls := [rec4] } }
/-- An event record that waits, on an event ring with room. -/
def evS : State :=
  withRing 33 (fun r => { r with on := true, base := 0x30000, prod := 1 })
    { rung with host := { rung.host with buf := [{ ring := 1, words := [1, 2, 3, 4], clu := none, notice := none, ord := 0 }] } }
theorem test_RecordRowsComplete : all [
    !(vget ready.host.rings 16).on && runs (.completionRecord 0) ready,
    (vget (withRing 16 (fun r => { r with cons := 1 }) cplS).host.rings 16).full,
    serving cplS && !(vget cplS.host.rings 16).full && !cplS.cplHeld rec4 &&
      ok (.completionRecord 0) cplS (fun t => t.host.cpls == [] && (vget t.host.rings 16).prod == 66 &&
        t.out.head? == some (.memWrite 0 0x20020 (beatWords 0x20020 rec4.words) [0xFFFF, 0xFFFF] ownSrc)),
    !(vget ready.host.rings 33).on && runs (.eventRecordWrite 1) ready,
    serving evS && (vget evS.host.lost 1).count == 0 && !(vget evS.host.rings 33).full &&
      ok (.eventRecordWrite 1) evS (fun t => (vget t.host.rings 33).prod == 2 &&
        t.out.head? == some (.memWrite 0 0x30020 [1, 2, 3, 4] [0xFFFF, 0xFFFF] ownSrc)),
    (let s : State := { evS with host := { evS.host with lost := vset evS.host.lost 1 { count := 2, first := 5, last := 6 } } }
     (vget s.host.lost 1).count != 0 && ok (.eventRecordWrite 1) s (fun t => (vget t.host.lost 1).count == 0 &&
      t.host.buf.length == 1))] = true := by decide +kernel
/-- A read of two descriptors under ID 3; a longer one. -/
def rd (due left : Nat) : State :=
  { ready with host := { ready.host with reads :=
      [(3, { addr := 0x1000, left, due, skip := 0, use := .desc 0 6 2 4, words := [], bads := [], src := 0 })] } }
/-- A write under ID 5. -/
def wrS (use : WrUse) (issues : Nat) (at_ : Option Nat) : State :=
  { ready with host := { ready.host with writes := [(5, { addr := 0x40, words := [1, 2, 3, 4], use, issues, retryAt := at_, src := 0 })] } }
theorem test_PortTransfersComplete : all [
    ready.accessible && (Tab.get? (rd 8 128).host.reads 3).isSome &&
      ok (.readData 3 [0, 1] false) (rd 8 128) (fun t => (Tab.get? t.host.reads 3).map (fun r => (r.addr, r.due, r.words.length)) ==
        some (0x1020, 6, 4)),
    ok (.readData 3 (List.replicate 8 0) false) (rd 8 256) (fun t =>
      (Tab.get? t.host.reads 3).map (fun r => (r.addr, r.left, r.due)) == some (0x1080, 128, 8) &&
      t.out == [.memRead 3 0x1080 8 0]),
    ok (.readData 3 (List.replicate 8 0) true) (rd 8 128) (fun t => t.host.fetched.map (fun f => (f.ring, f.poison)) ==
      [(0, true), (0, true)]),
    ok (.writeAcknowledge 5 false) (wrS (.cpl 16 (some 4) 0) 1 none) (fun t => Tab.getN t.host.gens 4 == 1),
    ok (.writeAcknowledge 5 true) (wrS (.cpl 16 (some 4) 0) 15 none) (fun t =>
      (Tab.get? t.host.writes 5).map (fun w => w.retryAt) == some (some 1000)),
    !lostWords [1, 2, 3, 4] && ok (.writeAcknowledge 5 true) (wrS (.event 33 0 none) 16 none) (fun t =>
      t.flt.fatal && t.host.lostCnt == 1),
    (Tab.get? (wrS (.cpl 16 (some 4) 0) 1 (some 70)).host.writes 5).map (fun w => w.retryAt) == some (some 70) &&
      ok (.writeReissue 5) (wrS (.cpl 16 (some 4) 0) 1 (some 70)) (fun t => t.elapsed == 70 && t.host.portErr == 1 &&
        t.out == [.memWrite 5 0x40 [1, 2, 3, 4] [0xFFFF, 0xFFFF] 0])] = true := by decide +kernel

/-! ## Registers with an effect of their own, and interrupts -/

/-- A state where the factory's registers are open; one in step 4 of bring-up. -/
def boot4 : State := { ready with boot := { ready.boot with step := 4, cshBase := 0x7000 } }
/-- The block in life-cycle state 1. -/
def lc1 : State := { ready with sec := { ready.sec with lc := 1 } }
theorem test_SetupRegistersComplete : all [
    mayW ready 0x00108 && (enBits 5 0xF).testBit 0 && ok (.ringEnable 0 5 0xF) ready (fun t =>
      (vget t.host.rings 0).arming && (vget t.host.rings 2).arming && !(vget t.host.rings 1).arming &&
      t.host.reads.length == 2),
    mayW (withRing 0 (fun r => { r with on := true }) ready) 0x0010C &&
      ok (.ringDisable 0 1 0xF) (withRing 0 (fun r => { r with on := true }) (holding (cmd 0 0 .held []) ready)) (fun t =>
        (vget t.host.rings 0).dis && ended t == some (.abortedDisabled, 0)),
    ok (.ringDisable 0 1 0xF) (withRing 0 (fun r => { r with arming := true }) ready) (fun t => !(vget t.host.rings 0).arming),
    mayW ready 0x00110 && ok (.eventRingEnable 0 2 0xF) ready (fun t => (vget t.host.rings 33).arming),
    (vget (withRing 33 (fun r => { r with on := true }) ready).host.rings 33).on &&
      ok (.eventRingDisable 0 0x20 0xF) (withRing 33 (fun r => { r with on := true }) ready) (fun t =>
        (vget t.host.rings 33).dis || !(vget t.host.rings 33).on),
    mayW boot4 0x00028 && ok (.callSheetGo 0 1 1) boot4 (fun t => t.boot.cshState == 1 && t.out == [.memRead 0 0x7000 4 ownSrc]),
    mayW ready 0x00028 && ready.boot.step != 4 && runs (.callSheetGo 0 1 1) ready && !(enBits 2 1).testBit 0,
    mayW ready 0x58008 && ok (.bootLock 0 1 1) ready (fun t => t.sec.lock),
    mayW lc1 0x58004 && ok (.lcRequest 0 0x4C430003 0xF) lc1 (fun t => t.sec.lcReq == some 3 && t.out == [.storeProg 3]),
    enBits 0x00000003 0xF / 2 ^ 16 != 0x4C43 && ok (.lcRequest 0 3 0xF) lc1 (fun t => t.sec.violCnt == 1 && t.sec.violKind == 1),
    mayW ready 0x38010 && runs (.firstErrorClear 0 1 1) ready,
    mayW ready 0x38030 && ready.factory && !lc1.factory && ok (.faultInjection 0 0xFF0 0xF) ready (fun t => t.flt.injReg == 0xFF0),
    ok (.faultInjection 0 0x7 0xF) { ready with flt := { ready.flt with injArg := 0x20000 } } (fun t => t.flt.injects.length == 1),
    (fltClass 0x005).isSome && ok (.faultInjection 0 0x18000051 0xF) ready (fun t =>
      t.flt.queue.map (fun x => (x.code, x.cls, x.inj)) == [(5, 3, true)]),
    mayW (runsClu 1 ready) (0x18028 + 0x80) && ok (.singleShot 0 1 0x43 1) (runsClu 1 ready) (fun t =>
      (t.cl 1).sense.urgBusy && (t.cl 1).sense.urgent.map (fun u => u.ch) == [3]),
    ok (.singleShot 0 1 0x45 1) (after (.singleShot 0 1 0x43 1) (runsClu 1 ready)) (fun t =>
      (t.cl 1).sense.urgent.map (fun u => u.ch) == [3, 5]),
    ok (.singleShot 0 1 0x61 1) (runsClu 1 ready) (fun t => (t.cl 1).sense.urgCh == 33 && !(t.cl 1).sense.urgBusy),
    mayR (runsClu 0 ready) 0x18024 && ok (.queueHeadRead 0 0) (withCl 0 (fun c => { c with sense := { c.sense with queue := [0x500000003] } })
      (runsClu 0 ready)) (fun t => t.out == [.regData 0 5] && (t.cl 0).sense.queue == []),
    mayR ready 0xF8104 && ok (.legacyDataRead 0) ready (fun t => !t.legacy.valid),
    mayW ready 0xF8100 && ok (.legacySelectWrite 0 0x12345 0xF) ready (fun t => t.legacy.sel == 0x2345)] = true := by decide +kernel
/-- The boot lock set in life-cycle state 1, with every page open to every requester, and with none. -/
def lockedAll : State := { ready with sec := { ready.sec with lc := 1, lock := true, prot := vrep 16 (vrep 8 (BitVec.allOnes 32)) } }
/-- The same with every page closed. -/
def lockedNone : State := { ready with sec := { ready.sec with lc := 1, lock := true, prot := vrep 16 (vrep 8 0) } }
/-- The Gaffer's clock stands. -/
def gafOff : State := { ready with gafClock := .asleep }
theorem test_RegisterAccessesAreScreened : all [
    accessOf (.bootLock 0 1 1) == some (0, 0x58008, true) && accessOf (.pairLoRead 0 0) == some (0, 0, false),
    (let s := { ready with pins := { ready.pins with rstN := false } }
     !s.accessible && ok (.bootLock 0 1 1) s (fun t => t == s) && ok (.pairLoRead 0 0) s (fun t => t == s)),
    (let s := { ready with stalled := [.pairLoRead 0 0] }
     ok (.bootLock 0 1 1) s (fun t => t.stalled == [.pairLoRead 0 0, .bootLock 0 1 1]) &&
       ok (.legacyDataRead 1) s (fun t => t.stalled == [.pairLoRead 0 0, .legacyDataRead 1])),
    ok (.registerWrite 0 0x58009 1 15) lockedNone (fun t => t == lockedNone) &&
      ok (.pairLoRead 0 1) lockedNone (fun t => t == { lockedNone with out := [.regData 0 0] }),
    !(lockedNone.permits 0 0x00108 true) && ok (.ringEnable 0 1 15) lockedNone (fun t =>
      t.sec.violCnt == 1 && t.sec.violId == 0 && t.sec.violKind == 1 && t.host == lockedNone.host),
    !(lockedNone.permits 3 0x31000 false) && ok (.irqVecRead 3 0) lockedNone (fun t =>
      t.sec.violCnt == 1 && t.sec.violId == 3 && t.sec.violKind == 0 && t.out == [.regData 3 0]),
    ready.permits 0 0xFFFFC true && regAt 0xFFFFC == none && ok (.registerWrite 0 0xFFFFC 1 15) ready (fun t => t == ready) &&
      ok (.pairLoRead 0 0xFFFFC) ready (fun t => t == { ready with out := [.regData 0 0] }),
    (let s := { ready with pins := { ready.pins with cells := vset ready.pins.cells 63 0 } }
     (regAt (0x18028 + 0x80 * 63)).any (fun r => s.regAbsent r) && ok (.singleShot 0 63 0x43 1) s (fun t => t == s)),
    (regAt 0x58004).any (fun r => !lockedAll.regAbsent r && lockedAll.lockedReg r) && lockedAll.permits 0 0x58004 true &&
      ok (.lcRequest 0 0x4C430003 15) lockedAll (fun t => t.sec.violCnt == 1 && t.sec.violKind == 1 && t.sec.lcReq == none),
    (regAt 0xF8104).any (fun r => !gafOff.regAwake r && !gafOff.regAbsent r) && ok (.legacyDataRead 1) gafOff (fun t =>
      t.stalled == [.legacyDataRead 1] && t.gafClock == .waking && t.out == [])] = true := by decide +kernel
/-- Source 5 pends for processor 2. -/
def pend5 : State :=
  { ready with irq := { ready.irq with src := vset ready.irq.src 5 { masked := false, pending := true, target := some 2 } } }
/-- Source 5 is in service at processor 2. -/
def serv5 : State :=
  { ready with irq := { ready.irq with src := vset ready.irq.src 5 { masked := false, insvc := some 2 } } }
/-- Source 6 is fast. -/
def fast6 (x : IrqSrc) : State := { ready with irq := { ready.irq with src := vset ready.irq.src 6 x } }
theorem test_InterruptRowsComplete : all [
    mayR ready 0x31020 && ready.irq.best 2 false == none && ok (.irqVecRead 0 2) ready (fun t => t.out == [.regData 0 0]),
    pend5.irq.best 2 false == some 5 && ok (.irqVecRead 0 2) pend5 (fun t => t.out == [.regData 0 261] &&
      (vget t.irq.src 5).insvc == some 2),
    mayR ready 0x31220 && (fast6 { cfg := 0x10001, masked := false, pending := true, target := some 2 }).irq.best 2 true == some 6 &&
      ready.irq.best 2 true == none &&
      ok (.irqFvecRead 0 2) (fast6 { cfg := 0x10001, masked := false, pending := true, target := some 2 }) (fun t =>
        t.out == [.regData 0 262]),
    mayW serv5 0x31024 && serv5.irq.firedAt 0 5 == none && ok (.irqAck 0 2 5 1) serv5 (fun t =>
      (vget t.irq.src 5).insvc == none),
    (let s := serv5.fire 5
     mayW s 0x31024 && (match s.irq.firedAt 0 5 with
      | some x => x.n == 1
      | none => false) && ok (.irqAck 0 2 5 1) s (fun t => (vget t.irq.src 5).insvc == none && (vget t.irq.src 5).pending)),
    ok (.irqAck 0 1 5 1) serv5 (fun t => (vget t.irq.src 5).insvc == some 2 && (vget t.irq.proc 1).ackBad == 1),
    mayW serv5 0x31224 && ok (.irqFack 0 2 6 1) (fast6 { cfg := 0x10001, insvc := some 2 }) (fun t =>
      (vget t.irq.src 6).insvc == none),
    ok (.irqFack 0 2 5 1) serv5 (fun t => (vget t.irq.src 5).insvc == some 2 && (vget t.irq.proc 2).fackBad == 1),
    mayW serv5 0x30440 && srcsOf 0 0x20 1 == [5] && ok (.irqPendSet 0 0 0x20 1) serv5 (fun t => (vget t.irq.src 5).lost == 1),
    ok (.irqPendSet 0 0 0x20 1) pend5 (fun t => (vget t.irq.src 5).coal == 1),
    ok (.irqPendSet 0 0 0x20 1) ready (fun t => (vget t.irq.src 5).pending),
    mayW pend5 0x30460 && ok (.irqPendClr 0 0 0x20 1) pend5 (fun t => !(vget t.irq.src 5).pending && (vget t.irq.src 5).lost == 1),
    mayW pend5 0x30400 && ok (.irqMaskSet 0 0 0x100020 0xF) pend5 (fun t => (vget t.irq.src 5).masked &&
      (vget t.irq.src 5).target == none && srcsOf 0 0x100020 0xF == [5, 20]),
    mayW pend5 0x30420 && ok (.irqMaskClr 0 7 1 1) ready (fun t => !(vget t.irq.src 224).masked),
    (let s : State := { pend5 with irq := { pend5.irq with
        src := vset pend5.irq.src 5 { cfg := 0x200001, masked := false, pending := true, target := some 2 }
        proc := vset pend5.irq.proc 2 { mod := 3, timer := some 50 } } }
     (vget s.irq.proc 2).modT == 3 && ok (.moderationTimer 2) s (fun t => t.elapsed == 350 && (vget t.irq.proc 2).expired)),
    ok (.processorIdle 2 7) ready (fun t => (vget t.irq.proc 2).pri == 7)] = true := by decide +kernel

/-! ## Ports, stores and what recurs -/

/-- A staged record at a step of its programming. -/
def nvS (step : Nat) : State :=
  { ready with nv := { ready.nv with ready := true, staged := [{ nseq := 7, kind := 1, words := List.replicate 16 9, slot := 3, replayed := false, step }] } }
/-- A word of the secure page awaits its refill. -/
def refill : State := { ready with sec := { ready.sec with refillWait := [(200, false)] } }
theorem test_PortRowsComplete : all [
    ready.accessible && ready.pins.hrstN && (let s := holding { cmd 0 0 .held [] with ctx := 1 } (ctx1 ready)
      ok .hostFunctionalReset s (fun t => !t.pins.hrstN && !t.pins.rdy && t.host.reset && (t.chan 65).fenced &&
        ended t == some (.abortedReset, 0))),
    !({ ready with supply := false } : State).accessible && runs .hostFunctionalReset { ready with supply := false },
    ready.pins.hrstN && runs .hostResetRelease ready,
    (let s : State := { ready with pins := { ready.pins with hrstN := false }, host := { ready.host with reset := true } }
     !s.resetBusy && ok .hostResetRelease s (fun t => t.pins.hrstN && !t.host.reset)),
    ok (.stampRequest 3) { ready with supply := false } (fun t => t.out == [.stamp 3 0]),
    ok (.stampRequest 3) { ready with elapsed := 5 } (fun t => t.out == [.stamp 3 (BitVec.ofNat 128 (5 * 2 ^ 64))]),
    (let s : State := { ready with buses := { ready.buses with avsAt := 400, curAt := 500, pmbAt := 600 } }
     s.pins.nReg == 1 && ok (.avsStatusPoll [0x8000]) s (fun t => t.buses.avsSt == [0x8000] && t.elapsed == 400 &&
        t.buses.avsAt == 1000400 && t.buses.avsDone) &&
      ok (.avsCurrentPoll 77) s (fun t => Tab.get? t.buses.avsCur 0 == some 77 && t.elapsed == 500) &&
      ok (.pmbusPoll ⟨⟨some 1, none, some 3, none⟩, true⟩) s (fun t => Tab.get? t.buses.pmb 0 == some ⟨some 1, none, some 3, none⟩ &&
        t.elapsed == 600 && t.out.length == 4)),
    (let s : State := { ready with buses := { ready.buses with pmbOff := [0], pmb := [(0, ⟨some 1, some 2, none, none⟩)] } }
     s.buses.pmbOff.contains s.buses.pmbNext && ok (.pmbusPoll ⟨⟨some 9, none, none, none⟩, false⟩) s (fun t =>
      Tab.get? t.buses.pmb 0 == some ⟨some 9, some 2, none, none⟩ && t.out.getLast? == some (.pmbus 0x40 0x01 [0, 0x1E]))),
    (nvS 0).nv.staged.length == 1 && (nvS 0).flt.injects == [] && ok (.nvProgram true) (nvS 0) (fun t => !t.nv.ready),
    Tab.get? (nvS 0).nv.flash 3 == none && ok (.nvProgram false) (nvS 0) (fun t =>
      t.nv.flash == [(3, { words := 9 :: List.replicate 15 erased, committed := false })]),
    ok (.nvProgram false) (nvS 1) (fun t => t.nv.flash == [(3, { words := List.replicate 16 9, committed := false })]),
    ok (.nvProgram false) (nvS 2) (fun t => t.nv.seq == 7 && t.nv.staged == [] && t.nv.flash.map (fun p => p.2.committed) == [true]),
    ready.sec.lcReq == none && runs (.lcProgramDone true) ready,
    (let s : State := { ready with sec := { ready.sec with lcReq := some 2 } }
     ok (.lcProgramDone true) s (fun t => t.sec.lc == 2 && t.sec.wiped && !t.pins.rstreqN) &&
      ok (.lcProgramDone false) s (fun t => t.sec.lc == 0 && t.sec.lcFail)),
    (ready.sec.refillWait.find? (fun p => p.1 == 200)) == none && runs (.secureWordRefill 200 true 9) ready,
    ok (.secureWordRefill 200 true 9) refill (fun t => Tab.get? t.sec.patches 200 == some 9 && t.sec.refillWait == []),
    ok (.secureWordRefill 200 false 9) refill (fun t => t.flt.fatal)] = true := by decide +kernel
/-- A cluster that takes samples, with a mapping that waits for the boundary. -/
def sampling : State :=
  let s := runsClu 0 { ready with assembled := true }
  { s with stamps := vset s.stamps 3 { chg := some (2, true, 9) } }
/-- A report has been taken. -/
def reported : State := { sampling with busDue := some 1256, elapsed := 1000, busAt := 2000 }
theorem test_RecurringRowsComplete : all [
    sampling.samples 0 && ok (.controlSample 0 0) sampling (fun t => (t.cl 0).ctl.nSample == 1 &&
      (t.cl 0).ctl.sampleAt == 32 && (vget t.stamps 3).dom == 2),
    !(withCl 1 (fun c => { c with clock := .asleep }) ready).samples 1 && !ready.boundaryWaits &&
      runs (.controlSample 1 0) (withCl 1 (fun c => { c with clock := .asleep }) ready),
    sampling.csh.isSome && sampling.busDue == none && ok .shareBusBroadcast sampling (fun t => t.busDue == some (t.elapsed + 256) &&
      (t.dm 1).rep.time == t.elapsed),
    reported.cshNew.isNone && ok .shareBusBroadcast reported (fun t => t.elapsed == 2000 && t.busDue == some 2256),
    State.reset.csh.isNone && runs .shareBusBroadcast State.reset] = true := by decide +kernel

/-! ## Power cells and the carrier -/

/-- Cell 0 of cluster 0 in RUN at 0.5 V, with a change. -/
def cellS (f : Cell → Cell) : State :=
  withCell 0 0 (fun c => f { c with st := .run, mode := .run, vref := 1000, refUv := 500000, isoOpen := false }) ready
/-- The master of cluster 0 qualified for 125 MHz. -/
def qualified : State :=
  after (.syncQualified 0 125000000) { withCl 0 (fun c => { c with carrier := { c.carrier with phFree := false } }) (cellS id) with
    sync := { hz := 125000000, ph := 0, phAt := 0 } }
theorem test_CarrierRowsComplete : all [
    ((cellS id).cl 0).master.isSome && !((cellS id).carrSet 0).syncDis && inWindow ((cellS id).carrSet 0).fsw 125000000 &&
      (qualified.cl 0).carrier.qualified && (qualified.cl 0).carrier.freqTo == hzUnits 125000000,
    !(qualified.carr 0).locked && (qualified.carr 0).qualified &&
      ok (.syncLock 0 125000000) qualified (fun t => (t.cl 0).carrier.locked),
    ok (.syncLoss 0) qualified (fun t => !(t.cl 0).carrier.qualified),
    !((cellS id).carr 0).locked && ok (.ditherStep 0) (cellS id) (fun t => (t.cl 0).carrier.m == 1)] = true := by decide +kernel
theorem test_CellDetectorsAct : all [
    ((cellS id).cell 0 0).watched && ok (.stuckSwitch 0 0 2) (cellS id) (fun t => (t.cell 0 0).st == .disabled),
    ((cellS id).cellTh 0 0).noswN == 4 && ((cellS id).cellTh 0 0).openN == 32 && ((cellS id).cellTh 0 0).senseN == 16 &&
      !((cellS id).cell 0 0).bits.senseSusp &&
      ok (.senseImplausible 0 0 16) (cellS id) (fun t => (t.cell 0 0).bits.senseSusp),
    (cellS id).cellTop 0 0 == 6 && ok (.noSwitching 0 0 4) (cellS id) (fun t => (t.cell 0 0).cause == 4) &&
      ok (.openPhase 0 0 32) (cellS id) (fun t => (t.cell 0 0).cause == 2),
    (let s := behind (.stuckSwitch 0 0 2) (cellS id)
     s.cellTop 0 0 == 1 && ok (.noSwitching 0 0 4) s (fun t => (t.cell 0 0).st == .run) &&
      ok (.openPhase 0 0 32) s (fun t => (t.cell 0 0).st == .run))] = true := by decide +kernel
theorem test_CellDetectorsAct_counts : all [
    ok (.stuckSwitch 0 0 1) (cellS id) (fun t => (t.cell 0 0).prot.stuckN == 1),
    ok (.noSwitching 0 0 3) (cellS id) (fun t => (t.cell 0 0).prot.noswN == 3),
    ok (.openPhase 0 0 31) (cellS id) (fun t => (t.cell 0 0).prot.openN == 31),
    ok (.senseImplausible 0 0 15) (cellS id) (fun t => (t.cell 0 0).prot.senseN == 15)] = true := by decide +kernel
/-- The fast paths of cell 0 changed. -/
def fastS (f : CellFast → CellFast) : State := cellS (fun c => { c with fast := f c.fast })
theorem test_FastPathsComplete : all [
    ((cellS id).cell 0 0).kickTrips ((cellS id).cellTh 0 0) 479999 &&
      ok (.kick 0 0 479999) (cellS id) (fun t => (t.cell 0 0).fast.kickOn && (t.cell 0 0).fast.nKick == 1),
    !((cellS id).cell 0 0).kickTrips ((cellS id).cellTh 0 0) 480000,
    ok (.kickEnd 0 0 0) (fastS (fun f => { f with kickOn := true, kickBy := 7 })) (fun t =>
      !(t.cell 0 0).fast.kickOn && (t.cell 0 0).fast.kickRearmAt == 39 && t.elapsed == 4),
    ok (.kickRearm 0 0) (fastS (fun f => { f with kickArmed := false, kickRearmAt := 39 })) (fun t =>
      (t.cell 0 0).fast.kickArmed && t.elapsed == 20),
    ((cellS id).cell 0 0).truncTrips ((cellS id).cellTh 0 0) 516001 &&
      ok (.truncation 0 0 516001) (cellS id) (fun t => (t.cell 0 0).fast.truncOn),
    ok (.truncationEnd 0 0 515999) (fastS (fun f => { f with truncOn := true, heldDuty := some (600, 3) })) (fun t =>
      !(t.cell 0 0).fast.truncOn && (t.cell 0 0).duty == 600 && (t.cell 0 0).frac == 3),
    ((cellS id).cell 0 0).shuntTrips ((cellS id).cellTh 0 0) 540001 &&
      ok (.shunt 0 0 540001) (cellS id) (fun t => (t.cell 0 0).fast.shuntOn),
    ok (.shuntEnd 0 0 0) (fastS (fun f => { f with shuntOn := true })) (fun t =>
      !(t.cell 0 0).fast.shuntOn && (t.cell 0 0).fast.shuntRearmAt == 50),
    ok (.shuntRearm 0 0) (fastS (fun f => { f with shuntArmed := false, shuntRearmAt := 50 })) (fun t =>
      (t.cell 0 0).fast.shuntArmed && t.elapsed == 50)] = true := by decide +kernel
/-- A word's measurements. -/
def meas : PeriodMeas := { vout := 500000, vin := 1800000, imean := 1000, cbc := false }
theorem test_OverCurrentRowsComplete : all [
    ok (.overloadTimer 0 0) (cellS (fun c => { c with prot := { c.prot with ovlSince := some 5 } })) (fun t =>
      (t.cell 0 0).prot.ovlExp && t.elapsed == 10005),
    (let s := behind (.noSwitching 0 0 4) (cellS id)
     s.cellTop 0 0 == 2 && ok (.hiccup 0 0 64) s (fun t => (t.cell 0 0).st == .run)),
    !((cellS id).cell 0 0).prot.retrying && ok (.hiccup 0 0 64) (cellS id) (fun t => (t.cell 0 0).st == .hiccup),
    ok (.hiccupHold 0 0 meas) (cellS (fun c => { c with st := .hiccup, prot := { c.prot with hiccBy := 9 } })) (fun t =>
      (t.cell 0 0).st == .start && (t.cell 0 0).prot.retrying && t.elapsed == 9),
    ok (.retryReset 0 0) (cellS (fun c => { c with prot := { c.prot with cleanSince := some 1, retry := 3 } })) (fun t =>
      (t.cell 0 0).prot.retry == 0 && t.elapsed == 100001)] = true := by decide +kernel
theorem test_CellStateRowsComplete : all [
    (cellWordOf (75303412 + 2 ^ 35)).map (fun x => (x.duty, x.frac, x.vref)) == some (500, 1, 1000) &&
      !(cellS id).pins.park && (cellS id).flt.injects == [] &&
      ok (.cellCommandWord 0 0 (75303412 + 2 ^ 35) meas) (cellS id) (fun t =>
        (t.cell 0 0).st == .run && (t.cell 0 0).duty == 500 && (t.cell 0 0).frac == 1),
    (cellS id).sheet.hdr.parkN == 64 && ok (.parkTimeout 0 0 64) (cellS (fun c => { c with safeValid := true })) (fun t =>
      (t.cell 0 0).st == .park),
    ok (.cellSelfTest 0 0 goodTest 5000 meas) (cellS (fun c => { c with st := .test })) (fun t =>
      (t.cell 0 0).st == .idle && (t.cell 0 0).pass && (t.cell 0 0).lcal == 5000),
    ok (.cellSelfTest 0 0 { goodTest with vAdc := 489999 } 5000 meas) (cellS (fun c => { c with st := .test, preBias := 7 })) (fun t =>
      (t.cell 0 0).st == .disabled && (t.cell 0 0).cause == 1 && (t.cell 0 0).preBias == 7),
    ok (.cellSelfTest 0 0 goodTest 12001 meas) (cellS (fun c => { c with st := .test })) (fun t =>
      (t.cell 0 0).st == .disabled && (t.cell 0 0).cause == 1 && (t.cell 0 0).preBias == 500000),
    ok (.startDone 0 0 500000) (cellS (fun c => { c with st := .start })) (fun t => (t.cell 0 0).st == .run),
    ok (.startTimeout 0 0 504001) (cellS (fun c => { c with st := .start, startArmed := true })) (fun t =>
      (t.cell 0 0).st == .start && (t.cell 0 0).bits.prebiasHigh),
    ok (.cellVinStop 0 0 1299) (cellS id) (fun t => (t.cell 0 0).vinStop && (t.cell 0 0).isoOpen),
    ok (.cellVinResume 0 0 1401 480000) (cellS (fun c => { c with vinStop := true, isoOpen := true })) (fun t =>
      !(t.cell 0 0).vinStop && (t.cell 0 0).softStart && (t.cell 0 0).refUv == 480000)] = true := by decide +kernel
/-- A command word of duty 500.25, reference code 1000 and a MODE, with odd parity (03 Table 3-6). -/
def modeWord (mode : Nat) (parity : Bool) : BitVec 40 :=
  BitVec.ofNat 40 (500 + 2048 + 1000 * 8192 + mode * 2 ^ 25 + (if parity then 2 ^ 35 else 0))
/-- Cell 0 in a state, and the state a word of a MODE moves it to. -/
def modeMove (a : CellState) (mode : Nat) (parity : Bool) (b : CellState) : Bool :=
  let s := cellS (fun c => { c with st := a, safeValid := true })
  s.cellTop 0 0 == 6 && ok (.cellCommandWord 0 0 (modeWord mode parity) meas) s (fun t => (t.cell 0 0).st == b)
theorem test_CellStateRowsComplete_words : all [
    modeMove .idle 1 true .start, modeMove .idle 5 false .test, modeMove .run 3 false .ballast,
    modeMove .ballast 2 true .run, modeMove .park 2 true .run, modeMove .run 4 true .park, modeMove .start 6 false .idle,
    cellWordOf (modeWord 2 false) == none && ok (.cellCommandWord 0 0 (modeWord 2 false) meas) (cellS id) (fun t =>
      (t.cell 0 0).st == .run && (t.cell 0 0).prot.missN == 1),
    ok (.cellCommandWord 0 0 (modeWord 2 false) meas)
      (cellS (fun c => { c with safeValid := true, prot := { c.prot with missN := 63 } })) (fun t =>
        (t.cell 0 0).st == .park),
    (let s := behind (.criticalTrip 0 0) (cellS id)
     s.cellTop 0 0 == 3 && ok (.hiccup 0 0 64) s (fun t => (t.cell 0 0).st == .run))] = true := by decide +kernel


/-! ## Throttle and credits -/

/-- Cell 0 of cluster 0 in RUN: domain 0 has a capacity of 40 credits. -/
def oneRun : State := runsClu 0 (cellS id)
/-- One half's accounts, and one cluster's ledger, with a change. -/
def withAcc (f : Acc → Acc) (s : State) : State := withHalf 0 0 (fun x => { x with acc := f x.acc }) s
/-- The ledger of cluster 0 with a change. -/
def withLed (f : Ledger → Ledger) (s : State) : State := withCl 0 (fun c => { c with led := f c.led }) s
/-- A REQUEST of requester 5 for 50 credits as filler; a RETURN of 6 credits under its grant 3; a DIGEST; a word of kind 9. -/
def wReq : Word64 := BitVec.ofNat 64 (5 + 50 * 256 + 2 ^ 19 + 2 ^ 60)
def wRet : Word64 := BitVec.ofNat 64 (5 + 6 * 256 + 3 * 2 ^ 19 + 2 * 2 ^ 60)
def wDig : Word64 := BitVec.ofNat 64 (5 + 4 * 256 + 10 * 4096)
def wBad : Word64 := BitVec.ofNat 64 (9 * 2 ^ 60)
/-- Requester 5 holds ten credits of grant 3. -/
def granted : State :=
  withLed (fun l => { l with grants := [(3, { req := 5, gen := 0, left := 10, filler := false, atRel := false, half := 0 })]
                             heldLo := [(5, 10)] }) oneRun
theorem test_RequesterWordsComplete : all [
    (oneRun.cl 0).inReset.isNone && wKind wReq == 1 && fld wReq.toNat 8 11 == 50 && fld wReq.toNat 20 40 == 0 &&
      oneRun.sheet.halfDom 0 (oneRun.reqHalf 0 5) == some 0 && (oneRun.cl 0).led.pend == [] && oneRun.domCap 0 == 40,
    ok (.request 0 wReq) oneRun (fun t => Tab.get? (t.cl 0).led.pend 5 == some { amt := 40, filler := true, at_ := 0 }),
    wKind wRet == 2 && fld wRet.toNat 32 28 == 0 && fld wRet.toNat 19 10 == 3 && fld wRet.toNat 29 3 == 0 &&
      Tab.wf ((granted.cl 0).led.held 0) && Tab.getN ((granted.cl 0).led.held 0) 5 == 10,
    (granted.cl 0).led.defer == [] && ok (.returnW 0 wRet) granted (fun t => Tab.getN ((t.cl 0).led.held 0) 5 == 4),
    wKind wDig == 0 && fld wDig.toNat 52 8 == 0 && fld wDig.toNat 8 4 == 4 && fld wDig.toNat 12 4 == 10 &&
      ok (.digest 0 wDig) oneRun (fun t => (t.cl 0).pred.digNow == 1 && (t.cl 0).pred.digs.length == 1),
    (let s := withCl 0 (fun c => { c with pred := { c.pred with digNow := 16 } }) oneRun
     ok (.digest 0 wDig) s (fun t => (t.cl 0).pred.digDrop == 1 && (t.cl 0).pred.digs == (s.cl 0).pred.digs)),
    wKind wBad == 9 && ok (.request 0 wBad) oneRun (fun t => (t.cl 0).led.bad == 1) && runs (.returnW 0 wBad) oneRun &&
      runs (.digest 0 wBad) oneRun,
    (let s := withCl 0 (fun c => { c with inReset := some 5 }) oneRun
     runs (.request 0 wReq) s && runs (.returnW 0 wRet) s && runs (.digest 0 wDig) s)] = true := by decide +kernel
/-- A message of an operation for domain 0 and cluster 0, and a state in which it alone is in flight. -/
def msgOf (op amt : Nat) (up : Bool) : LMsg := { up, op, dom := 0, amt, clu := 0, to_ := 3 }
def flight (m : LMsg) (f : Acc → Acc) : State := { withAcc f (withDm 0 (fun d => { d with bf := 100, owed := 4 }) ready) with msgs := [m] }
theorem test_LedgerMessagesComplete : all [
    (let m := msgOf 1 30 true; takeMsg 1 m.word (flight m id).msgs == some (m, []) && 
      ok (.borrow m.word) (flight m id) (fun t => (t.dm 0).bf == 70 && t.msgs.any (fun x => x.op == 2 && x.amt == 30))),
    (let m := msgOf 2 30 false; takeMsg 2 m.word (flight m id).msgs == some (m, []) && ready.halfOf 0 0 == some 0 &&
      ok (.give m.word) (flight m id) (fun t => t.msgs == [] && (t.half 0 0).acc.ord + (t.half 0 0).acc.res == 30)),
    (let m := msgOf 3 30 false; let s := flight m (fun a => { a with ord := 16 + 10 })
     s.sheet.s8.lendQ == 16 && takeMsg 3 m.word s.msgs == some (m, []) &&
      ok (.call m.word) s (fun t => (t.half 0 0).acc.ord == 16 && t.msgs == [{ m with op := 4, up := true, amt := 10 }])),
    (let m := msgOf 4 30 true; takeMsg 4 m.word (flight m id).msgs == some (m, []) &&
      ok (.lend m.word) (flight m id) (fun t => t.msgs == [{ m with op := 2, up := false, clu := 3 }])),
    (let m := msgOf 5 30 true; ok (.bank m.word) (flight m id) (fun t => (t.dm 0).bf == 130)),
    (let m := msgOf 6 30 false; let s := flight m (fun a => { a with ord := 12 })
     ok (.recall m.word) s (fun t => (t.half 0 0).acc.ord == 0 && (t.half 0 0).acc.debt == 18)),
    (let m := msgOf 7 30 true; ok (.withhold m.word) (flight m id) (fun t => (t.dm 0).owed == 0 && (t.dm 0).wh == 26)),
    ready.pending == [] && (ready.cl 0).led.defer == [],
    takeMsg 2 0 ready.msgs == none && runs (.give 0) ready] = true := by decide +kernel
/-- Three credits are recalled from a half that has twelve, all of them in the Gaffer's record. -/
def recalled : State := { flight (msgOf 6 3 false) (fun a => { a with ord := 12 }) with bal := vset ready.bal 0 (vset (vget ready.bal 0) 0 12) }
theorem test_CreditsAreConserved : LedgerFits recalled ∧ recalled.flt.injects = [] ∧
    ok (.recall (msgOf 6 3 false).word) recalled (fun t => credits t 0 == 112 && ownCredits t 0 0 == 9) = true ∧ credits recalled 0 = 112 ∧
    ownCredits recalled 0 0 = 12 ∧ Instr.recall (msgOf 6 3 false).word ∈ [Instr.recall (msgOf 6 3 false).word] := by
  refine ⟨?_, ?_⟩
  · unfold LedgerFits
    decide +kernel
  · decide +kernel
/-- Requester 5 of cluster 0 waits for two credits; its half has them and the budget for them. -/
def waiting : State :=
  withAcc (fun a => { a with ord := 30, b := 20 * 65536 })
    (withLed (fun l => { l with pend := [(5, { amt := 2, filler := false, at_ := 0 })] }) oneRun)
theorem test_AdmissionRoundGrants : all [
    (let u := (waiting.advanceTo ((waiting.cl 0).led.roundAt + 1)).accrue 0
     (waiting.cl 0).led.pend.length == 1 && waiting.flt.injects.isEmpty && (waiting.cl 0).led.grants.isEmpty && !(waiting.cl 0).led.sliced && !u.admitOff 0 &&
      u.reqHalf 0 5 == 0 && !u.holding 0 0 && (u.half 0 0).broll.release.isNone && decide (2 ≤ (u.half 0 0).acc.ord) &&
      (u.half 0 0).acc.res == 0 && decide (2 * 65536 ≤ (u.half 0 0).acc.b) &&
      ok (.admissionRound 0) waiting (fun t => (t.cl 0).led.pend.isEmpty && (t.cl 0).led.p == 6 &&
        (t.half 0 0).acc.ord == 28) && waiting.pending == [] && (waiting.cl 0).led.defer == []),
    (let s := behind (.returnW 0 wRet) waiting
     (s.advanceTo ((s.cl 0).led.roundAt + 1)).ledgerMore 0 6 && ok (.admissionRound 0) s (fun t =>
      (t.cl 0).led.defer == [.admissionRound 0] && (t.cl 0).led.pend.length == 1 &&
        ok (.returnW 0 wRet) { t with pending := [] } (fun u => (u.cl 0).led.defer == [] && (u.cl 0).led.pend == [])))] = true := by decide +kernel
/-- B-roll is forced. -/
def forced (s : State) : State := { s with csh := some { sheet with s8 := { sheet.s8 with force := true } } }
theorem test_LedgerAndThrottleTimersComplete : all [
    (let s := withAcc (fun a => { a with borrowBy := some 9, short := 5 }) ready
     s.sheet.halfDom 0 0 == some 0 && decide (0 < s.sheet.s8.lendQ) &&
      ok (.borrowRetry 0 0) s (fun t => (t.half 0 0).acc.borrowBy == some 265 &&
        t.msgs.map (fun m => (m.op, m.up, m.dom, m.clu)) == [(1, true, 0, 0)])),
    ok (.sliceBoundary 0) (withLed (fun l => { l with sliced := true, sliceAt := 3, served := [9] }) ready) (fun t =>
      (t.cl 0).led.served == [] && !(t.cl 0).led.sliced && (t.cl 0).led.sliceAt == 3 + ready.sheet.s8.slice * 32),
    (let s := forced (withHalf 0 0 (fun x => { x with broll := { x.broll with release := some 7, hold := true } }) ready)
     s.brollOn && ok (.brollRelease 0 0) s (fun t => t.out == [.stationsDown 0 0 (BitVec.ofNat 64 (11 * 2 ^ 60))] &&
      !(t.half 0 0).broll.hold)),
    ready.sheet.domIxs.contains 0 && ((ready.sheet.domRec 0).map (fun r => r.dtype)) == some 0 &&
      ok (.externalThrottle 100) ready (fun t => !t.pins.exthrN && (t.dm 0).thr.reason.getLsbD 6),
    decide (20 ≤ 20 ∧ 20 < 100) && decide (20 ≤ 99 ∧ 99 < 100) && decide (¬ (20 ≤ 19)) && runs (.externalThrottle 19) ready,
    ok .externalThrottleEnd (after (.externalThrottle 100) ready) (fun t => t.pins.exthrN && !(t.dm 0).thr.reason.getLsbD 6),
    (let s := withDm 0 (fun d => { d with thr := { d.thr with vfWait := some (0, 44) } }) ready
     s.sheet.s5.actuator 4 (s.demand 0 / 256) == 0 && ok (.vfStepDown 0) s (fun t => t.elapsed == 44 &&
      (t.dm 0).thr.vfWait.isNone && (t.dm 0).thr.vfCeil == 0))] = true := by decide +kernel


/-! ## The storyboard -/

/-- Shot entry: its STEP, its DUR, its profile, and whether it is CUED. -/
def shotE (step dur prof : Nat) (cued : Bool) : ShotEnt :=
  { w0 := BitVec.ofNat 64 (step + dur * 2 ^ 24), w1 := BitVec.ofNat 64 (prof + cued.toNat * 2 ^ 14), poison := false }
/-- Context 1 owns domain 0 and is ARMED; its SRAM holds the uncued shot 0 and the cued shot 1 of 100 us each. -/
def inPlan (f : Context → Context) (s : State) : State :=
  withCx 1 (fun x => f { x with st := .armed, recd := { x.recd with doms := 1, wmAddr := 0x5000 },
                                pre := [(0, shotE 70 100000 0 false), (1, shotE 71 100000 0 true)],
                                reels := [{ num := 0, sbase := 0, nshot := 2, pbase := 0, nprof := 1, fr := none }] }) s
/-- A shot that follows, with its onset. -/
def follows (i o : Nat) (at_ : Option Nat) : NextShot := { shot := some i, reel := 0, onset := some o, cueAt := at_, late := false }
/-- A played shot, with its onset and its end. -/
def playedAt (i o : Nat) (e : Option Nat) (begun : Bool) : Played :=
  { seq := 5, shot := i, step := 70, guard := 0, onset := some o, end_ := e, evaluated := false, notice := .none, flagged := none, begun }
theorem test_ShotRowsComplete : all [
    (let s := inPlan (fun x => { x with next := some (follows 0 1000 none), seq := 8 }) ready
     !s.slateWaits 1 && !(s.shot 1 0).cued && !(s.shot 1 0).poison && !s.profPoison 1 (s.shot 1 0) &&
      ok (.shotSwitch 1) s (fun t => (t.cx 1).cur == some 0 && (t.cx 1).seq == 9 && t.elapsed == 608)),
    (let s := behind (.cue 1) (inPlan (fun x => { x with next := some (follows 0 1000 none), seq := 8 }) ready)
     s.switchOf 1 == some (608, some 0, 1000) && s.uncuedSwitch 1 (608, some 0, 1000) && s.cueNext 1 &&
      ok (.shotSwitch 1) s (fun t => (t.cx 1).switchDue && (t.cx 1).cur == none && t.elapsed == 608)),
    (let s := inPlan (fun x => { x with played := [playedAt 0 900 none false] }) ready
     ok (.shotOnset 1) s (fun t => t.elapsed == 900 && (t.cx 1).played.any (fun q => q.seq == 5 && q.begun))),
    (let s := inPlan (fun x => { x with next := some (follows 1 1000 none) }) ready
     (s.shot 1 1).cued && ok (.missingCue 1) s (fun t => (t.cx 1).st == .coasting && (t.cx 1).miss == 1 && t.elapsed == 3000)),
    (let s := inPlan (fun x => { x with played := [playedAt 0 900 (some 950) true] }) ready
     ok (.shotEndEvaluation 1) s (fun t => t.elapsed == 1974)),
    (let s := inPlan (fun x => { x with wm := some (5, 70), wmDirty := true, openN := 3 }) ready
     ((s.wmAdvance 1).cx 1).wm == some (5, 70) && ((s.wmAdvance 1).cx 1).wmDirty &&
      ok (.watermarkWrite 1) s (fun t => !(t.cx 1).wmDirty && t.host.writes.any (fun e => e.2.addr == 0x5000 &&
        e.2.words == [BitVec.ofNat 64 (5 + 70 * 2 ^ 32 + 2 ^ 56 + 3 * 2 ^ 60)])))] = true := by decide +kernel
/-- A cue for STEP 71 of context 1 with a lead of 500. -/
def wCue : Word64 := BitVec.ofNat 64 (1 + 71 * 16 + 500 * 2 ^ 28)
theorem test_CueCompletes : all [
    (let s : State := { ready with pins := { ready.pins with rdy := false } }; ok (.cue wCue) s (fun t => t.cueDrop == 1)),
    (let s : State := { ready with gafClock := .asleep, cueQ := List.replicate 16 (0, 0) }
     ok (.cue wCue) s (fun t => t.cueDrop == 1 && t.cueQ.length == 16)),
    ready.pins.rdy && ready.gafClock == .running && fld (wCue.toNat + 2 ^ 44) 44 20 != 0 &&
      ok (.cue (wCue + BitVec.ofNat 64 (2 ^ 44))) ready (fun t => t.cueDrop == 1),
    fld wCue.toNat 44 20 == 0 && fld wCue.toNat 0 4 == 1 && !(ready.cx 1).plan && ok (.cue wCue) ready (fun t => t.cueDrop == 1),
    (let s : State := { ready with gafClock := .asleep }
     ok (.cue wCue) s (fun t => t.cueQ == [(wCue, 0)] && t.gafClock != .asleep)),
    (let s := inPlan (fun x => { x with armShot := some 1 }) { ready with elapsed := 300 }
     (s.shot 1 1).cued && !(s.cx 1).switchDue && (s.shot 1 1).step == fld wCue.toNat 4 24 && !(s.cx 1).leaving && !(s.cx 1).pageWait &&
      ok (.cue wCue) s (fun t => (t.cx 1).next == some { follows 1 800 (some 300) with late := false }))] = true := by decide +kernel
/-- One channel with a change. -/
def withCh (c : Nat) (f : Channel → Channel) (s : State) : State := s.modChan c f
/-- Cell 0 runs, shot 0 follows at 2000 and its forecast of 40 credits lies above the present current. -/
def rising : State :=
  inPlan (fun x => { x with next := some (follows 0 2000 none), ram := [(0, 0, { w := 40, poison := false })] })
    (withAcc (fun a => { a with ord := 50, b := 9 }) (withCh 0 (fun x => { x with st := 1 }) oneRun))
theorem test_PreparationRowsComplete : all [
    rising.pending == [] && (rising.cl 0).led.defer == [] && rising.nextPrep 0 0 == some (0, 2000, 160000) && !(rising.half 0 0).prep.on &&
      runs (.preparationStart 0 0) rising,
    ok (.stepWinExpiry 0 0) (withHalf 0 0 (fun x => { x with prep := { x.prep with on := true, key := some 0 }, acc := { x.acc with ord := 20, res := 30 } }) oneRun) (fun t =>
      !(t.half 0 0).prep.on && (t.half 0 0).acc.ord == 50 && (t.half 0 0).acc.res == 0)] = true := by decide +kernel


/-! ## Sensing and sharing -/

/-- What a frame reads: 1700 counts on channel 32. -/
def frameM : FrameMeas := { a := List.replicate 33 100, vin := 1700, bI := 100, bV := 100, pulse := 0, urg := [] }
/-- The sense part of cluster 0 with a change; its clock runs. -/
def sensing (f : Sense → Sense) : State := withCl 0 (fun c => { c with sense := f c.sense }) (runsClu 0 ready)
theorem test_SenseRowsComplete : all [
    (sensing id).senseRuns 0 && !(sensing id).redMode 0 && ok (.senseFrame 0 frameM) (sensing (fun x => { x with frameAt := 64 })) (fun t =>
      (t.cl 0).sense.frame == 1 && (t.cl 0).sense.frameAt == 96 && t.elapsed == 63 &&
        (vget (t.cl 0).sense.res 32).code == 1700 && (vget (t.cl 0).sense.res 32).hold == 40),
    (let s := withCell 0 3 (fun c => { c with st := .idle, pulse := { c.pulse with offAt := 0 } }) (sensing id)
     (s.cell 0 3).st == .idle && decide ((s.cell 0 3).pulse.offAt ≤ 10) && s.holdAt 0 50 0 19 == some 10000 &&
      s.holdAt 0 34 0 3 == some 10000),
    (let s := sensing (fun x => { x with corr := vset x.corr 1 { n := 16, sumD := 64 } })
     (s.cl 0).sense.frame % 16 == 0 && (s.cl 0).sense.volt.isNone && !(s.cl 0).sense.corr.toList.all (fun c => c.n == 0) &&
      runs (.backgroundCorrection 0) s),
    ok (.openWireTest 0) (sensing (fun x => { x with ow := { x.ow with nextAt := 70 } })) (fun t =>
      (t.cl 0).sense.ow.phase == 1 && t.elapsed == 70 && (t.cl 0).sense.ow.nextAt == 64070),
    ok (.openWirePhase 0 7) (sensing (fun x => { x with ow := { x.ow with phase := 1 }, res := vset x.res 0 { vget x.res 0 with code := 500 } })) (fun t =>
      (t.cl 0).sense.ow.phase == 2 && (t.cl 0).sense.ow.first == 500),
    opened 4 500 565 && !opened 4 500 564 &&
      ok (.openWirePhase 0 7) (sensing (fun x => { x with ow := { x.ow with phase := 2, ch := 4, first := 500 }, res := vset x.res 4 { vget x.res 4 with code := 565 } })) (fun t =>
        (t.cl 0).sense.ow.phase == 0 && (t.cl 0).sense.ow.ch == 5 && (t.cl 0).sense.open_.getLsbD 4)] = true := by decide +kernel
theorem test_SenseRowsComplete_board : all [
    ok (.boardSenseReading 2 40000) ready (fun t => vget t.board.b 2 == 32767),
    ready.board.st0 == 0 && ready.board.st1 == 0 &&
      ok (.boardSenseCheck 65 64) ready (fun t => t.board.checkAt == 1000000 && t.board.judged && t.board.st0 == 1 && t.board.st1 == 0)] = true := by decide +kernel
/-- Cluster 0 samples; its last record had the number 9. -/
def recorded : State := withCl 0 (fun c => { c with busSeq := 9, busMissRow := 1 }) sampling
theorem test_ShareBusRowsComplete : all [
    recorded.sendDue.pending == [] && (recorded.sendDue.cl 0).led.defer == [] && recorded.sendDue.samples 0 && (recorded.sendDue.cl 0).busSeq == 9 &&
      ok (.shareBusRecord 0 10) recorded (fun t => (t.cl 0).busSeq == 10 && (t.cl 0).busMissRow == 0),
    (recorded.sendDue.cl 0).busGone == 0 && !(recorded.sendDue.cl 0).gafLost &&
      ok (.shareBusRecord 0 12) recorded (fun t => (t.cl 0).busSeq == 12 && (t.cl 0).busMissRow == 4 && (t.cl 0).busMiss == 3 &&
      (t.cl 0).gafLost),
    (let s := withCl 0 (fun c => { c with gafLost := true, busGone := 2 }) recorded
     (s.sendDue.cl 0).gafLost && ok (.shareBusRecord 0 12) s (fun t => (t.cl 0).busMissRow == 1 && (t.cl 0).busMiss == 1 &&
      !(t.cl 0).gafLost)),
    (128 + 9) % 256 == 137 && ok (.shareBusRecord 0 137) recorded (fun t => (t.cl 0).busMiss == 127),
    !(recorded.cl 0).gafLost && ok (.gafferLoss 0) recorded (fun t => (t.cl 0).gafLost)] = true := by decide +kernel
/-- A swap of cluster 0 waits for slot 3. -/
def swapping : State := withCl 0 (fun c => { c with ctl := { c.ctl with swap := some (3, 500) } }) sampling
theorem test_LoopTimersComplete : all [
    swapping.swapMates 3 == [0] && swapping.swapReady 0 && swapping.samples 0 &&
      ok (.swapEffect 0) swapping (fun t => (t.cl 0).ctl.activeB && (t.cl 0).ctl.swap.isNone),
    (let s := withCell 0 0 (fun c => { c with st := .run }) swapping
     !(s.swapMates 3).all (fun m => s.swapReady m) && ok (.swapEffect 0) s (fun t => !(t.cl 0).ctl.activeB)),
    ok (.swapTimeout 0) swapping (fun t => t.elapsed == 500 && (t.cl 0).ctl.swap.isNone && !(t.cl 0).ctl.activeB),
    (let s := withDm 0 (fun d => { d with cmd := some 3 })
       (withHalf 0 0 (fun x => { x with ramp := { x.ramp with reachedAt := some 40 } }) ready)
     s.sheet.domHalves 0 == [(0, 0)] && !(s.half 0 0).ramp.done && (s.half 0 0).ramp.chg.isEmpty &&
      ok (.settleTimeout 0) s (fun t => (t.dm 0).cmd.isNone && t.elapsed == 40 + 1000 * ready.sheet.s2.settleTo)),
    (let s := withCl 0 (fun c => { c with winAt := 16 }) sampling
     winLen == 16 && ok (.continuityWindow 0) s (fun t => (t.cl 0).winAt == 0 && (t.lane 0 3).winN == 0))] = true := by decide +kernel
/-- A cell in RUN with the thresholds of its call sheet. -/
def limited : State := withCell 0 0 (fun c => { c with st := .run }) ready
theorem test_LoopTimersComplete_stage6 : all [
    (let s := limited
     let th := s.cellTh 0 0
     let duty := fun (u : Int) => (s.lane6 0 0 { (default : LaneOut) with duty5 := u * 4194304 } 0 false).duty
     th.dmin ≤ th.dmax && (s.half 0 (s.sheet.cellHalf 0 0)).dutyCeil.isNone && s.dither 0 0 == 0 &&
      rshift 22 ((4 * (th.dmin : Int) - 1) * 4194304) == 4 * (th.dmin : Int) - 1 &&
      duty (4 * (th.dmin : Int) - 1) == 4 * th.dmin && duty (4 * (th.dmin : Int)) == 4 * th.dmin &&
      duty (4 * (th.dmax : Int)) == 4 * th.dmax && duty (4 * (th.dmax : Int) + 1) == 4 * th.dmax),
    (limited.lane6 0 0 default 0 true).duty == (limited.lane 0 0).duty] = true := by decide +kernel


/-! ## Temperature and the vertical channels -/

/-- The temperature part of cluster 0 with a change. -/
def heated (f : Therm → Therm) : State := withCl 0 (fun c => { c with therm := f c.therm }) (runsClu 0 ready)
theorem test_ThermalRowsComplete : all [
    (heated id).thRuns 0 && ok (.thermalSample 0) (heated (fun x => { x with nextAt := 70 })) (fun t =>
      t.elapsed == 70 && (t.cl 0).therm.dueAt == some 2070 && (t.cl 0).clock == .running),
    (let s := heated (fun x => { x with dueAt := some 900, sens := vrep 8 { broken := true } })
     ok (.thermalSampleDelivered 0 []) s (fun t => (t.cl 0).therm.dueAt.isNone && t.elapsed == 900 && (t.cl 0).therm.allBad &&
      (t.cl 0).therm.tMax == 16 * (ready.sheet.tLimits 0).thr)),
    (let s := heated (fun x => { x with ageRef := 32768, aPrev := 16, ageAt := 55 })
     s.gafClock == .running && slowdown 32751 32768 32768 == some 34 && ok (.ageingMeasurement 0 32751 32768) s (fun t =>
      (t.cl 0).therm.a == 34 && (t.cl 0).therm.aPrev == 34 && t.elapsed == 55)),
    -- 0.75 V at D = 1/4, 125 MHz and 5 nH ripples by 0.3 A, and 0.1 mV under it is 3 uF
    (let s := withCl 0 (fun c => { c with capAt := 255000000 })
       (withCell 0 1 (fun c => { c with st := .run, duty := 512, lcal := 5000 })
         (withCl 0 (fun c => { c with cells := vrep 16 { st := .disabled } }) sampling))
     let u := s.advanceTo 255000000
     s.samples 0 && u.capCells 0 (max 1 (fld s.vrtCfg.toNat 24 8) * 1000000) 2 == [1] && (u.capOf 0 1 100000).2 == u &&
      ok (.capacitanceEstimate 0 [(9, 9), (100000, 200)]) s (fun t => (vget (t.cl 0).caps 1).cRef == 30000 &&
        (vget (t.cl 0).caps 1).fRes == 200 && (vget (t.cl 0).caps 0).cRef == 0 && t.elapsed == 255000000))] = true := by decide +kernel
theorem test_CriticalTripParks : all [
    !(vget (ready.cl 0).therm.sens 2).elec && !ready.trip && runs (.criticalTrip 0 2) ready,
    (let s := heated (fun x => { x with sens := vset x.sens 2 { elec := true } })
     (vget (s.cl 0).therm.sens 2).elec && ok (.criticalTrip 0 2) s (fun t => !t.trip)),
    runs (.criticalTrip 0 2) { ready with trip := true }] = true := by decide +kernel
/-- Channel 0 in a state, with one read of a profile entry. -/
def chanS (st : Nat) : State :=
  let s := runsClu 0 ready
  { s with ch := vset s.ch 0 { vget s.ch 0 with st, recalAt := 40, group := 8, jobs := [.prof 1 9] } }
theorem test_ChannelRowsComplete : all [
    ((chanS 0).chan 0).st == 0 && (((chanS 0).cl 0).inReset.isNone || (chanS 0).chanClock 0) &&
      ok (.channelTraining 0 true [⟨10, 8⟩]) (chanS 0) (fun t => (t.chan 0).st == 1 && (t.chan 0).group == 0 && vget (t.chan 0).delay 0 == 14) &&
      ok (.channelTraining 0 false []) (chanS 0) (fun t => (t.chan 0).st == 3 && (t.chan 0).jobs == []),
    (chanS 1).flt.injects.isEmpty && ((chanS 1).chan 0).corrs.isEmpty && ((chanS 1).chan 0).jobs == [.prof 1 9] &&
      ok (.channelRead 0 { okLine with poison := 3 }) (chanS 1) (fun t => (t.chan 0).uncorr == 3) &&
      ok (.channelRead 0 { okLine with strobe := false }) (chanS 1) (fun t => (t.chan 0).caErr == 1 && (t.chan 0).uncorr == 8),
    (let s := withCl 0 (fun c => { c with clock := .asleep }) (chanS 1)
     !s.chanClock 0 && ok (.recalibration 0 []) s (fun t => (t.chan 0).group == 8)),
    !(chanS 1).chanOff 0 && !((chanS 1).chan 0).fenced && (chanS 1).chanClock 0 &&
      (let s := { chanS 1 with ch := vset (chanS 1).ch 0 { vget (chanS 1).ch 0 with jobs := [] } }
       (s.chan 0).jobs == [] && (s.chan 0).failAt != some 40 && decide ((s.chan 0).group < 9) &&
        ok (.recalibration 0 [⟨10, 8⟩]) s (fun t => (t.chan 0).group == 0 && t.elapsed == 40 && vget (t.chan 0).delay 80 == 1)),
    ok (.scrub 0 [3, 3] []) (chanS 1) (fun t => (t.chan 0).corr == 2),
    ok .vudcLoss (chanS 1) (fun t => (t.chan 5).st == 3 && (t.chan 5).vudcLost)] = true := by decide +kernel


/-! ## The slate port -/

/-- With no command waiting, a slate event is alone in its word clock. -/
theorem test_alone (s : State) (h : s.slt.defer = []) (hp : s.pending = []) : Alone s := by
  refine ⟨h, fun t => ?_⟩
  have e : (s.advanceTo t).pending = [] := by
    unfold State.advanceTo
    split <;> simp [State.advance, hp]
  unfold State.slateMore
  rw [e]
  rfl
/-- A member of the tree whose port 0, to its parent, and port 1, to a child, are UP; slate time runs 40 ns behind. -/
def tree (f : Slate → Slate) : State :=
  withSlt f (withPort 0 (fun p => { p with st := 2 }) (withPort 1 (fun p => { p with st := 2, child := true, incl := true })
    (inRole 1 { ready with elapsed := 500000 })))
/-- Nothing waits in it. -/
def lone (s : State) : Bool := s.slt.defer.isEmpty && s.pending.isEmpty
theorem test_BadMarkersAreCounted : all [
    lone (tree id) && (vget (tree id).slt.ports 1).st == 2 && mkCheck kArrive 5 != mkCheck kArrive 5 + 1 &&
      ok (.mkArrive 1 5 (mkCheck kArrive 5 + 1)) (tree id) (fun t => t.slt.mkErr == 1),
    (tree id).faceChild 1 && !(tree id).faceChild 0 && ok (.mkTime 1 5 (mkCheck kTime 5)) (tree id) (fun t => t.slt.mkErr == 1) &&
      ok (.mkPing 0 5 (mkCheck kPing 5) 3) (tree id) (fun t => t.slt.mkErr == 1) &&
      ok (.mkCount 0 5 (mkCheck kUp (ctrlPay 2 5))) (tree id) (fun t => t.slt.mkErr == 1) &&
      ok (.mkStart 1 5 (mkCheck kDown (ctrlPay 6 5))) (tree id) (fun t => t.slt.mkErr == 1),
    (let s := withPort 1 (fun p => { p with last := some (mkWord kArrive 5, 499984) }) (tree id)
     decide (s.elapsed ≤ 499984 + 16) && ok (.mkArrive 1 5 (mkCheck kArrive 5)) s (fun t => t.slt.mkErr == 0 &&
      (vget t.slt.ports 1).arrived.isNone && !t.slt.open_))] = true := by decide +kernel
theorem test_MarkersFromChildrenComplete : all [
    (let s := withPort 2 (fun p => { p with incl := true }) (tree id)
     lone s && (vget s.slt.ports 1).last.isNone && decide (s.slt.lastFwd ≤ s.elapsed) &&
      ok (.mkArrive 1 5 (mkCheck kArrive 5)) s (fun t => t.slt.open_ && (vget t.slt.ports 1).arrived.isSome)),
    ok (.mkArrive 1 5 (mkCheck kArrive 5)) (tree (fun x => { x with lastFwd := 500001 })) (fun t => t.slt.raceCnt == 1 &&
      (vget t.slt.ports 1).arrived.isNone),
    (tree id).slt.disc == 0 && ok (.mkCount 1 12 (mkCheck kUp (ctrlPay 2 12))) (tree id) (fun t => (vget t.slt.ports 1).sub == 12) &&
      ok (.mkCountOver 1 0 (mkCheck kUp (ctrlPay 3 0))) (tree id) (fun t => (vget t.slt.ports 1).overrun) &&
      ok (.mkReach 1 77 (mkCheck kUp (ctrlPay 4 77))) (tree id) (fun t => (vget t.slt.ports 1).reach == some 77),
    ok (.mkJoin 1 3 (mkCheck kUp (ctrlPay 7 3))) (tree (fun x => { x with open_ := true })) (fun t =>
      (vget t.slt.ports 1).joinWait == some 3),
    (let s := withPort 1 (fun p => { p with sub := 9 }) (inRole 2 (tree (fun x => { x with n := 10, joined := true })))
     s.role == 2 && s.faceChild 1 && ok (.mkLeave 1 3 (mkCheck kUp (ctrlPay 9 3))) s (fun t => (vget t.slt.ports 1).sub == 6 &&
      t.slt.nPend == some 7)),
    ok (.mkPing 1 5 (mkCheck kPing 5) 351) (tree id) (fun t => t.out == [.marker 1 (mkWord kEcho (BitVec.ofNat 16 (5 + 256 * 255)))])] = true := by decide +kernel
theorem test_MarkersFromParentComplete : all [
    (let s := tree (fun x => { x with joined := true, open_ := true, upSent := true })
     lone s && s.inTree && (vget s.slt.ports 0).last.isNone && ok (.mkRelease 0 5 (mkCheck kRelease 5)) s (fun t => !t.slt.open_) &&
      ok (.mkAbort 0 5 (mkCheck kAbort 5)) s (fun t => !t.slt.open_ && t.slt.abortCnt == 0)),
    ok (.mkTime 0 5 (mkCheck kTime 5)) (tree id) (fun t => t.slt.time.tickAt == 500000 && t.slt.time.missing == 0),
    ok (.mkEcho 0 0x0209 (mkCheck kEcho 0x0209) 900) (tree (fun x => { x with time := { x.time with pingOut := some (9, 500300) } }))
      (fun t => t.slt.time.pingOut.isNone && t.slt.time.flights == [704]),
    ok (.mkEnum 0 9 (mkCheck kDown (ctrlPay 1 9))) (tree id) (fun t => t.slt.level == 8),
    ok (.mkSize 0 40 (mkCheck kDown (ctrlPay 5 40))) (tree id) (fun t => t.slt.nNext == some 41),
    ok (.mkStart 0 0 (mkCheck kDown (ctrlPay 6 0))) (tree (fun x => { x with nNext := some 41 })) (fun t => t.slt.disc == 2 &&
      t.slt.n == 41 && t.slt.relay),
    (let s := tree (fun x => { x with join := some (0, 500900) })
     ok (.mkStart 0 0 (mkCheck kDown (ctrlPay 6 0))) s (fun t => t.slt.joined) &&
      ok (.mkAdmit 0 0 (mkCheck kDown (ctrlPay 8 0))) s (fun t => t.slt.joined && t.slt.join.isNone)),
    ok (.mkDetach 0 0 (mkCheck kDown (ctrlPay 10 0))) (tree (fun x => { x with joined := true })) (fun t => t.slt.lost && !t.slt.joined &&
      !(vget t.slt.ports 1).incl),
    ok (.mkDissolve 0 0 (mkCheck kDown (ctrlPay 11 0))) (tree (fun x => { x with joined := true })) (fun t => !t.slt.joined &&
      !t.slt.lost)] = true := by decide +kernel
/-- A joined chip whose context 1 plays the SLATE shot of SEQ 5, with its onset at 600000. -/
def toSend (k : Nat) : State :=
  withCx 1 (fun x => { x with st := .armed, cur := some 0, pre := [(0, { shotE 70 1000 0 false with w1 := 2 ^ 16 })]
                              played := [playedAt 0 600000 none false] }) (tree (fun x => { x with joined := true, ctx := 1, skips := k }))
theorem test_SlateTimersComplete : all [
    (let s := withPort 3 (fun p => { p with exch := 64, st := 1 }) { tree id with pins := { (tree id).pins with sltCon := 0xF } }
     lone s && s.portOn 3 && s.pins.rdy && ok (.laneUp 3 ⟨5000, true⟩) s (fun t => (vget t.slt.ports 3).st == 2 &&
      (vget t.slt.ports 3).child && (vget t.slt.ports 3).flight == 4095)),
    ok (.laneDown 0) (tree id) (fun t => (vget t.slt.ports 0).st == 1 && !t.slt.time.locked),
    (tree id).role == 1 && ok .pingInterval (tree id) (fun t => t.slt.time.pingSeq == 1 && t.slt.time.pingOut == some (0, 501000) &&
      t.out == [.marker 0 (mkWord kPing 0)]),
    ok .pingTimeout (tree (fun x => { x with time := { x.time with pingOut := some (9, 500300) } })) (fun t => t.elapsed == 500300),
    (let s := tree (fun x => { x with time := { x.time with locked := true, tickAt := 499000 } })
     s.slateLocked && s.role == 1 && ok .tickMissing s (fun t => t.elapsed == 503096 && t.slt.time.missing == 1)),
    (toSend 0).slt.joined && (toSend 0).slt.ready.isNone && (toSend 0).slt.own.isNone && (toSend 0).slateDue == some (5, 600000, 500000) &&
      ok .arriveSend (toSend 0) (fun t => t.slt.sentFor == some 5),
    (toSend 2).slateDue == some (5, 600000, 500000) && ok .arriveSend (toSend 2) (fun t => t.slt.skips == 1 && t.slt.skipCnt == 1),
    ok .slateReleaseInstant (tree (fun x => { x with rel := some 500100, nNext := some 7 })) (fun t => t.elapsed == 500100 &&
      t.slt.rel.isNone && t.slt.n == 7 && (t.cl 0).led.p == 0),
    ok .slateTimeout (inRole 2 (tree (fun x => { x with ready := some 400000, open_ := true }))) (fun t => !t.slt.open_ &&
      t.slt.abortCnt == 1),
    ok .localTimeout (tree (fun x => { x with ready := some 400000, open_ := true, joined := true })) (fun t => t.slt.lost),
    ok .joinTimeout (tree (fun x => { x with join := some (0, 500900) })) (fun t => t.slt.join.isNone && t.elapsed == 500900)] = true := by decide +kernel
/-- The root's slate is open with its own READY at 400000; an ARRIVE of port 1 is the next command. -/
def racing : State :=
  { inRole 2 (tree (fun x => { x with ready := some 400000, open_ := true })) with pending := [.mkArrive 1 5 (mkCheck kArrive 5)] }
theorem test_SlateEventsInOrder : all [
    racing.abortAt == some (400000 + ready.sheet.s9.sltTo * 1000) && racing.slt.defer.isEmpty &&
      ok .slateTimeout racing (fun t => t.slt.defer == [.slateTimeout] && t.slt.open_)] = true := by decide +kernel


/-! ## Domains, supply, faults and records -/

/-- Domain 0 with the steps of its header staging; every cell of it in RUN. -/
def staged (f : Staging → Staging) : State :=
  withDm 0 (fun d => { d with
    stages := 3, stg := some (f { closing := true, cmd := none, waitRun := false, runBy := 90, nextAt := none, waitBy := none
                                  settleBy := none, case_ := 0, paused := false, froze := [] }) })
    (withCl 0 (fun c => { c with cells := vrep 16 { st := .run, mode := .run } }) ready)
theorem test_DomainStagesComplete : all [
    (let s := withDm 0 (fun d => { d with cmd := some 0 }) (withHalf 0 0 (fun x => { x with ramp := { x.ramp with done := true } })
      (holding { cmd 2 (uDom 0) .dispatched [] with parts := [0] } ready))
     s.domSettled 0 && (s.dm 0).cmd == some 0 && ok (.setpointSettled 0) s (fun t => ended t == some (.done, 0) && (t.dm 0).cmd.isNone)),
    !ready.trip && ok (.headerStage 0) (staged (fun g => { g with nextAt := some 77 })) (fun t => (t.dm 0).stages == 4 && t.elapsed == 77),
    !ready.vin.dip && ok (.headerStage 0) (staged (fun g => { g with nextAt := some 77, closing := false })) (fun t =>
      (t.dm 0).stages == 2 && t.elapsed == 77),
    ok (.nbWaitExpiry 0) (staged (fun g => { g with waitBy := some 60 })) (fun t => t.elapsed == 60 && !(t.dm 0).nbWait),
    (let s : State := { staged id with boot := { ready.boot with step := 7, waves := [[0], [1]] } }
     !s.boot.waitVin && s.boot.inWave.isEmpty && s.allRun 0 && ok .waveStart s (fun t => t.boot.wave == 1 && t.boot.waves == [[1]] &&
      t.boot.inWave == [0])),
    (let s : State := { staged (fun g => { g with settleBy := some 50 }) with boot := { ready.boot with inWave := [0] } }
     ok (.waveSettleExpiry 0) s (fun t => (t.dm 0).stg.isNone && t.elapsed == 50)),
    (let s := withCell 0 4 (fun c => { c with st := .start }) (staged (fun g => { g with waitRun := true }))
     !s.allRun 0 && ok (.domainOnTimeout 0) s (fun t => (t.dm 0).heldOff && t.elapsed == 90)),
    ok (.cellsModeOff 0) (staged (fun g => { g with settleBy := some 50, closing := false })) (fun t => !(t.dm 0).on &&
      (t.dm 0).modeOff && (t.cell 0 15).mode == .off && !(t.cell 0 15).st.switching)] = true := by decide +kernel
/-- The thresholds of VIN in force, and a state of the supply's watch. -/
def vinS (f : Vin → Vin) : State := { ready with vin := f { ready.vin with thr := some (1720, 30, 1550, 50) } }
theorem test_VinRowsComplete : all [
    (vinS id).vinWarnMv == 1720 && (vinS id).vinResetMv == 1550 && (vinS id).vinOkMv == 1750 &&
      ok (.vinWarning 1720) (vinS id) (fun t => !t.vin.dip && t.vin.mv == 1720),
    ok (.vinWarning 1550) (vinS id) (fun t => t.vin.dip && t.vin.frozen && t.vin.dips == 1 && t.vin.minMv == 1550),
    !(vinS id).vin.rstreq && runs (.vinReset 1549) (vinS id) && runs (.vinWarning 1549) (vinS id),
    ok (.vinRecovery 1751) (vinS (fun v => { v with dip := true, long := true, frozen := true })) (fun t => !t.vin.dip &&
      !t.vin.frozen && t.vin.okBy == some 1000000),
    (let s := behind (.vinRecovery 1751) (vinS (fun v => { v with dipBy := some 50 }))
     decide (s.vinOkMv < 1751) && ok .longDip s (fun t => !t.vin.long && t.elapsed == 50 && t.vin.dipBy == some 50)),
    ok .longDip (vinS (fun v => { v with dipBy := some 50 })) (fun t => t.vin.long && t.elapsed == 50 && t.vin.vcut == 192),
    ok .vcutRestore (vinS (fun v => { v with okBy := some 50, long := true })) (fun t => !t.vin.long && t.vin.vcut == 256)] = true := by decide +kernel
/-- A raise of a WARN fault of cluster 0, and a state of the fault collector. -/
def raised : Raise :=
  { code := 0x01F, cls := 2, sc := .unit (uClu 0), inj := false, detail := 0, addr := 0, master := 0, acc := 0, time := 4, first := false }
def fltS (f : Faults → Faults) : State := { ready with flt := f ready.flt }
/-- A merge of the same code and scope. -/
def merging (k : Nat) : Merge := { code := 0x01F, sc := .unit (uClu 0), at_ := 0, count := k, last := raised }
theorem test_FaultAndResetRowsComplete : all [
    ((fltS (fun f => { f with queue := [raised] })).flt.merges.find? (fun m => m.code == 0x01F)).isNone &&
      ok .faultRecord (fltS (fun f => { f with queue := [raised], fseq := 9 })) (fun t => t.flt.queue.isEmpty && t.flt.fseq == 10),
    ok .faultRecord (fltS (fun f => { f with queue := [raised], merges := [merging 2] })) (fun t => t.flt.queue.isEmpty &&
      t.flt.merges == [merging 3]),
    ok (.mergeExpiry 0x01F (.unit (uClu 0))) (fltS (fun f => { f with merges := [merging 2] })) (fun t => t.elapsed == ready.mergeNs &&
      t.flt.fseq == ready.flt.fseq + 1),
    ok (.correctedFaultClose 0x01F (.unit (uClu 0))) (fltS (fun f => { f with opens := [{ code := 0x01F, cls := 2, sc := .unit (uClu 0), last := 5 }] }))
      (fun t => t.flt.opens.isEmpty && t.elapsed == 5 + ready.mergeNs),
    ok (.clusterResetRelease 0) (withCl 0 (fun c => { c with inReset := some 40, led := { c.led with heldLo := [(5, 3)] } }) ready)
      (fun t => (t.cl 0).resetRel && (t.cl 0).clock == .waking && (t.cl 0).led.heldLo.isEmpty && t.elapsed == 3040),
    ok (.quietEnd 0) (withLed (fun l => { l with quietBy := some 70 }) ready) (fun t => (t.cl 0).led.quietBy.isNone && t.elapsed == 70),
    (let s : State := { ready with nv := { ready.nv with
       ready := true, next := 24, flash := [(32, { words := [], committed := true }), (70, { words := [], committed := true })] } }
     s.nv.pos % 32 == 24 && s.nv.flash.any (fun q => q.1 / 32 == (s.nv.pos / 32 + 1) % 16) &&
      ok .sectorErase s (fun t => t.nv.erasing && t.nv.sector == 1) &&
      ok .sectorEraseDone (after .sectorErase s) (fun t => !t.nv.erasing && t.nv.flash.map (fun q => q.1) == [70]))] = true := by decide +kernel

/-! ## Bring-up, resets and sleep -/

/-- Bring-up stands at a step. -/
def bootS (k : Nat) (s : State) : State :=
  { s with boot := { s.boot with step := k, halt := false }, pins := { s.pins with rdy := false } }
/-- A secure page. -/
def pageOk : SecStore :=
  { readable := true, crcOk := true, tCrit := 2000, soaVmax := 3800, devId := 5, lc := 0, clus := [], cellTrim := [] }
/-- A call-sheet image without sections: cluster 0 feeds domain 0. Its CRC lies in word 2. -/
def imageOf (crc : Nat) : List Word64 :=
  [0x0301_5A43_5348, 112 + 2 ^ 32 + 2 ^ 39 + 2 ^ 47, BitVec.ofNat 64 crc, 0, 0, 64 + 72 * 2 ^ 16 + 104 * 2 ^ 32, 0, 0, 0xFFFF * 64,
   BitVec.ofNat 64 (700 * 2 ^ 10 + 3000 * 2 ^ 22 + 1000 * 2 ^ 34 + 900 * 2 ^ 46), 640 + 100 * 2 ^ 16, 0xFFF, 0, 3 * 64]
/-- Bring-up waits for the checks of that image. -/
def toAccept (poison : Bool) : State :=
  let s := bootS 4 { ready with csh := none }
  { s with boot := { s.boot with cshState := 1, cshImg := some (imageOf 2300694757, poison) } }
theorem test_BringupRowsComplete : all [
    (bootS 1 ready).atStep 1 && ok (.bringupVinReady [1900]) (bootS 1 ready) (fun t => t.boot.step == 2) &&
      ok (.bringupVinReady [1900]) { bootS 1 ready with trip := true } (fun t => t.boot.halt && t.boot.step == 1),
    ok (.nvReplay (.found (2 ^ 24 + 65536) 0x21)) (bootS 2 ready) (fun t => t.boot.step == 3 && t.nv.ready && t.nv.addr4 &&
      t.nv.base.toNat == 2 ^ 24 && t.nv.eraseOp == 0x21),
    decide (ready.pins.tamperBy ≤ ready.elapsed) && ready.sec.page.isNone && secLimitsOk pageOk &&
      ok (.securePageFill pageOk false) (bootS 3 ready) (fun t => t.boot.step == 4 && t.sec.tCrit == 2000) &&
      ok (.securePageFill { pageOk with crcOk := false } false) (bootS 3 ready) (fun t => t.boot.halt && t.boot.step == 3),
    (toAccept false).atStep 4 && !(toAccept false).cshReading && (toAccept false).cshJudge.isOk && runs .callSheetAccepted (toAccept false),
    ok .callSheetAccepted (toAccept true) (fun t => t.boot.halt && t.boot.cshCheck == 1 && t.boot.cshState == 3),
    (let s := bootS 5 (withCl 0 (fun c => { c with woke := false }) ready)
     s.atStep 5 && (s.sheet.cluRec 0).isSome && !(s.sheet.allCells 0).any (fun k => (s.cell 0 k).st == .test) &&
      runs (.clusterWakeReport 0 { phase1 := [], phase2 := [], temps := [], marchFail := none }) s),
    (bootS 6 ready).atStep 6 && runs .treeAssembly (bootS 6 ready),
    (let s : State := withCh 0 (fun x => { x with st := 1 }) ready
     !s.chanOff 0 && !s.up.cleared.getLsbD 0 && ok (.upperDieClear 0) s (fun t => t.up.cleared.getLsbD 0)),
    (let s := bootS 8 ({ ready with up := { ready.up with cleared := BitVec.allOnes 65 } } : State)
     s.atStep 8 && s.allCleared && s.mayBeReady && !s.host.reset && ok .ready s (fun t => t.pins.rdy && t.boot.step == 9))] = true := by decide +kernel
theorem test_ResetRowsComplete : all [
    ready.vaon && runs (.powerUp false) ready && runs (.powerLoss false) ready && runs (.powerLoss true) ready,
    ready.supply && ready.pins.rstN && runs .blockReset ready,
    runs (.blockResetRelease true) { ready with pins := { ready.pins with rstN := false } },
    ok (.tamper 100) ready (fun t => t.sec.tamper && t.sec.page.isNone && t.pins.tamperBy == 100) &&
      ok (.tamper 99) ready (fun t => !t.sec.tamper)] = true := by decide +kernel
/-- Cluster 0 is idle since the start; every other cluster sleeps. -/
def idleClu : State := withCl 0 (fun c => { c with idleSince := some 30 }) (sampling)
theorem test_SleepRowsComplete : all [
    idleClu.samples 0 && idleClu.cluIdle 0 && ok (.clusterSleep 0) idleClu (fun t => (t.cl 0).clock == .asleep &&
      (t.cl 0).idleSince.isNone),
    (let s : State := { State.reset with boot := { State.reset.boot with step := 9 }, gafIdle := some 30 }
     s.gafClock == .running && s.accessible && s.gafQuiet && ok .gafferSleep s (fun t => t.gafClock == .asleep && t.gafIdle.isNone)),
    ok (.wake (.clu 0)) (withCl 0 (fun c => { c with clock := .asleep }) ready) (fun t => (t.cl 0).clock == .waking &&
      (t.cl 0).wakeBy == 2000),
    ok (.wake .gaf) { ready with gafClock := .asleep } (fun t => t.gafClock == .waking),
    (let s := withCl 0 (fun c => { c with clock := .waking }) ready
     (s.cl 0).inReset.isNone && s.stalled.isEmpty && ok (.clockRunning (.clu 0)) s (fun t => (t.cl 0).clock == .running &&
      (t.cl 0).sense.frameAt == 64)),
    ok (.clockRunning .gaf) { ready with gafClock := .waking } (fun t => t.gafClock == .running && t.cueQ.isEmpty),
    (let s : State := { ready with gafClock := .asleep }
     (regAt 0).isSome && (match regAt 0 with
       | some r => !s.regAbsent r && !s.regAwake r && !s.lockedReg r
       | none => false) && s.permits 0 0 true && s.permits 0 0 false &&
      ok (.pairLoRead 0 0) s (fun t => t.stalled == [.pairLoRead 0 0] && t.out.isEmpty) &&
      ok (.registerWrite 0 0 5 15) s (fun t => t.stalled == [.registerWrite 0 0 5 15])),
    (let s : State := { ready with gafClock := .waking, stalled := [.pairLoRead 0 0] }
     s.cueQ.isEmpty && ok (.clockRunning .gaf) s (fun t => t.stalled.isEmpty && t.out.length == 1)),
    ok (.wakeFailure 0) (withCl 0 (fun c => { c with clock := .waking, wakeBy := 2000 }) ready) (fun t =>
      (t.cl 0).wakeFails == 1 && t.elapsed == 2000 && (t.cl 0).wakeBy == 4000)] = true := by decide +kernel


/-! ## What rows leave unchanged -/

theorem test_EachUnitKeepsItsOwnState : all [
    ok (.wake .gaf) ready (fun t => t.csh == ready.csh && t.busAt == ready.busAt && t.boot == ready.boot),
    runs (.ditherStep 0) (cellS id)] = true := by decide +kernel
theorem test_CellRowsStayInTheirCluster : all [
    runs (.cellVinStop 0 0 0) (cellS id) && runs (.cellVinResume 0 0 0 0) (cellS id) && runs (.syncLoss 0) qualified &&
      runs (.truncation 0 0 516001) (cellS id) && runs (.truncationEnd 0 0 0) (cellS id) && runs (.shunt 0 0 540001) (cellS id) &&
      runs (.startDone 0 0 0) (cellS id),
    runs (.syncQualified 0 125000000) (cellS id) && runs (.syncLock 0 125000000) qualified,
    runs (.kickEnd 0 0 0) (cellS id) && runs (.kickRearm 0 0) (cellS id) && runs (.shuntEnd 0 0 0) (cellS id) &&
      runs (.overloadTimer 0 0) (cellS id) && runs (.hiccupHold 0 0 meas) (cellS id) && runs (.retryReset 0 0) (cellS id) &&
      runs (.shuntRearm 0 0) (cellS id) && runs (.openWireTest 0) (sensing id) && runs (.sliceBoundary 0) ready &&
      runs (.stepWinExpiry 0 0) ready] = true := by decide +kernel
theorem test_OtherRowsStayInTheirUnit : all [
    ([.borrow 0, .call 0, .lend 0, .recall 0, .give 0, .bank 0, .withhold 0] : List Instr).all (fun i => runs i ready),
    runs (.mkEcho 0 0 0 0) (tree id) && runs (.laneUp 0 ⟨0, true⟩) (tree id) && runs (.mkPing 1 0 0 0) (tree id),
    lone (tree id) && runs (.mkSize 0 0 0) (tree id) && runs (.mkJoin 1 0 0) (tree id) && runs (.mkLeave 1 0 0) (tree id),
    ready.permits 0 0x31000 true && ([.irqAck 0 0 0 15, .irqFack 0 0 0 15, .irqPendSet 0 0 0 15, .irqPendClr 0 0 0 15,
      .irqMaskSet 0 0 0 15, .irqMaskClr 0 0 0 15, .processorIdle 0 0, .moderationTimer 0] : List Instr).all (fun i => runs i ready),
    ([.doorbell 0 0 0, .descriptorDecode, .commandDispatch 0, .completionRecord 0, .eventRecordWrite 0, .sectorErase,
      .avsStatusPoll [], .avsCurrentPoll 0, .pmbusPoll ⟨⟨none, none, none, none⟩, true⟩] : List Instr).all (fun i => runs i ready)] = true := by decide +kernel
theorem test_DispatchLeavesOtherUnitsAlone : all ((List.range 26).map (fun k =>
    let s := sel k (uDom 0) [0, 0, 0, 0]
    at0 s k .selected && (match (opRows 0)[k]? with
      | some p => decide (p.2 = k) && runs p.1 s
      | none => false))) = true := by decide +kernel
theorem test_TimerRowsStayInTheirUnit : all [
    ok (.kick 0 0 479999) (cellS id) (fun t => (t.cell 0 0).fast.kickOn) && runs (.gafferLoss 0) (cellS id),
    ok (.senseImplausible 0 0 16) (cellS id) (fun t => (t.cell 0 0).bits.senseSusp),
    ((cellS id).cl 0).ctl.swap.isNone &&
      (withCl 0 (fun c => { c with ctl := { c.ctl with swap := some (3, 7) } }) ready).swapMates 3 == [0] &&
      ok (.swapTimeout 0) (withCl 0 (fun c => { c with ctl := { c.ctl with swap := some (3, 7) } }) ready) (fun t =>
        (t.cl 0).ctl.swap.isNone && t.elapsed == 7),
    ([.thermalSample 0, .request 0 0, .digest 0 0, .borrowRetry 0 0, .swapEffect 0, .shotEndEvaluation 0, .shotOnset 0,
      .watermarkWrite 0, .pingInterval, .pingTimeout, .timeTick, .joinTimeout, .slateReleaseInstant, .externalThrottle 100,
      .externalThrottleEnd, .ageingMeasurement 0 1 1, .vfStepDown 0, .setpointSettled 0, .settleTimeout 0] : List Instr).all
        (fun i => runs i ready),
    ([.cellsModeOff 0, .waveSettleExpiry 0, .scrub 0 [] [], .mergeExpiry 1 (.unit 0), .correctedFaultClose 1 (.unit 0),
      .vcutRestore, .bringupVinReady [], .securePageFill default false, .ready, .blockResetRelease false, .hostResetRelease,
      .gafferSleep, .wake .gaf, .wake (.clu 0), .marginProbeDwell 0, .sectorEraseDone, .descriptorFetch, .writeReissue 0,
      .callSheetGo 0 1 1, .ringEnable 0 1 15, .ringDisable 0 1 15, .eventRingEnable 0 1 15, .eventRingDisable 0 16 15]
        : List Instr).all (fun i => runs i ready)] = true := by decide +kernel

end Sys2Proof.Tests
end

section
/-! PROOFS. What a register read does (15 R474, 16 R480 to R486), and the identity register (00 R2). -/

namespace Sys2Proof.Machine
open Sys2Proof

/-! ## Waking for an access and stalling it (01 R26, R28) -/

@[simp] theorem wakeClu_out (n : Nat) (s : State) : (s.wakeClu n).out = s.out := by
  unfold State.wakeClu
  split <;> simp

/-- What a register's access may wake: the Gaffer alone, or the register's cluster too. -/
theorem wakeReg_cases (r : Reg) (s : State) : s.wakeReg r = s.wakeGaf ∨ ∃ n, s.wakeReg r = (s.wakeClu n).wakeGaf := by
  unfold State.wakeReg
  split
  · exact .inl rfl
  · split
    · exact .inr ⟨_, rfl⟩
    · exact .inl rfl

@[simp] theorem wakeReg_out (r : Reg) (s : State) : (s.wakeReg r).out = s.out := by
  obtain h | ⟨n, h⟩ := wakeReg_cases r s <;> simp [h]

@[simp] theorem wakeReg_stalled (r : Reg) (s : State) : (s.wakeReg r).stalled = s.stalled := by
  obtain h | ⟨n, h⟩ := wakeReg_cases r s <;> simp [h]

@[simp] theorem stall_out (row : Instr) (r : Reg) (s : State) : (s.stall row r).out = s.out := wakeReg_out r s

@[simp] theorem stall_stalled (row : Instr) (r : Reg) (s : State) : (s.stall row r).stalled = s.stalled ++ [row] :=
  congrArg (· ++ [row]) (wakeReg_stalled r s)

/-! ## The three ways an admitted read goes -/

section Reads
variable {row : Instr} {id off : Nat} {f : Reg → State → Nat × State} {s : State} {r : Reg}

/-- A read behind a stalled access waits its turn, whatever it reads (16 R482). -/
theorem regReadDo_of_stalled (ha : s.accessible = true) (hs : s.stalled ≠ []) :
    s.regReadDo row id off f = { s with stalled := s.stalled ++ [row] } := by
  simp [State.regReadDo, ha, hs]

/-- An admitted read whose clock is stopped stalls (01 R28). -/
theorem regReadDo_of_not_awake (ha : s.accessible = true) (hs : s.stalled = []) (ho : off % 4 = 0)
    (hp : s.permits id off false = true) (hr : regAt off = some r) (hb : s.regAbsent r = false)
    (hw : s.regAwake r = false) : s.regReadDo row id off f = s.stall row r := by
  simp [State.regReadDo, ha, hs, ho, hp, hr, hb, hw]

/-- An admitted read whose clock runs sends the register's word (the register is one that `MayRead` names). -/
theorem regReadDo_of_awake (ha : s.accessible = true) (hs : s.stalled = []) (ho : off % 4 = 0)
    (hp : s.permits id off false = true) (hr : regAt off = some r) (hb : s.regAbsent r = false)
    (hw : s.regAwake r = true) (hc : ∀ n, r.cluster = some n → s.shadowOnly n = false) :
    s.regReadDo row id off f =
      (f r (s.wakeReg r)).2.put (.regData id (BitVec.ofNat 32 (f r (s.wakeReg r)).1)) := by
  cases h : r.cluster with
  | none => simp [State.regReadDo, ha, hs, ho, hp, hr, hb, hw, h]
  | some n => simp [State.regReadDo, ha, hs, ho, hp, hr, hb, hw, h, hc n h]

end Reads

theorem exec_pairLoRead (id : AccId) (off : BitVec 20) (s : State) :
    exec (.pairLoRead id off) s = .next (s.regReadDo (.pairLoRead id off) id off.toNat (State.regRead id)) := rfl

/-! ## GAF_ID (00 R2, 16 Table 16-2) -/

@[simp] theorem regAt_zero : regAt 0 = some .id := by decide

@[simp] theorem regAbsent_id (s : State) : s.regAbsent .id = false := rfl

@[simp] theorem cluster_id : Reg.cluster .id = none := rfl

@[simp] theorem regRead_id (id : Nat) (s : State) : s.regRead id .id = (0x301, s) := rfl

/-- GAF_ID lies in the Gaffer, so its reads need the Gaffer's clock alone. -/
theorem regAwake_id (s : State) : s.regAwake .id = (s.gafClock == .running) := Bool.and_true _

/-- Settles O1: a read of GAF_ID at an idle port meets either a running clock, and the word goes out, or a stopped one, and
stalls; behind a stalled access it queues before anything else is looked at. -/
theorem identityRegisterReads : Obligations.IdentityRegisterReads := by
  intro id s ha hp
  simp only [exec_pairLoRead, BitVec.reduceToNat]
  refine ⟨fun hclk hs => ?_, fun hwait => ?_⟩
  · have hw : s.regAwake .id = true := by simp [regAwake_id, hclk]
    refine ⟨_, 0x301, rfl, ?_, by decide⟩
    rw [regReadDo_of_awake ha hs rfl hp regAt_zero (regAbsent_id s) hw (by simp)]
    simp [State.put]
  · refine ⟨_, rfl, ?_⟩
    by_cases hs : s.stalled = []
    · have hclk : s.gafClock ≠ .running := hwait.resolve_right (not_not_intro hs)
      have hw : s.regAwake .id = false := by simp [regAwake_id, hclk]
      rw [regReadDo_of_not_awake ha hs rfl hp regAt_zero (regAbsent_id s) hw]
      simp
    · rw [regReadDo_of_stalled ha hs]
      simp

end Sys2Proof.Machine
end

section
/-! PROOFS. The memory port's transfers (13 R394 to R398), the two stages in which an opcode's own row acts (13 R418), and
the commands that read or write host memory (02 R55, 06 R173, R182, 13 R410, 14 R449). -/

namespace Sys2Proof.Machine
open Sys2Proof

/-! ## Sparse tables: changed entries and free keys -/

section Tables
variable {α : Type} {t : Tab α} {i j : Nat} {x : α}

theorem Tab.get?_mod_same (h : Tab.get? t i = some x) (f : α → α) : Tab.get? (Tab.mod t i f) i = some (f x) := by
  simp [Tab.mod, h, Tab.get?_put_same]

theorem Tab.get?_mod_ne (t : Tab α) (f : α → α) (h : i ≠ j) : Tab.get? (Tab.mod t i f) j = Tab.get? t j := by
  unfold Tab.mod
  split
  · exact Tab.get?_put_ne t i j _ h
  · rfl

/-- What a key finds is an entry of the table. -/
theorem Tab.mem_of_get? (h : Tab.get? t i = some x) : (i, x) ∈ t := by
  induction t with
  | nil => simp [Tab.get?] at h
  | cons p t ih =>
    obtain ⟨k, y⟩ := p
    by_cases hk : k = i
    · subst hk
      have hxy : y = x := by simpa [Tab.get?] using h
      simp [hxy]
    · exact List.mem_cons_of_mem _ (ih (by simpa [Tab.get?, hk] using h))

/-- A put at a free key loses no entry. -/
theorem Tab.get?_put_of_free {y : α} (hj : Tab.get? t j = none) (hi : Tab.get? t i = some x) :
    Tab.get? (Tab.put t j y) i = some x := by
  have hne : j ≠ i := fun e => by simp [e, hi] at hj
  rw [Tab.get?_put_ne t j i y hne, hi]

theorem get?_freeId (h : freeId t = some i) : Tab.get? t i = none := by
  simpa using List.find?_some h

theorem freeId_lt (h : freeId t = some i) : i < 64 := List.mem_range.mp (List.mem_of_find?_eq_some h)

/-- The place that `waitId` names lies behind the port's IDs and behind every key of the table. -/
theorem waitId_bounds (t : Tab α) : 64 ≤ waitId t ∧ ∀ p ∈ t, p.1 < waitId t := by
  have key : ∀ (l : Tab α) (m : Nat), m ≤ l.foldl (fun m p => max m (p.1 + 1)) m ∧
      ∀ p ∈ l, p.1 < l.foldl (fun m p => max m (p.1 + 1)) m := by
    intro l
    induction l with
    | nil => simp
    | cons q l ih =>
      intro m
      obtain ⟨hm, hl⟩ := ih (max m (q.1 + 1))
      simp only [List.foldl_cons, List.forall_mem_cons]
      exact ⟨by omega, by omega, hl⟩
  exact key t 64

theorem get?_waitId (t : Tab α) : Tab.get? t (waitId t) = none := by
  cases h : Tab.get? t (waitId t) with
  | none => rfl
  | some x => exact absurd ((waitId_bounds t).2 _ (Tab.mem_of_get? h)) (lt_irrefl _)

end Tables

/-! ## A read or a write that starts (13 R394, R395) -/

/-- A read that starts is outstanding, on the port or waiting for an ID. -/
theorem startRead_fetches (addr bytes : Nat) (use : RdUse) (src : Nat) (s : State) :
    Fetches s (s.startRead addr bytes use src) addr bytes use src := by
  unfold State.startRead
  dsimp only
  split
  next i hi =>
    have hlt := freeId_lt hi
    exact ⟨i, _, get?_freeId hi, Tab.get?_put_same _ _ _, rfl, rfl, rfl, rfl, rfl, rfl, rfl, fun _ => rfl,
      fun h => absurd hlt (by omega)⟩
  next =>
    have hge := (waitId_bounds s.host.reads).1
    exact ⟨_, _, get?_waitId _, Tab.get?_put_same _ _ _, rfl, rfl, rfl, rfl, rfl, rfl, rfl,
      fun h => absurd hge (by omega), fun _ => rfl⟩

@[simp] theorem startRead_cmd? (addr bytes : Nat) (use : RdUse) (src : Nat) (s : State) (slot : Nat) :
    (s.startRead addr bytes use src).cmd? slot = s.cmd? slot := by
  unfold State.startRead
  dsimp only
  split <;> rfl

theorem running_startRead {s : State} {slot : Nat} (h : Running s slot) (addr bytes : Nat) (use : RdUse) (src : Nat) :
    Running (s.startRead addr bytes use src) slot := by
  simpa [Running] using h

@[simp] theorem startRead_cx (addr bytes : Nat) (use : RdUse) (src : Nat) (s : State) (x : Nat) :
    (s.startRead addr bytes use src).cx x = s.cx x := by
  unfold State.startRead
  dsimp only
  split <;> rfl

/-- A write that starts is outstanding, on the port or waiting for an ID. -/
theorem startWrite_sends (addr : Nat) (words : List Word64) (use : WrUse) (s : State) :
    Sends s (s.startWrite addr words use) addr words use (s.writeSrc use) := by
  unfold State.startWrite
  dsimp only
  split
  next i hi =>
    have hlt := freeId_lt hi
    exact ⟨i, _, get?_freeId hi, Tab.get?_put_same _ _ _, rfl, rfl, rfl, rfl, rfl, rfl, fun _ => rfl,
      fun h => absurd hlt (by omega)⟩
  next =>
    have hge := (waitId_bounds s.host.writes).1
    exact ⟨_, _, get?_waitId _, Tab.get?_put_same _ _ _, rfl, rfl, rfl, rfl, rfl, rfl,
      fun h => absurd hge (by omega), fun _ => rfl⟩

theorem outgoing_of_sends {s t : State} {addr : Nat} {words : List Word64} {use : WrUse} {src : Nat}
    (h : Sends s t addr words use src) : Outgoing t addr words use src := by
  obtain ⟨id, w, _, hw, haddr, hwords, huse, _, _, hsrc, _⟩ := h
  exact ⟨id, w, hw, haddr, hwords, huse, hsrc⟩

/-- Of the host interface a write that starts changes the writes alone, and of them it loses none. -/
theorem startWrite_host (addr : Nat) (words : List Word64) (use : WrUse) (s : State) :
    ∃ ws, (s.startWrite addr words use).host = { s.host with writes := ws } ∧
      ∀ id w, Tab.get? s.host.writes id = some w → Tab.get? ws id = some w := by
  unfold State.startWrite
  dsimp only
  split
  next i hi => exact ⟨_, rfl, fun _ _ => Tab.get?_put_of_free (get?_freeId hi)⟩
  next => exact ⟨_, rfl, fun _ _ => Tab.get?_put_of_free (get?_waitId _)⟩

/-- Likewise for a long write, piece by piece. -/
theorem writeLong_host (fuel addr : Nat) (words : List Word64) (use : Bool → WrUse) (s : State) :
    ∃ ws, (s.writeLong fuel addr words use).host = { s.host with writes := ws } ∧
      ∀ id w, Tab.get? s.host.writes id = some w → Tab.get? ws id = some w := by
  induction fuel generalizing addr words s with
  | zero => exact ⟨_, rfl, fun _ _ h => h⟩
  | succ fuel ih =>
    unfold State.writeLong
    dsimp only
    split
    · exact startWrite_host _ _ _ s
    · obtain ⟨ws, hws, keep⟩ := startWrite_host addr (words.take _) (use false) s
      obtain ⟨ws', hws', keep'⟩ := ih _ _ (s.startWrite addr (words.take _) (use false))
      rw [hws] at hws' keep'
      exact ⟨ws', hws', fun id w h => keep' id w (keep id w h)⟩

@[simp] theorem writeLong_cmd? (fuel addr : Nat) (words : List Word64) (use : Bool → WrUse) (s : State) (slot : Nat) :
    (s.writeLong fuel addr words use).cmd? slot = s.cmd? slot := by
  obtain ⟨ws, hws, _⟩ := writeLong_host fuel addr words use s
  simp [State.cmd?, hws]

@[simp] theorem writeLong_rings (fuel addr : Nat) (words : List Word64) (use : Bool → WrUse) (s : State) :
    (s.writeLong fuel addr words use).host.rings = s.host.rings := by
  obtain ⟨ws, hws, _⟩ := writeLong_host fuel addr words use s
  simp [hws]

@[simp] theorem writeLong_cpls (fuel addr : Nat) (words : List Word64) (use : Bool → WrUse) (s : State) :
    (s.writeLong fuel addr words use).host.cpls = s.host.cpls := by
  obtain ⟨ws, hws, _⟩ := writeLong_host fuel addr words use s
  simp [hws]

@[simp] theorem writeLong_nv (fuel addr : Nat) (words : List Word64) (use : Bool → WrUse) (s : State) :
    (s.writeLong fuel addr words use).nv = s.nv := congrArg Rest.nv (State.writeLong_rest fuel addr words use s)

theorem writeLong_keeps_outgoing {s : State} {a : Nat} {ws : List Word64} {u : WrUse} {src : Nat}
    (h : Outgoing s a ws u src) (fuel addr : Nat) (words : List Word64) (use : Bool → WrUse) :
    Outgoing (s.writeLong fuel addr words use) a ws u src := by
  obtain ⟨id, w, hw, hrest⟩ := h
  obtain ⟨_, hhost, keep⟩ := writeLong_host fuel addr words use s
  exact ⟨id, w, by rw [hhost]; exact keep id w hw, hrest⟩

/-- One transfer carries the words: 16 beats at most, and no 4 KiB boundary crossed (R395). -/
def OneWrite (addr : Nat) (words : List Word64) : Prop := words.length ≤ 2 * chunkBeats addr (8 * words.length)

/-- Words that one transfer carries go out in one write, the last. -/
theorem writeLong_of_oneWrite {addr : Nat} {words : List Word64} (h : OneWrite addr words) (fuel : Nat)
    (use : Bool → WrUse) (s : State) :
    s.writeLong (fuel + 1) addr words use = s.startWrite addr words (use true) := if_pos h

/-- Of more words the first transfer's go out in a write that is not the last. -/
theorem writeLong_outgoing_of_lt {addr : Nat} {words : List Word64}
    (h : 2 * chunkBeats addr (8 * words.length) < words.length) (fuel : Nat) (use : Bool → WrUse) (s : State) :
    Outgoing (s.writeLong (fuel + 1) addr words use) addr (words.take (2 * chunkBeats addr (8 * words.length)))
      (use false) (s.writeSrc (use false)) := by
  simp only [State.writeLong, Nat.not_le.mpr h, if_false]
  exact writeLong_keeps_outgoing (outgoing_of_sends (startWrite_sends _ _ _ s)) _ _ _ _

/-- Operand data goes out on behalf of its command's ring (13 R396). -/
theorem writeSrc_data {s : State} {slot : Nat} {c : Cmd} (h : s.cmd? slot = some c) (last : Bool) :
    s.writeSrc (.data slot last) = s.cmdPid c := by
  simp [State.writeSrc, h, State.cmdPid]

/-! ## The command in a slot -/

section Commands
variable {s : State} {slot k : Nat} {c : Cmd}

theorem cmd?_modCmd_same (h : s.cmd? slot = some c) (f : Cmd → Cmd) : (s.modCmd slot f).cmd? slot = some (f c) :=
  Tab.get?_mod_same h f

theorem cmd?_modCmd_ne (h : k ≠ slot) (f : Cmd → Cmd) : (s.modCmd k f).cmd? slot = s.cmd? slot :=
  Tab.get?_mod_ne s.host.cmds f h

/-- What an end does: nothing in a slot without a command or to a command that has ended; else it forms one record and puts
the command in the complete stage. -/
theorem complete_cases (s : State) (slot : Nat) (st : Status) (res : Nat) :
    s.complete slot st res = s ∨ Completed s (s.complete slot st res) slot st res ∧
      (s.complete slot st res).host.rings = s.host.rings ∧ (s.complete slot st res).host.writes = s.host.writes ∧
      (s.complete slot st res).ctx = s.ctx ∧ ∀ j, slot ≠ j → (s.complete slot st res).cmd? j = s.cmd? j := by
  unfold State.complete State.completeAfter
  split
  · exact .inl rfl
  · split
    · exact .inl rfl
    · exact .inr ⟨⟨⟨_, rfl, rfl, rfl, rfl⟩, _, Tab.get?_put_same _ _ _, rfl⟩, rfl, rfl, rfl,
        fun j hj => Tab.get?_put_ne _ _ _ _ hj⟩

theorem complete_completed (h : s.cmd? slot = some c) (hc : c.stage ≠ .complete) (st : Status) (res : Nat) :
    Completed s (s.complete slot st res) slot st res := by
  unfold State.complete State.completeAfter
  simp only [h, beq_iff_eq, hc, if_false]
  exact ⟨⟨_, rfl, rfl, rfl, rfl⟩, _, Tab.get?_put_same _ _ _, rfl⟩

@[simp] theorem complete_ctx (s : State) (slot : Nat) (st : Status) (res : Nat) :
    (s.complete slot st res).ctx = s.ctx := by
  obtain h | ⟨_, _, _, h, _⟩ := complete_cases s slot st res
  · rw [h]
  · exact h

@[simp] theorem complete_rings (s : State) (slot : Nat) (st : Status) (res : Nat) :
    (s.complete slot st res).host.rings = s.host.rings := by
  obtain h | ⟨_, h, _⟩ := complete_cases s slot st res
  · rw [h]
  · exact h

@[simp] theorem complete_writes (s : State) (slot : Nat) (st : Status) (res : Nat) :
    (s.complete slot st res).host.writes = s.host.writes := by
  obtain h | ⟨_, _, h, _⟩ := complete_cases s slot st res
  · rw [h]
  · exact h

theorem cmd?_complete_ne (h : k ≠ slot) (st : Status) (res : Nat) : (s.complete k st res).cmd? slot = s.cmd? slot := by
  obtain e | ⟨_, _, _, _, e⟩ := complete_cases s k st res
  · rw [e]
  · exact e slot h

theorem ended_of_completed {s t : State} {slot : Nat} {st : Status} {res : Nat} (h : Completed s t slot st res) :
    Ended t slot st res := by
  obtain ⟨⟨r, hr, hrest⟩, hcmd⟩ := h
  exact ⟨⟨r, by simp [hr], hrest⟩, hcmd⟩

end Commands

/-! ## The two stages in which an opcode's own row acts (13 R418) -/

/-- The command in a slot dispatched. -/
def State.dispatched (slot : Nat) (s : State) : State := s.modCmd slot (fun x => { x with stage := .dispatched })

section Rows
variable {s : State} {slot : Slot} {opc : Nat} {c : Cmd}

theorem opc_of_chosen (h : Chosen s slot opc c) : c.opc = opc := by
  obtain ⟨_, _, hopc, _⟩ := h
  exact hopc

theorem cmd?_dispatched (h : Chosen s slot opc c) :
    (s.dispatched slot).cmd? slot = some { c with stage := .dispatched } := by
  obtain ⟨_, hcmd, _⟩ := h
  exact cmd?_modCmd_same hcmd _

theorem running_dispatched (h : Chosen s slot opc c) : Running (s.dispatched slot) slot := ⟨_, cmd?_dispatched h, rfl⟩

/-- A chosen command that ends at its dispatch forms the one record more. -/
theorem completed_dispatched (h : Chosen s slot opc c) (st : Status) (res : Nat) :
    Completed s ((s.dispatched slot).complete slot st res) slot st res :=
  complete_completed (cmd?_dispatched h) (by simp) st res

/-- The row of a command that arbitrate has chosen dispatches it. -/
theorem opRow_of_chosen (h : Chosen s slot opc c) (limits : Cmd → Bool) (check : Cmd → State → Option (Status × Nat))
    (go : Cmd → State → State) : s.opRow slot opc limits check go = go c (s.dispatched slot) := by
  obtain ⟨⟨hacc, hfatal, hclk⟩, hcmd, hopc, hstage⟩ := h
  simp [State.opRow, State.dispatched, hcmd, hopc, hstage, hacc, hfatal, hclk]

theorem memRead_of_no_injects (h : s.flt.injects = []) (mem n : Nat) (addr : Option Nat) : s.memRead mem n addr = s := by
  simp [State.memRead, h]

/-- The row of a command in its scope and its ranges ends it when its own check fails. -/
theorem opRow_of_refused (h : Arrived s slot opc c) (hscope : s.inScope c = true) {limits : Cmd → Bool}
    (hlimits : limits c = true) {check : Cmd → State → Option (Status × Nat)} {st : Status} {res : Nat}
    (hcheck : check c s = some (st, res)) (go : Cmd → State → State) :
    s.opRow slot opc limits check go = s.complete slot st res := by
  obtain ⟨⟨⟨hacc, hfatal, hclk⟩, hcmd, hopc, hstage⟩, hinj⟩ := h
  simp [State.opRow, hcmd, hopc, hstage, hacc, hfatal, hclk, memRead_of_no_injects hinj, hscope, hlimits, hcheck]

end Rows

/-! ## CALL_SHEET_LOAD, CONTEXT_OPEN and REEL_LOAD -/

section Loads
variable {s : State} {slot : Slot} {c : Cmd}

theorem exec_callSheetLoad_of_chosen (h : Chosen s slot 0x08 c) : exec (.callSheetLoad slot) s =
    .next ((s.dispatched slot).startRead (c.opnd 2 0 48) 64 (.csh (some slot.val)) (s.cmdPid c)) :=
  congrArg Host.Outcome.next (opRow_of_chosen h _ _ _)

theorem exec_contextOpen_of_chosen (h : Chosen s slot 0x09 c) : exec (.contextOpen slot) s =
    .next ((s.dispatched slot).startRead (c.opnd 2 0 48) 64 (.ctx slot) (s.cmdPid c)) :=
  congrArg Host.Outcome.next (opRow_of_chosen h _ _ _)

theorem callSheetLoad_reads (h : Chosen s slot 0x08 c) : ∃ t, exec (.callSheetLoad slot) s = .next t ∧
    Running t slot ∧ Fetches s t (c.opnd 2 0 48) 64 (.csh (some slot.val)) (s.cmdPid c) :=
  ⟨_, exec_callSheetLoad_of_chosen h, running_startRead (running_dispatched h) _ _ _ _,
    startRead_fetches _ _ _ _ (s.dispatched slot)⟩

theorem contextOpen_reads (h : Chosen s slot 0x09 c) : ∃ t, exec (.contextOpen slot) s = .next t ∧
    Running t slot ∧ Fetches s t (c.opnd 2 0 48) 64 (.ctx slot) (s.cmdPid c) :=
  ⟨_, exec_contextOpen_of_chosen h, running_startRead (running_dispatched h) _ _ _ _,
    startRead_fetches _ _ _ _ (s.dispatched slot)⟩

/-- The loads of a context, the one of a slot behind them. -/
def Context.joinLoad (slot : Nat) (x : Context) : Context :=
  { x with loads := x.loads ++ [{ slot, loading := false, openN := x.openN, hdr := [] }] }

/-- Check 1 of REEL_LOAD (06 Table 6-6) fails: the context is not open, or has eight loads. -/
def Context.noLoad (x : Context) : Bool := x.st == .closed || x.closing.isSome || decide (8 ≤ x.loads.length)

theorem exec_reelLoad_of_chosen (h : Chosen s slot 0x0B c) : exec (.reelLoad slot) s =
    .next (if (s.cx c.ctx).noLoad then (s.dispatched slot).complete slot .rejectedState 1
      else ((s.dispatched slot).modCx c.ctx (Context.joinLoad slot)).startRead (c.opnd 2 0 48) 64 (.reel slot)
        (s.cmdPid c)) :=
  congrArg Host.Outcome.next (opRow_of_chosen h _ _ _)

/-- A REEL_LOAD at an open context with room joins its loads and reads its header. -/
theorem reelLoad_joins (h : Chosen s slot 0x0B c) (hctx : c.ctx < 16) (hload : (s.cx c.ctx).noLoad = false) :
    ∃ t, exec (.reelLoad slot) s = .next t ∧ Running t slot ∧ t.cx c.ctx = (s.cx c.ctx).joinLoad slot ∧
      Fetches s t (c.opnd 2 0 48) 64 (.reel slot) (s.cmdPid c) := by
  have hrow := exec_reelLoad_of_chosen h
  rw [hload, if_neg Bool.false_ne_true] at hrow
  refine ⟨_, hrow, running_startRead ?_ _ _ _ _, ?_,
    startRead_fetches _ _ _ _ ((s.dispatched slot).modCx c.ctx (Context.joinLoad slot))⟩
  · exact running_dispatched h
  · rw [startRead_cx, cx_modCx _ _ _ hctx]
    rfl

/-- A REEL_LOAD that fails check 1 ends with it, and no context changes. -/
theorem reelLoad_refused (h : Chosen s slot 0x0B c) (hload : (s.cx c.ctx).noLoad = true) :
    ∃ t, exec (.reelLoad slot) s = .next t ∧ Completed s t slot .rejectedState 1 ∧ t.ctx = s.ctx := by
  have hrow := exec_reelLoad_of_chosen h
  rw [hload, if_pos rfl] at hrow
  exact ⟨_, hrow, completed_dispatched h _ _, complete_ctx _ _ _ _⟩

end Loads

/-! ## TELEMETRY_READ (13 R410) -/

/-- DISABLED of a unit does not lie in the host interface. -/
theorem telDisabled_modCmd (i : Nat) (f : Cmd → Cmd) (s : State) (fuel u : Nat) :
    (s.modCmd i f).telDisabled fuel u = s.telDisabled fuel u := by
  induction fuel generalizing u with
  | zero => rfl
  | succ fuel ih =>
    have hsheet : (s.modCmd i f).sheet = s.sheet := rfl
    have hleaf : (s.modCmd i f).leafDisabled u = s.leafDisabled u := rfl
    simp only [State.telDisabled, ih, hsheet, hleaf]

/-- The record of a unit is formed from the same fields before and after a change of a command. -/
theorem telRecord_modCmd (i : Nat) (f : Cmd → Cmd) (s : State) : (s.modCmd i f).telRecord = s.telRecord := by
  funext u
  unfold State.telRecord
  rw [telDisabled_modCmd]
  rfl

/-- The records that a TELEMETRY_READ writes, in ascending address. -/
def State.telWords (s : State) (c : Cmd) : List Word64 := (s.sheet.telUnits c.unit (c.opnd 2 48 2)).flatMap s.telRecord

/-- A TELEMETRY_READ dispatched, with the number of its records, which is its RESULT. -/
def State.telStart (slot : Nat) (c : Cmd) (s : State) : State :=
  (s.dispatched slot).modCmd slot (fun x => { x with wait := (s.sheet.telUnits c.unit (c.opnd 2 48 2)).length })

section Telemetry
variable {s : State} {slot : Slot} {c : Cmd}

theorem exec_telemetryRead_of_chosen (h : Chosen s slot 0x15 c) : exec (.telemetryRead slot) s =
    .next ((s.telStart slot c).writeLong 600 (c.opnd 2 0 48) (s.telWords c) (fun last => .data slot last)) := by
  have hrow : exec (.telemetryRead slot) s = .next ((s.telStart slot c).writeLong 600 (c.opnd 2 0 48)
      ((s.dispatched slot).telWords c) (fun last => .data slot last)) :=
    congrArg Host.Outcome.next (opRow_of_chosen h _ _ _)
  have hwords : (s.dispatched slot).telWords c = s.telWords c := by
    unfold State.telWords
    rw [show (s.dispatched slot).telRecord = s.telRecord from telRecord_modCmd _ _ s]
    rfl
  rw [hrow, hwords]

theorem cmd?_telStart (h : Chosen s slot 0x15 c) : (s.telStart slot c).cmd? slot = some { c with
    stage := .dispatched, wait := (s.sheet.telUnits c.unit (c.opnd 2 48 2)).length } :=
  cmd?_modCmd_same (cmd?_dispatched h) _

theorem writeSrc_telStart (h : Chosen s slot 0x15 c) (last : Bool) :
    (s.telStart slot c).writeSrc (.data slot last) = s.cmdPid c := writeSrc_data (cmd?_telStart h) last

/-- A TELEMETRY_READ whose records fit one transfer sends them in one write. -/
theorem telWrite_sends (h : Chosen s slot 0x15 c)
    (hle : OneWrite (c.opnd 2 0 48) (s.telWords c)) :
    Sends s ((s.telStart slot c).writeLong 600 (c.opnd 2 0 48) (s.telWords c) (fun last => .data slot last))
      (c.opnd 2 0 48) (s.telWords c) (.data slot true) (s.cmdPid c) := by
  rw [writeLong_of_oneWrite hle, ← writeSrc_telStart h true]
  exact startWrite_sends _ _ _ (s.telStart slot c)

end Telemetry

/-! ## NV_READ (14 R449) -/

section Newest
variable {α : Type} (key : α → Nat)

theorem mem_insertBy (lt : α → α → Bool) (x z : α) (l : List α) : z ∈ insertBy lt x l ↔ z = x ∨ z ∈ l := by
  induction l with
  | nil => simp [insertBy]
  | cons y l ih =>
    unfold insertBy
    split
    · simp
    · simp only [List.mem_cons, ih]
      tauto

/-- The head of a list has its largest key. -/
def TopFirst (l : List α) : Prop := ∀ x ∈ l.head?, ∀ z ∈ l, key z ≤ key x

theorem topFirst_insertBy {l : List α} (x : α) (h : TopFirst key l) :
    TopFirst key (insertBy (fun a b => decide (key b < key a)) x l) := by
  cases l with
  | nil => simp [insertBy, TopFirst]
  | cons y l =>
    have hy : ∀ z ∈ y :: l, key z ≤ key y := h y rfl
    by_cases hxy : key y < key x
    · have hall : ∀ z ∈ y :: l, key z ≤ key x := fun z hz => (hy z hz).trans hxy.le
      simpa [insertBy, hxy, TopFirst] using hall
    · have hall : ∀ z ∈ l, key z ≤ key y := fun z hz => hy z (List.mem_cons_of_mem _ hz)
      simpa [insertBy, hxy, TopFirst, mem_insertBy] using ⟨by omega, hall⟩

/-- A list sorted by falling keys keeps its elements, the largest key first. -/
theorem sortBy_falling (l : List α) :
    TopFirst key (sortBy (fun a b => decide (key b < key a)) l) ∧
      ∀ z, z ∈ sortBy (fun a b => decide (key b < key a)) l ↔ z ∈ l := by
  induction l using List.reverseRecOn with
  | nil => simp [sortBy, TopFirst]
  | append_singleton l x ih =>
    obtain ⟨htop, hmem⟩ := ih
    have hsort : sortBy (fun a b => decide (key b < key a)) (l ++ [x]) =
        insertBy (fun a b => decide (key b < key a)) x (sortBy (fun a b => decide (key b < key a)) l) := by
      simp [sortBy]
    rw [hsort]
    exact ⟨topFirst_insertBy key x htop, fun z => by rw [mem_insertBy, hmem]; simp [or_comm]⟩

end Newest

theorem FlashSlot.nseq_lt (f : FlashSlot) : f.nseq < 2 ^ 32 := Nat.mod_lt _ (by decide)

/-- One more than the newest committed NSEQ; 0 where nothing is committed. -/
def Nv.readTop (v : Nv) : Nat :=
  match v.committed (2 ^ 32) with
  | [] => 0
  | f :: _ => f.nseq + 1

/-- The records up to the newest committed one are all that are committed. -/
theorem committed_readTop {v : Nv} (h : v.committed (2 ^ 32) ≠ []) :
    v.readTop ≠ 0 ∧ v.committed (v.readTop - 1) = v.committed (2 ^ 32) := by
  obtain ⟨f, l, hf⟩ := List.exists_cons_of_ne_nil h
  have hall : ∀ p ∈ v.flash, p.2.committed = true → p.2.nseq ≤ f.nseq := by
    intro p hp hc
    obtain ⟨htop, hmem⟩ := sortBy_falling FlashSlot.nseq
      ((v.flash.filter (fun (q : Nat × FlashSlot) => q.2.committed && decide (q.2.nseq ≤ 2 ^ 32))).map (fun q => q.2))
    have hle := (FlashSlot.nseq_lt p.2).le
    refine htop f (congrArg List.head? hf) p.2 ((hmem p.2).mpr ?_)
    exact List.mem_map_of_mem (List.mem_filter.mpr ⟨hp, by simp [-Nat.reducePow, hc, hle]⟩)
  have htop : v.readTop = f.nseq + 1 := by rw [Nv.readTop, hf]
  refine ⟨by omega, ?_⟩
  unfold Nv.committed
  rw [htop, List.filter_congr]
  intro p hp
  have hle := (FlashSlot.nseq_lt p.2).le
  cases hc : p.2.committed with
  | false => rfl
  | true => simp [-Nat.reducePow, hle, hall p hp hc]

/-- The records that an NV_READ asks for, newest first (R449). -/
def Nv.asked (v : Nv) (c : Cmd) : List FlashSlot :=
  ((v.committed (2 ^ 32)).drop (c.opnd 3 0 9)).take (c.opnd 3 9 10)

/-- The records that a dispatched NV_READ reads: those asked for, up to the NSEQ that its `wait` holds. -/
def Nv.found (v : Nv) (c : Cmd) : List FlashSlot :=
  if c.wait == 0 then [] else ((v.committed (c.wait - 1)).drop (c.opnd 3 0 9)).take (c.opnd 3 9 10)

/-- With the newest NSEQ in `wait`, what is found is what is asked for. -/
theorem found_of_readTop (v : Nv) {c : Cmd} (h : c.wait = v.readTop) : v.found c = v.asked c := by
  unfold Nv.found Nv.asked
  by_cases hnone : v.committed (2 ^ 32) = []
  · have hzero : c.wait = 0 := by rw [h, Nv.readTop, hnone]
    simp [-Nat.reducePow, hzero, hnone]
  · obtain ⟨hpos, hall⟩ := committed_readTop hnone
    simp [h, hpos, hall]

/-- The words of some records, one record behind the other. -/
def recWords (l : List FlashSlot) : List Word64 := l.flatMap (fun f => f.words)

/-- The write of an NV_READ's records. -/
def State.nvWrite (slot : Nat) (c : Cmd) (s : State) : State :=
  (s.modCmd slot (fun c' => { c' with wait := (s.nv.found c).length, parts := [1] })).writeLong 600 (c.opnd 2 0 48)
    (recWords (s.nv.found c)) (fun last => .data slot last)

section ReadNow
variable {s : State} {slot k : Nat} {c : Cmd}

theorem nvReadNow_of_cmd (h : s.cmd? slot = some c) : s.nvReadNow slot =
    if !s.nv.ready then s.complete slot .rejectedState 0
    else if (s.nv.found c).isEmpty then s.complete slot .done 0 else s.nvWrite slot c := by
  simp only [State.nvReadNow, h]
  rfl

/-- The records found go out in one write if one transfer carries them. -/
theorem nvWrite_outgoing (h : s.cmd? slot = some c) (hle : OneWrite (c.opnd 2 0 48) (recWords (s.nv.found c))) :
    Outgoing (s.nvWrite slot c) (c.opnd 2 0 48) (recWords (s.nv.found c)) (.data slot true)
      (s.cmdPid c) := by
  rw [State.nvWrite, writeLong_of_oneWrite hle]
  exact outgoing_of_sends (writeSrc_data (cmd?_modCmd_same h _) true ▸ startWrite_sends _ _ _ _)

/-- What the reading of one slot can do: nothing, an end, or the write of its records. -/
theorem nvReadNow_cases (s : State) (k : Nat) :
    s.nvReadNow k = s ∨ (∃ st, s.nvReadNow k = s.complete k st 0) ∨ ∃ c, s.nvReadNow k = s.nvWrite k c := by
  cases h : s.cmd? k with
  | none => exact .inl (by simp [State.nvReadNow, h])
  | some c =>
    rw [nvReadNow_of_cmd h]
    split
    · exact .inr (.inl ⟨_, rfl⟩)
    · split
      · exact .inr (.inl ⟨_, rfl⟩)
      · exact .inr (.inr ⟨_, rfl⟩)

@[simp] theorem nvReadNow_nv (s : State) (k : Nat) : (s.nvReadNow k).nv = s.nv := by
  obtain h | ⟨_, h⟩ | ⟨_, h⟩ := nvReadNow_cases s k <;> simp [h, State.nvWrite]

@[simp] theorem nvReadNow_rings (s : State) (k : Nat) : (s.nvReadNow k).host.rings = s.host.rings := by
  obtain h | ⟨_, h⟩ | ⟨_, h⟩ := nvReadNow_cases s k
  · rw [h]
  · rw [h, complete_rings]
  · rw [h, State.nvWrite, writeLong_rings]
    rfl

theorem cmd?_nvReadNow_ne (hk : k ≠ slot) : (s.nvReadNow k).cmd? slot = s.cmd? slot := by
  obtain h | ⟨_, h⟩ | ⟨_, h⟩ := nvReadNow_cases s k
  · rw [h]
  · rw [h, cmd?_complete_ne hk]
  · rw [h, State.nvWrite, writeLong_cmd?, cmd?_modCmd_ne hk]

/-- A write outstanding stays so while other records are read. -/
theorem nvReadNow_keeps_outgoing {a src : Nat} {ws : List Word64} {u : WrUse} (h : Outgoing s a ws u src) (k : Nat) :
    Outgoing (s.nvReadNow k) a ws u src := by
  obtain e | ⟨_, e⟩ | ⟨_, e⟩ := nvReadNow_cases s k
  · rwa [e]
  · rw [e]
    unfold Outgoing
    rwa [complete_writes]
  · rw [e]
    exact writeLong_keeps_outgoing (s := s.modCmd k _) h _ _ _ _

/-- A command that has ended stays so while records are read, for its own slot or for another. -/
theorem nvReadNow_keeps_ended {st : Status} {res : Nat} (h : Ended s slot st res) (k : Nat) :
    Ended (s.nvReadNow k) slot st res := by
  obtain ⟨⟨r, hr, hrest⟩, x, hx, hstage⟩ := h
  obtain e | ⟨st', e⟩ | ⟨y, e⟩ := nvReadNow_cases s k
  · rw [e]
    exact ⟨⟨r, hr, hrest⟩, x, hx, hstage⟩
  · rw [e]
    obtain e' | ⟨⟨⟨r', hr', _⟩, hown⟩, _, _, _, hother⟩ := complete_cases s k st' 0
    · rw [e']
      exact ⟨⟨r, hr, hrest⟩, x, hx, hstage⟩
    · refine ⟨⟨r, by simp [hr', hr], hrest⟩, ?_⟩
      by_cases hk : k = slot
      · exact hk ▸ hown
      · exact ⟨x, by rw [hother slot hk, hx], hstage⟩
  · rw [e, State.nvWrite]
    refine ⟨⟨r, by rw [writeLong_cpls]; exact hr, hrest⟩, ?_⟩
    rw [writeLong_cmd?]
    by_cases hk : k = slot
    · subst hk
      exact ⟨_, cmd?_modCmd_same hx _, hstage⟩
    · exact ⟨x, by rw [cmd?_modCmd_ne hk, hx], hstage⟩

end ReadNow

section Loops
variable {α : Type} {f : α → State → State} {P Q : State → Prop}

theorem each_keeps (hf : ∀ x s, P s → P (f x s)) (l : List α) {s : State} (h : P s) : P (each l f s) := by
  induction l generalizing s with
  | nil => exact h
  | cons x l ih => exact ih (hf x s h)

/-- What the turn of one element brings about holds at the end, if the others leave what it rests on and all keep it. -/
theorem each_reaches {k : α} (hothers : ∀ x ≠ k, ∀ s, P s → P (f x s)) (hk : ∀ s, P s → Q (f k s))
    (hkeep : ∀ x s, Q s → Q (f x s)) {l : List α} (hl : k ∈ l) {s : State} (h : P s) : Q (each l f s) := by
  induction l generalizing s with
  | nil => simp at hl
  | cons x l ih =>
    by_cases hx : x = k
    · subst hx
      exact each_keeps hkeep l (hk s h)
    · exact ih ((List.mem_cons.mp hl).resolve_left (Ne.symm hx)) (hothers x hx s h)

end Loops

theorem nvReads_of_busy {s : State} (h : s.nv.busy = true) : s.nvReads = s := by simp [State.nvReads, h]

@[simp] theorem nvReads_nv (s : State) : s.nvReads.nv = s.nv := by
  unfold State.nvReads
  split
  · rfl
  · exact each_keeps (P := fun t => t.nv = s.nv) (fun k t h => by rw [nvReadNow_nv, h]) _ rfl

/-- In a state `u` the NV_READ in a slot waits as in `s`: the command, the store and the rings are the same. -/
def NvWaits (s : State) (slot : Nat) (x : Cmd) (u : State) : Prop :=
  u.cmd? slot = some x ∧ u.nv = s.nv ∧ u.host.rings = s.host.rings

theorem nvWaits_nvReadNow {s u : State} {slot k : Nat} {x : Cmd} (hk : k ≠ slot) (h : NvWaits s slot x u) :
    NvWaits s slot x (u.nvReadNow k) := by
  obtain ⟨hcmd, hnv, hrings⟩ := h
  exact ⟨by rw [cmd?_nvReadNow_ne hk, hcmd], by rw [nvReadNow_nv, hnv], by rw [nvReadNow_rings, hrings]⟩

/-- When the store is idle, what the reading of a waiting NV_READ brings about, and other readings keep, holds after all have
been read. -/
theorem nvReads_reaches {s : State} {slot : Nat} {x : Cmd} (hidle : s.nv.busy = false) (hcmd : s.cmd? slot = some x)
    (hopc : x.opc = 0x16) (hstage : x.stage = .dispatched) (hparts : x.parts = []) {Q : State → Prop}
    (hown : ∀ u, NvWaits s slot x u → Q (u.nvReadNow slot)) (hkeep : ∀ k u, Q u → Q (u.nvReadNow k)) : Q s.nvReads := by
  simp only [State.nvReads, hidle, Bool.false_eq_true, if_false]
  refine each_reaches (P := NvWaits s slot x) (fun k hk u h => nvWaits_nvReadNow hk h) hown hkeep ?_ ⟨hcmd, rfl, rfl⟩
  exact List.mem_map_of_mem (f := Prod.fst)
    (List.mem_filter.mpr ⟨Tab.mem_of_get? hcmd, by simp [hopc, hstage, hparts]⟩)

/-- An NV_READ dispatched: it holds the newest committed NSEQ, and its data is still to be sent. -/
def State.nvStart (slot : Nat) (s : State) : State :=
  (s.dispatched slot).modCmd slot (fun x => { x with wait := s.nv.readTop, parts := [] })

section NvRead
variable {s : State} {slot : Slot} {c : Cmd}

theorem exec_nvRead_of_chosen (h : Chosen s slot 0x16 c) : exec (.nvRead slot) s = .next (s.nvStart slot).nvReads :=
  congrArg Host.Outcome.next (opRow_of_chosen h _ _ _)

/-- The command of an NV_READ once dispatched. -/
def Cmd.nvSent (c : Cmd) (v : Nv) : Cmd := { c with stage := .dispatched, wait := v.readTop, parts := [] }

theorem cmd?_nvStart (h : Chosen s slot 0x16 c) : (s.nvStart slot).cmd? slot = some (c.nvSent s.nv) :=
  cmd?_modCmd_same (cmd?_dispatched h) _

/-- What a dispatched NV_READ finds is what it asks for. -/
theorem found_nvSent (v : Nv) (c : Cmd) : v.found (c.nvSent v) = v.asked c := found_of_readTop v rfl

/-- A read of a usable store that finds nothing is DONE. -/
theorem nvReadNow_ended {u : State} (hu : NvWaits (s.nvStart slot) slot (c.nvSent s.nv) u) (hready : s.nv.ready = true)
    (hnone : s.nv.asked c = []) : Ended (u.nvReadNow slot) slot .done 0 := by
  obtain ⟨hcmd, hnv, _⟩ := hu
  have hfound : u.nv.found (c.nvSent s.nv) = [] := by rw [hnv, ← hnone]; exact found_nvSent s.nv c
  have hr : u.nv.ready = true := by rw [hnv]; exact hready
  have hnow : u.nvReadNow slot = u.complete slot .done 0 := by simp [nvReadNow_of_cmd hcmd, hr, hfound]
  rw [hnow]
  exact ended_of_completed (complete_completed hcmd (by simp [Cmd.nvSent]) _ _)

/-- A read of a usable store sends the records that it finds, in one write if one transfer carries them. -/
theorem nvReadNow_sends {u : State} (hu : NvWaits (s.nvStart slot) slot (c.nvSent s.nv) u) (hready : s.nv.ready = true)
    (hsome : s.nv.asked c ≠ []) (hle : OneWrite (c.opnd 2 0 48) (recWords (s.nv.asked c))) :
    Outgoing (u.nvReadNow slot) (c.opnd 2 0 48) (recWords (s.nv.asked c)) (.data slot true)
      (s.cmdPid c) := by
  obtain ⟨hcmd, hnv, hrings⟩ := hu
  have hfound : u.nv.found (c.nvSent s.nv) = s.nv.asked c := by rw [hnv]; exact found_nvSent s.nv c
  have hr : u.nv.ready = true := by rw [hnv]; exact hready
  have hnow : u.nvReadNow slot = u.nvWrite slot (c.nvSent s.nv) := by simp [nvReadNow_of_cmd hcmd, hr, hfound, hsome]
  have hpid : u.cmdPid (c.nvSent s.nv) = s.cmdPid c := by
    unfold State.cmdPid
    rw [hrings]
    rfl
  have hout := nvWrite_outgoing hcmd (by rw [hfound]; exact hle)
  rw [hfound, hpid] at hout
  rw [hnow]
  exact hout

/-- The dispatch of an NV_READ at an idle store reaches what its own reading brings about. -/
theorem nvStart_reaches (h : Chosen s slot 0x16 c) (hidle : s.nv.busy = false) {Q : State → Prop}
    (hown : ∀ u, NvWaits (s.nvStart slot) slot (c.nvSent s.nv) u → Q (u.nvReadNow slot))
    (hkeep : ∀ k u, Q u → Q (u.nvReadNow k)) : Q (s.nvStart slot).nvReads := by
  have hopc : c.opc = 0x16 := opc_of_chosen h
  exact nvReads_reaches (s := s.nvStart slot) hidle (cmd?_nvStart h) hopc rfl rfl hown hkeep

theorem nvReads_ended (h : Chosen s slot 0x16 c) (hready : s.nv.ready = true) (hidle : s.nv.busy = false)
    (hnone : s.nv.asked c = []) : Ended (s.nvStart slot).nvReads slot .done 0 :=
  nvStart_reaches h hidle (Q := fun t => Ended t slot .done 0) (fun _ hu => nvReadNow_ended hu hready hnone)
    (fun k _ hu => nvReadNow_keeps_ended hu k)

theorem nvReads_sends (h : Chosen s slot 0x16 c) (hready : s.nv.ready = true) (hidle : s.nv.busy = false)
    (hsome : s.nv.asked c ≠ []) (hle : OneWrite (c.opnd 2 0 48) (recWords (s.nv.asked c))) :
    Outgoing (s.nvStart slot).nvReads (c.opnd 2 0 48) (recWords (s.nv.asked c)) (.data slot true) (s.cmdPid c) :=
  nvStart_reaches h hidle (Q := fun t => Outgoing t _ _ _ _) (fun _ hu => nvReadNow_sends hu hready hsome hle)
    (fun k _ hu => nvReadNow_keeps_outgoing hu k)

/-- NV_READ is refused at its validation while the store cannot be used, or past the 512 slots (R449). -/
theorem nvRead_refused (h : Arrived s slot 0x16 c) (hscope : s.inScope c = true) (hbuf : c.opnd 2 0 7 = 0)
    (hlo : 1 ≤ c.opnd 3 9 10) (hhi : c.opnd 3 9 10 ≤ 512) {st : Status} (hcheck : nvCheck c s = some (st, 0)) :
    ∃ t, exec (.nvRead slot) s = .next t ∧ Completed s t slot st 0 := by
  have hlimits : (c.opnd 2 0 7 == 0 && inR 1 512 (c.opnd 3 9 10)) = true := by simp [inR, hbuf, hlo, hhi]
  refine ⟨_, congrArg Host.Outcome.next (opRow_of_refused h hscope hlimits hcheck _), ?_⟩
  obtain ⟨⟨_, hcmd, _, hstage⟩, _⟩ := h
  exact complete_completed hcmd (by simp [hstage]) _ _

end NvRead

/-! ## The rows together -/

/-- Settles O15: each row is its dispatch (`opRow_of_chosen`) followed by the transfers that it starts; an NV_READ is one of
those that wait for the store, and the others leave what it rests on (`nvReads_reaches`). -/
theorem readingCommandsComplete : Obligations.ReadingCommandsComplete := by
  intro slot c s
  refine ⟨callSheetLoad_reads, contextOpen_reads, ?_, ?_, ?_, ?_, ?_⟩
  · intro h hctx hst hclosing hlen
    have hload : (s.cx c.ctx).noLoad = false := by simp [Context.noLoad, hst, hclosing, hlen]
    obtain ⟨t, hrow, hrun, hcx, hread⟩ := reelLoad_joins h hctx hload
    exact ⟨t, hrow, hrun, congrArg Context.loads hcx, hread⟩
  · intro h hbad
    exact reelLoad_refused h (by simpa [Context.noLoad, Option.isSome_iff_ne_none, or_assoc] using hbad)
  · rintro ws h rfl
    refine ⟨_, exec_telemetryRead_of_chosen h, ⟨_, by rw [writeLong_cmd?]; exact cmd?_telStart h, rfl⟩, ?_,
      telWrite_sends h, fun hlt => ?_⟩
    · intro x hx
      rw [writeLong_cmd?, cmd?_telStart h] at hx
      exact Option.some.inj hx ▸ rfl
    · exact writeSrc_telStart h false ▸ writeLong_outgoing_of_lt hlt _ _ _
  · intro h hscope hbuf hlo hhi
    exact ⟨fun hready => nvRead_refused h hscope hbuf hlo hhi (by simp [nvCheck, hready, badState]),
      fun hready hmany => nvRead_refused h hscope hbuf hlo hhi (by simp [nvCheck, hready, hmany])⟩
  · rintro l h hready rfl
    refine ⟨_, exec_nvRead_of_chosen h, nvReads_nv _, fun hbusy => ?_, nvReads_ended h hready, nvReads_sends h hready⟩
    rw [nvReads_of_busy (s := s.nvStart slot) hbusy]
    exact ⟨⟨_, cmd?_nvStart h, rfl⟩, rfl⟩

end Sys2Proof.Machine
end

section
/-! PROOFS. Rows of one cell, of one cluster's carrier and of one cluster's timers change that cluster alone. -/

namespace Sys2Proof.Machine
open Sys2Proof

/-! ## What stays in one cluster -/

/-- From `s` to `t` nothing changes but cluster `n`. -/
def InClu (n : CluIx) (s t : State) : Prop :=
  t = { s with clu := t.clu } ∧ ∀ j : CluIx, j ≠ n → t.cl j = s.cl j

/-- From `s` to `t` nothing changes but cluster `n`, elapsed time and what is counted with it. -/
def InCluTime (n : CluIx) (s t : State) : Prop :=
  t = { s with clu := t.clu, elapsed := t.elapsed, pow := t.pow } ∧ ∀ j : CluIx, j ≠ n → t.cl j = s.cl j

section InClu
variable {n : CluIx} {s t u : State}

theorem InClu.refl (n : CluIx) (s : State) : InClu n s s := ⟨rfl, fun _ _ => rfl⟩

theorem InClu.trans (hst : InClu n s t) (htu : InClu n t u) : InClu n s u := by
  obtain ⟨ht, hother⟩ := hst
  obtain ⟨hu, hother'⟩ := htu
  rw [ht] at hu
  exact ⟨hu, fun j hj => (hother' j hj).trans (hother j hj)⟩

theorem InClu.time (h : InClu n s t) : InCluTime n s t := by
  obtain ⟨ht, hother⟩ := h
  refine ⟨?_, hother⟩
  rw [ht]

theorem InCluTime.trans (hst : InCluTime n s t) (htu : InCluTime n t u) : InCluTime n s u := by
  obtain ⟨ht, hother⟩ := hst
  obtain ⟨hu, hother'⟩ := htu
  rw [ht] at hu
  exact ⟨hu, fun j hj => (hother' j hj).trans (hother j hj)⟩

theorem inClu_modCl (n : CluIx) (f : Cluster → Cluster) (s : State) : InClu n s (s.modCl n f) :=
  ⟨rfl, fun j hj => cl_modCl_ne s n j f fun h => hj (Fin.ext h.symm)⟩

theorem inClu_modCell (n : CluIx) (k : Nat) (f : Cell → Cell) (s : State) : InClu n s (s.modCell n k f) := inClu_modCl n _ s

theorem inClu_modHalf (n : CluIx) (h : Nat) (f : Half → Half) (s : State) : InClu n s (s.modHalf n h f) := inClu_modCl n _ s

theorem inClu_each {α : Type} {f : α → State → State} (hf : ∀ x s, InClu n s (f x s)) (l : List α) (s : State) :
    InClu n s (each l f s) := by
  induction l generalizing s with
  | nil => exact .refl n s
  | cons x l ih => exact (hf x s).trans (ih (f x s))

theorem inClu_accrue (n : CluIx) (s : State) : InClu n s (s.accrue n) :=
  (inClu_each (fun h u => inClu_modHalf n h _ u) (s.hs n) s).trans (inClu_modCl n _ _)

theorem inCluTime_advanceTo (n : CluIx) (T : Nat) (s : State) : InCluTime n s (s.advanceTo T) := by
  refine ⟨?_, fun j _ => advanceTo_cl T s j⟩
  unfold State.advanceTo
  split <;> rfl

end InClu

/-! ## Rows of one cell -/

/-- From `s` to `u` nothing happens but that time may pass. -/
def Later (s u : State) : Prop := u = s ∨ ∃ T, u = s.advanceTo T

/-- What an event of cell `n.k` may do: nothing, or a change of that cell, at once or at an instant of its own. -/
def CellRow (n : CluIx) (k : CellIx) (s t : State) : Prop := t = s ∨ ∃ u f, Later s u ∧ t = u.modCell n k f

section CellRow
variable {n : CluIx} {k : CellIx} {s t u : State}

theorem Later.refl (s : State) : Later s s := .inl rfl

theorem later_advanceTo (T : Nat) (s : State) : Later s (s.advanceTo T) := .inr ⟨T, rfl⟩

theorem Later.ite {c : Prop} [Decidable c] (ht : Later s t) (hu : Later s u) : Later s (if c then t else u) := by
  split <;> assumption

theorem Later.inCluTime (h : Later s u) (n : CluIx) : InCluTime n s u := by
  obtain rfl | ⟨T, rfl⟩ := h
  · exact (InClu.refl n _).time
  · exact inCluTime_advanceTo n T s

theorem Later.cell (h : Later s u) (m j : Nat) : u.cell m j = s.cell m j := by
  obtain rfl | ⟨T, rfl⟩ := h
  · rfl
  · exact advanceTo_cell T s m j

theorem CellRow.refl (n : CluIx) (k : CellIx) (s : State) : CellRow n k s s := .inl rfl

theorem Later.cellRow (h : Later s u) (f : Cell → Cell) : CellRow n k s (u.modCell n k f) := .inr ⟨u, f, h, rfl⟩

theorem CellRow.ite {c : Prop} [Decidable c] (ht : CellRow n k s t) (hu : CellRow n k s u) :
    CellRow n k s (if c then t else u) := by
  split <;> assumption

theorem CellRow.inCluTime (h : CellRow n k s t) : InCluTime n s t := by
  obtain rfl | ⟨u, f, hu, rfl⟩ := h
  · exact (InClu.refl n _).time
  · exact (hu.inCluTime n).trans (inClu_modCell n k f u).time

theorem CellRow.other_cells (h : CellRow n k s t) (j : CellIx) (hj : j ≠ k) : t.cell n j = s.cell n j := by
  obtain rfl | ⟨u, f, hu, rfl⟩ := h
  · rfl
  · rw [cell_modCell_ne u n k n j f (.inr fun e => hj (Fin.ext e.symm)), hu.cell]

end CellRow

/-- The rows of a cell that act at once. -/
def rowsAtOnce (n : CluIx) (k : CellIx) (x y : Nat) : List Instr :=
  [.cellVinStop n k x, .cellVinResume n k x y, .truncation n k x, .truncationEnd n k x, .shunt n k x]

/-- The rows of a cell that act at an instant of their own. -/
def rowsAtInstant (n : CluIx) (k : CellIx) (x : Nat) (m : PeriodMeas) : List Instr :=
  [.kickEnd n k x, .kickRearm n k, .shuntEnd n k x, .overloadTimer n k, .hiccupHold n k m, .retryReset n k, .shuntRearm n k]

section Rows
variable {n : CluIx} {k : CellIx} {x y : Nat} {m : PeriodMeas} {i : Instr} {s t : State}

theorem cellRow_at_once (hi : i ∈ rowsAtOnce n k x y) (h : exec i s = .next t) : CellRow n k s t ∧ InClu n s t := by
  have hrow {c : Prop} [Decidable c] (f : Cell → Cell) :
      CellRow n k s (if c then s else s.modCell n k f) ∧ InClu n s (if c then s else s.modCell n k f) := by
    split
    · exact ⟨.refl n k s, .refl n s⟩
    · exact ⟨(Later.refl s).cellRow f, inClu_modCell n k f s⟩
  simp only [rowsAtOnce, List.mem_cons, List.not_mem_nil, or_false] at hi
  obtain rfl | rfl | rfl | rfl | rfl := hi <;> obtain rfl := Host.Outcome.next.inj h
  · exact hrow _
  · exact hrow _
  all_goals exact ⟨(Later.refl s).cellRow _, inClu_modCell n k _ s⟩

theorem cellRow_at_instant (hi : i ∈ rowsAtInstant n k x m) (h : exec i s = .next t) : CellRow n k s t := by
  simp only [rowsAtInstant, List.mem_cons, List.not_mem_nil, or_false] at hi
  obtain rfl | rfl | rfl | rfl | rfl | rfl | rfl := hi <;> obtain rfl := Host.Outcome.next.inj h
  · exact .ite (.refl n k s) ((Later.ite (.refl s) (later_advanceTo _ s)).cellRow _)
  · exact .ite (.refl n k s) ((later_advanceTo _ s).cellRow _)
  · exact .ite (.refl n k s) ((Later.ite (.refl s) (later_advanceTo _ s)).cellRow _)
  · split
    · exact .refl n k s
    · exact (later_advanceTo _ s).cellRow _
  · exact .ite (.refl n k s) ((later_advanceTo _ s).cellRow _)
  · dsimp only
    split
    · exact .refl n k s
    · exact .ite ((later_advanceTo _ s).cellRow _) (.refl n k s)
  · exact .ite (.refl n k s) ((later_advanceTo _ s).cellRow _)

/-- A start that is done counts the ledger's budgets first. -/
theorem startDone_frame (h : exec (.startDone n k x) s = .next t) :
    InClu n s t ∧ ∀ j : CellIx, j ≠ k → t.cell n j = s.cell n j := by
  obtain rfl := Host.Outcome.next.inj h
  refine ⟨(inClu_accrue n s).trans (inClu_modCell n k _ _), fun j hj => ?_⟩
  rw [cell_modCell_ne _ n k n j _ (.inr fun e => hj (Fin.ext e.symm)), State.cell_eq_of_cells (State.accrue_cells n s)]

/-! ## Rows of a cluster's carrier and timers -/

theorem inClu_setCarr (n : CluIx) (c : Carrier) (s : State) : InClu n s (s.setCarr n c) := inClu_modCl n _ s

theorem carrierRow_frame (hi : i ∈ [Instr.syncLoss n, .ditherStep n]) (h : exec i s = .next t) : InClu n s t := by
  simp only [List.mem_cons, List.not_mem_nil, or_false] at hi
  obtain rfl | rfl := hi <;> obtain rfl := Host.Outcome.next.inj h
  · unfold State.syncLost
    dsimp only
    split
    · exact inClu_setCarr n _ s
    · exact .refl n s
  · dsimp only
    split
    · exact .refl n s
    · exact inClu_setCarr n _ s

/-- From `s` to `t` nothing changes but cluster `n`, time, and what has been seen of ZN_SYNC_IN. -/
def InCluSync (n : CluIx) (s t : State) : Prop :=
  t = { s with clu := t.clu, sync := t.sync, freeCtr := t.freeCtr, elapsed := t.elapsed, pow := t.pow } ∧
    ∀ j : CluIx, j ≠ n → t.cl j = s.cl j

theorem InCluTime.sync (h : InCluTime n s t) : InCluSync n s t := by
  obtain ⟨ht, hother⟩ := h
  refine ⟨?_, hother⟩
  rw [ht]

theorem InCluSync.trans {u : State} (hst : InCluSync n s t) (htu : InCluSync n t u) : InCluSync n s u := by
  obtain ⟨ht, hother⟩ := hst
  obtain ⟨hu, hother'⟩ := htu
  rw [ht] at hu
  exact ⟨hu, fun j hj => (hother' j hj).trans (hother j hj)⟩

theorem inCluSync_syncSeen (n : CluIx) (hz : Nat) (s : State) : InCluSync n s (s.syncSeen hz) := by
  unfold State.syncSeen
  dsimp only
  split <;> exact ⟨rfl, fun _ _ => rfl⟩

theorem inCluSync_follow (n : CluIx) (hz : Nat) (s : State) : InCluSync n s (s.follow_ n hz) :=
  (inCluSync_syncSeen n hz s).trans (inClu_setCarr n _ _).time.sync

theorem syncRow_frame (hi : i ∈ [Instr.syncQualified n x, .syncLock n x]) (h : exec i s = .next t) : InCluSync n s t := by
  have hrefl : InCluSync n s s := (InClu.refl n s).time.sync
  simp only [List.mem_cons, List.not_mem_nil, or_false] at hi
  obtain rfl | rfl := hi <;> obtain rfl := Host.Outcome.next.inj h
  · dsimp only
    split
    · exact hrefl
    · exact inCluSync_follow n x s
  · dsimp only
    split
    · exact hrefl
    · split
      · exact inCluSync_follow n x s
      · exact ((inCluTime_advanceTo n _ s).sync.trans (inCluSync_syncSeen n x _)).trans (inClu_setCarr n _ _).time.sync

theorem timerRow_frame (hi : i ∈ [Instr.openWireTest n, .sliceBoundary n]) (h : exec i s = .next t) : InCluTime n s t := by
  simp only [List.mem_cons, List.not_mem_nil, or_false] at hi
  obtain rfl | rfl := hi
  · obtain rfl := Host.Outcome.next.inj h
    dsimp only
    split
    · exact (InClu.refl n s).time
    · exact (inCluTime_advanceTo n _ s).trans (inClu_modCl n _ _).time
  · change execSliceBoundary n s = _ at h
    unfold execSliceBoundary at h
    dsimp only at h
    split at h <;> obtain rfl := Host.Outcome.next.inj h
    · exact (inCluTime_advanceTo n _ s).trans (inClu_modCl n _ _).time
    · exact (InClu.refl n s).time

theorem inClu_stepWin (n : CluIx) (h : Nat) (s : State) : InClu n s (s.stepWin n h) := by
  unfold State.stepWin
  split
  · exact .refl n s
  · exact (inClu_accrue n s).trans (inClu_modHalf n h _ _)

/-- A ledger event whose cycle nothing waits for waits itself, or acts, at its instant. -/
theorem ledgerEvent_cases {c : Instr} {r : Nat} (hc : s.ledgerOf c = some (↑n, r)) (hd : (s.cl n).led.defer = []) :
    ∃ u, Later s u ∧ ((∃ f, s.ledgerEvent c = u.modCl n f) ∨ s.ledgerEvent c = u.ledgerDo c) := by
  unfold State.ledgerEvent
  rw [hc]
  cases s.ledgerAt c with
  | none =>
    refine ⟨s, .refl s, ?_⟩
    dsimp only
    rw [hd]
    split
    · exact .inl ⟨_, rfl⟩
    · exact .inr rfl
  | some T =>
    refine ⟨s.advanceTo T, later_advanceTo T s, ?_⟩
    dsimp only
    rw [advanceTo_cl, hd]
    split
    · exact .inl ⟨_, rfl⟩
    · exact .inr rfl

/-- STEP_WIN_EXPIRY with no event of its cycle waiting waits itself or acts. -/
theorem stepWinExpiry_frame {h : HalfIx} (hd : (s.cl n).led.defer = []) (he : exec (.stepWinExpiry n h) s = .next t) :
    InCluTime n s t := by
  obtain ⟨u, hu, ⟨f, hdo⟩ | hdo⟩ := ledgerEvent_cases (c := .stepWinExpiry n h) rfl hd <;>
    obtain rfl := Host.Outcome.next.inj (he.symm.trans (congrArg Host.Outcome.next hdo))
  · exact (hu.inCluTime n).trans (inClu_modCl n f u).time
  · exact (hu.inCluTime n).trans (inClu_stepWin n h u).time

end Rows

/-- Settles O57: a row of a cell is a change of that cell (`CellRow`), and the other rows are changes of their cluster, some
of them at an instant of their own. -/
theorem cellRowsStayInTheirCluster : Obligations.CellRowsStayInTheirCluster := by
  intro n k x y m h i s t he
  refine ⟨fun hi => ?_, fun hi => syncRow_frame hi he, fun hi => ?_, ?_, fun hi => ?_⟩
  · have hrow : i ∈ rowsAtOnce n k x y ∨ i ∈ [Instr.syncLoss n, .ditherStep n] ∨ i = .startDone n k x := by
      simp only [rowsAtOnce, List.mem_cons, List.not_mem_nil, or_false] at hi ⊢
      tauto
    obtain hrow | hrow | rfl := hrow
    · exact (cellRow_at_once hrow he).2
    · exact carrierRow_frame hrow he
    · exact (startDone_frame he).1
  · have hrow : i ∈ rowsAtInstant n k x m ∨ i ∈ [Instr.openWireTest n, .sliceBoundary n] := by
      simp only [rowsAtInstant, List.mem_cons, List.not_mem_nil, or_false] at hi ⊢
      tauto
    obtain hrow | hrow := hrow
    · exact (cellRow_at_instant hrow he).inCluTime
    · exact timerRow_frame hrow he
  · rintro rfl hd
    exact stepWinExpiry_frame hd he
  · have hrow : i ∈ rowsAtOnce n k x y ∨ i ∈ rowsAtInstant n k x m ∨ i = .startDone n k x := by
      simp only [rowsAtOnce, rowsAtInstant, List.mem_cons, List.not_mem_nil, or_false] at hi ⊢
      tauto
    obtain hrow | hrow | rfl := hrow
    · exact (cellRow_at_once hrow he).1.other_cells
    · exact (cellRow_at_instant hrow he).other_cells
    · exact (startDone_frame he).2

end Sys2Proof.Machine
end

section
/-! PROOFS. The power cell by itself (chapter 03): what an event of a cell leaves of the others, and the rows of its fast paths. -/

namespace Sys2Proof.Machine
open Sys2Proof

/-! ## One cell of the block -/

section OneCell
variable (s : State) (n : CluIx) (k : CellIx) (f : Cell → Cell)

/-- A cell after its change. -/
@[simp] theorem cell_modCell_ix : (s.modCell n k f).cell n k = f (s.cell n k) := cell_modCell s n k f n.isLt k.isLt

/-- The capture that a kick requests lies in the sense unit. -/
@[simp] theorem capture_cells (n k : Nat) : (s.capture n k).cells = s.cells := by
  unfold State.capture
  split
  · rfl
  · exact State.modCl_cells _ _ _ fun _ => rfl

@[simp] theorem capture_cell (n k m j : Nat) : (s.capture n k).cell m j = s.cell m j :=
  State.cell_eq_of_cells (capture_cells s n k) m j

/-- A cell after an event of its own; the retake windows lie elsewhere. -/
@[simp] theorem cell_cellEvent : (s.cellEvent n k f).cell n k = f (s.cell n k) := by
  rw [State.cellEvent, State.cell_eq_of_cells (State.noteParks_cells _ _), cell_modCell_ix]

/-- A raise of a code that is not FATAL changes no cell. -/
theorem raise_cell {code : Nat} (h : fltClass code ≠ some 4) (sc : Scope) (d m j : Nat) :
    (s.raise code sc d).cell m j = s.cell m j :=
  State.cell_eq_of_cells (State.raise_cells code sc d s h) m j

@[simp] theorem phaseTrig_cells (n k t0 : Nat) : (s.phaseTrig n k t0).cells = s.cells := by
  unfold State.phaseTrig
  split
  · rfl
  · exact State.trigOpen_cells _ _ _ _ _

@[simp] theorem phaseTrig_cell (n k t0 m j : Nat) : (s.phaseTrig n k t0).cell m j = s.cell m j :=
  State.cell_eq_of_cells (phaseTrig_cells s n k t0) m j

/-- A change of a cluster that spares its cells. -/
theorem cell_modCl_of_cells {f : Cluster → Cluster} (h : ∀ c, (f c).cells = c.cells) (n m j : Nat) :
    (s.modCl n f).cell m j = s.cell m j :=
  State.cell_eq_of_cells (State.modCl_cells s n f h) m j

@[simp] theorem trigAt_cell (d : Option Nat) (cause unit t0 t1 m j : Nat) :
    (s.trigAt d cause unit t0 t1).cell m j = s.cell m j :=
  State.cell_eq_of_cells (State.trigAt_cells d cause unit t0 t1 s) m j

end OneCell

/-! ## Fast paths (R85 to R89) -/

section FastPaths
variable {s : State} {n : CluIx} {k : CellIx} {v : Nat}

/-- A kick acts on its cell, and its capture on the sense unit alone. -/
theorem exec_kick_of_trips (hvin : (s.cell n k).vinStop = false) (htrip : (s.cell n k).kickTrips (s.cellTh n k) v = true) :
    ∃ t, exec (.kick n k v) s = .next t ∧ t.cell n k = (s.cell n k).kick (s.cellTh n k) s.elapsed := by
  refine ⟨_, rfl, ?_⟩
  simp [State.kickNow, hvin, htrip]

/-- A kick ends at its recovery or when KICK_T has run out, whichever comes first. -/
theorem exec_kickEnd_of_on (hon : (s.cell n k).fast.kickOn = true) :
    ∃ t, exec (.kickEnd n k v) s = .next t ∧ t.cell n k = { s.cell n k with fast := { (s.cell n k).fast with
      kickOn := false, kickRearmAt := min (s.cell n k).fast.kickBy (2 * t.elapsed) + 2 * (s.cellTh n k).kickRearm } } := by
  refine ⟨_, rfl, ?_⟩
  by_cases h : (s.cell n k).refUv < v + 1000 * (s.cellTh n k).droopTh <;> simp [hon, h]

theorem exec_kickRearm_of_off (hoff : (s.cell n k).fast.kickOn = false) (harm : (s.cell n k).fast.kickArmed = false) :
    ∃ t, exec (.kickRearm n k) s = .next t ∧ (t.cell n k).fast.kickArmed = true ∧
      t.elapsed = max s.elapsed (cdiv (s.cell n k).fast.kickRearmAt 2) := by
  refine ⟨_, rfl, ?_⟩
  simp [hoff, harm]

theorem exec_truncation_of_trips (hvin : (s.cell n k).vinStop = false)
    (htrip : (s.cell n k).truncTrips (s.cellTh n k) v = true) :
    ∃ t, exec (.truncation n k v) s = .next t ∧ (t.cell n k).fast.truncOn = true ∧ (t.cell n k).bits.trunc = true ∧
      (t.cell n k).fast.nTrunc = (s.cell n k).fast.nTrunc + 1 := by
  refine ⟨_, rfl, ?_⟩
  simp [State.truncNow, hvin, htrip]

/-- The duty word held during truncation takes effect at its end (R88). -/
theorem exec_truncationEnd_of_held {d f : Nat} (hon : (s.cell n k).fast.truncOn = true)
    (hv : v < (s.cell n k).refUv + 2000 * (s.cellTh n k).ovsTh) (hheld : (s.cell n k).fast.heldDuty = some (d, f)) :
    ∃ t, exec (.truncationEnd n k v) s = .next t ∧ (t.cell n k).fast.truncOn = false ∧ (t.cell n k).duty = d ∧
      (t.cell n k).frac = f := by
  refine ⟨_, rfl, ?_⟩
  simp [hon, hv, hheld]

theorem exec_shunt_of_trips (hvin : (s.cell n k).vinStop = false)
    (htrip : (s.cell n k).shuntTrips (s.cellTh n k) v = true) :
    ∃ t, exec (.shunt n k v) s = .next t ∧ (t.cell n k).fast.shuntOn = true ∧ (t.cell n k).bits.shunt = true ∧
      (t.cell n k).fast.nShunt = (s.cell n k).fast.nShunt + 1 := by
  refine ⟨_, rfl, ?_⟩
  simp [State.shuntNow, hvin, htrip]

/-- A shunt ends at its recovery or when SHUNT_T has run out; it is armed again 50 ns later. -/
theorem exec_shuntEnd_of_on (hon : (s.cell n k).fast.shuntOn = true) :
    ∃ t, exec (.shuntEnd n k v) s = .next t ∧ (t.cell n k).fast.shuntOn = false ∧
      (t.cell n k).fast.shuntRearmAt = t.elapsed + 50 := by
  refine ⟨_, rfl, ?_⟩
  by_cases h : v < (s.cell n k).refUv + 2000 * (s.cellTh n k).ovsTh <;> simp [hon, h]

theorem exec_shuntRearm_of_off (hoff : (s.cell n k).fast.shuntOn = false) (harm : (s.cell n k).fast.shuntArmed = false) :
    ∃ t, exec (.shuntRearm n k) s = .next t ∧ (t.cell n k).fast.shuntArmed = true ∧
      t.elapsed = max s.elapsed (s.cell n k).fast.shuntRearmAt := by
  refine ⟨_, rfl, ?_⟩
  simp [hoff, harm]

end FastPaths

/-- Settles O28: each clause is its row's rule. -/
theorem fastPathsComplete : Obligations.FastPathsComplete := by
  intro n k v s
  refine ⟨fun hvin htrip => ?_, fun hon => ?_, exec_kickRearm_of_off, exec_truncation_of_trips,
    fun hon hv _ _ => exec_truncationEnd_of_held hon hv, exec_shunt_of_trips, exec_shuntEnd_of_on, exec_shuntRearm_of_off⟩
  · obtain ⟨t, ht, hcell⟩ := exec_kick_of_trips hvin htrip
    exact ⟨t, ht, by simp [hcell, Cell.kick]⟩
  · obtain ⟨t, ht, hcell⟩ := exec_kickEnd_of_on (v := v) hon
    exact ⟨t, ht, by simp [hcell]⟩



/-! ## Phase-failure detectors (R78, R99, Table 3-10) -/

section Detectors
variable {s : State} {n : CluIx} {k : CellIx} {p : Nat}

/-- Below its count a detector of a watched cell only counts. -/
theorem exec_detectors_count (hw : (s.cell n k).watched = true) :
    (p < 2 → exec (.stuckSwitch n k p) s =
      .next (s.modCell n k fun c => { c with prot := { c.prot with stuckN := p } })) ∧
    (p < (s.cellTh n k).noswN → exec (.noSwitching n k p) s =
      .next (s.modCell n k fun c => { c with prot := { c.prot with noswN := p } })) ∧
    (p < (s.cellTh n k).openN → exec (.openPhase n k p) s =
      .next (s.modCell n k fun c => { c with prot := { c.prot with openN := p } })) ∧
    (p < (s.cellTh n k).senseN → exec (.senseImplausible n k p) s =
      .next (s.modCell n k fun c => { c with prot := { c.prot with senseN := p } })) := by
  refine ⟨fun h => ?_, fun h => ?_, fun h => ?_, fun h => ?_⟩
  · show execStuckSwitch n k p s = _
    simp [execStuckSwitch, hw, h]
  · show execNoSwitching n k p s = _
    simp [execNoSwitching, hw, h]
  · show execOpenPhase n k p s = _
    simp [execOpenPhase, hw, h]
  · show execSenseImplausible n k p s = _
    simp [execSenseImplausible, hw, h]

/-- At its count a stuck switch disables the cell, whatever else the period has. -/
theorem exec_stuckSwitch_disables (hw : (s.cell n k).watched = true) (hp : 2 ≤ p) :
    ∃ t, exec (.stuckSwitch n k p) s = .next t ∧ t.cell n k = (s.cell n k).toDisabled s.elapsed 3 := by
  refine ⟨_, rfl, ?_⟩
  simp [hw, Nat.not_lt.mpr hp, raise_cell _ (show fltClass 0x003 ≠ some 4 by decide)]

/-- No switching and open phase give way to an event of a higher rank in the period (R78). -/
theorem exec_noSwitching_at_count (hw : (s.cell n k).watched = true) (hp : (s.cellTh n k).noswN ≤ p) :
    (s.cellTop n k < 2 → exec (.noSwitching n k p) s = .next s) ∧
    (2 ≤ s.cellTop n k → ∃ t, exec (.noSwitching n k p) s = .next t ∧
      t.cell n k = (s.cell n k).toDisabled s.elapsed 4) := by
  refine ⟨fun htop => ?_, fun htop => ⟨_, rfl, ?_⟩⟩
  · show execNoSwitching n k p s = _
    simp [execNoSwitching, hw, Nat.not_lt.mpr hp, htop]
  · simp [hw, Nat.not_lt.mpr hp, Nat.not_lt.mpr htop, raise_cell _ (show fltClass 0x004 ≠ some 4 by decide)]

theorem exec_openPhase_at_count (hw : (s.cell n k).watched = true) (hp : (s.cellTh n k).openN ≤ p) :
    (s.cellTop n k < 2 → exec (.openPhase n k p) s = .next s) ∧
    (2 ≤ s.cellTop n k → ∃ t, exec (.openPhase n k p) s = .next t ∧
      t.cell n k = (s.cell n k).toDisabled s.elapsed 2) := by
  refine ⟨fun htop => ?_, fun htop => ⟨_, rfl, ?_⟩⟩
  · show execOpenPhase n k p s = _
    simp [execOpenPhase, hw, Nat.not_lt.mpr hp, htop]
  · simp [State.openPhase, hw, Nat.not_lt.mpr hp, Nat.not_lt.mpr htop,
      raise_cell _ (show fltClass 0x002 ≠ some 4 by decide)]

/-- The retake windows of an implausible sense lie outside the cells: the mark is all that a cell gets. -/
theorem exec_senseImplausible_at_count (hw : (s.cell n k).watched = true) (hp : (s.cellTh n k).senseN ≤ p)
    (hs : (s.cell n k).bits.senseSusp = false) :
    ∃ t, exec (.senseImplausible n k p) s = .next t ∧
      t.cell n k = { s.cell n k with bits := { (s.cell n k).bits with senseSusp := true } } := by
  refine ⟨_, rfl, ?_⟩
  simp only [hw, hs, Nat.not_lt.mpr hp, Bool.not_true, Bool.false_eq_true, if_false]
  split
  · rw [trigAt_cell, cell_modCl_of_cells, cell_modCell_ix]
    exact fun _ => rfl
  · rw [cell_modCl_of_cells, cell_modCell_ix]
    exact fun _ => rfl

end Detectors

/-- Settles O27: below its count a detector leaves the state of the cell; at it each clause is its row's rule. -/
theorem cellDetectorsAct : Obligations.CellDetectorsAct := by
  intro n k p s hw
  obtain ⟨hstuck, hnosw, hopen, hsense⟩ := exec_detectors_count (p := p) hw
  refine ⟨fun hp => ?_, fun hp htop => ?_, fun hp htop => ?_, fun htop => ⟨fun hp => ?_, fun hp => ?_⟩, fun hp hs => ?_,
    fun hp => ⟨_, hstuck hp, by simp⟩, fun hp => ⟨_, hnosw hp, by simp⟩, fun hp => ⟨_, hopen hp, by simp⟩,
    fun hp => ⟨_, hsense hp, by simp⟩⟩
  · obtain ⟨t, ht, hcell⟩ := exec_stuckSwitch_disables hw hp
    exact ⟨t, ht, by simp [hcell, Cell.toDisabled]⟩
  · obtain ⟨t, ht, hcell⟩ := (exec_noSwitching_at_count hw hp).2 htop
    exact ⟨t, ht, by simp [hcell, Cell.toDisabled]⟩
  · obtain ⟨t, ht, hcell⟩ := (exec_openPhase_at_count hw hp).2 htop
    exact ⟨t, ht, by simp [hcell, Cell.toDisabled]⟩
  · exact (exec_noSwitching_at_count hw hp).1 htop
  · exact (exec_openPhase_at_count hw hp).1 htop
  · obtain ⟨t, ht, hcell⟩ := exec_senseImplausible_at_count hw hp hs
    exact ⟨t, ht, by simp [hcell]⟩

/-! ## Over-current (R78, R90 to R92) -/

/-- Hiccup of a switching cell that retries nothing: no retry fails with it. -/
theorem Cell.hiccup_of_not_retrying {c : Cell} (hsw : c.st.switching = true) (hr : c.prot.retrying = false) (th : Thresh)
    (now : Nat) :
    (c.hiccup th now).2 = false ∧ (c.hiccup th now).1.st = .hiccup ∧
      (c.hiccup th now).1.prot.hiccBy = now + th.hiccupHold * 1000 ∧
      (c.hiccup th now).1.prot.fromPark = (c.st == .park) := by
  simp [Cell.hiccup, hsw, hr]

/-- The retry after a hold-off with the park level high: START, or PARK from PARK. -/
theorem Cell.retryNow_of_no_level (now : Nat) (m : PeriodMeas) (c : Cell) :
    (c.retryNow now false m).st = (if c.prot.fromPark then .park else .start) ∧
      (c.retryNow now false m).prot.retrying = true := by
  unfold Cell.retryNow
  cases h : c.prot.fromPark
  · exact ⟨rfl, rfl⟩
  · exact ⟨rfl, rfl⟩

section OverCurrent
variable {s : State} {n : CluIx} {k : CellIx}

theorem exec_overloadTimer_of_since {t0 : Nat} (h : (s.cell n k).prot.ovlSince = some t0) :
    ∃ t, exec (.overloadTimer n k) s = .next t ∧ (t.cell n k).prot.ovlExp = true ∧
      t.elapsed = max s.elapsed (t0 + (s.cellTh n k).ovlT * 1000) := by
  refine ⟨_, rfl, ?_⟩
  simp [h]

/-- Hiccup gives way to an event of a higher rank in the period (R78). -/
theorem exec_hiccup_outranked {cycles : Nat} (h : s.cellTop n k < 4) : exec (.hiccup n k cycles) s = .next s := by
  show execHiccup n k cycles s = _
  simp [execHiccup, h]

/-- At HICCUP_N limited cycles the cell does what `Cell.hiccup` says; the fault of a LATCHED one is raised outside it. -/
theorem exec_hiccup_at_count {cycles : Nat} (hw : (s.cell n k).watched = true) (hlevel : s.pins.park = false)
    (hc : (s.cellTh n k).hiccupN ≤ cycles) (htop : 4 ≤ s.cellTop n k) :
    ∃ t, exec (.hiccup n k cycles) s = .next t ∧ t.cell n k =
      (Cell.hiccup (s.cellTh n k) s.elapsed { s.cell n k with prot := { (s.cell n k).prot with limN := cycles } }).1 := by
  have hw' : (s.cell n k).st.switching = true ∧ (s.cell n k).vinStop = false := by simpa [Cell.watched] using hw
  have hgo : (!(s.cell n k).st.switching || (s.cell n k).vinStop || decide (s.cellTop n k < 4)) = false := by
    simp [hw', htop]
  refine ⟨_, rfl, ?_⟩
  simp only [hgo, hlevel, Nat.not_lt.mpr hc, Bool.false_and, Bool.false_eq_true, if_false]
  split
  · rw [raise_cell _ (by decide), cell_cellEvent]
  · rw [cell_cellEvent]

/-- The retry begins when the hold-off has run out (R91). -/
theorem exec_hiccupHold_of_hiccup {m : PeriodMeas} (hst : (s.cell n k).st = .hiccup) :
    ∃ t, exec (.hiccupHold n k m) s = .next t ∧ t.elapsed = max s.elapsed (s.cell n k).prot.hiccBy ∧
      t.cell n k = (s.cell n k).retryNow t.elapsed s.pins.park m := by
  refine ⟨_, rfl, ?_⟩
  simp [hst]

theorem exec_retryReset_of_clean {t0 : Nat} (hrun : (s.cell n k).st.running = true)
    (h : (s.cell n k).prot.cleanSince = some t0) :
    ∃ t, exec (.retryReset n k) s = .next t ∧ (t.cell n k).prot.retry = 0 ∧ t.elapsed = max s.elapsed (t0 + 100000) := by
  refine ⟨_, rfl, ?_⟩
  simp [h, hrun]

end OverCurrent

/-- Settles O29: hiccup and its hold-off move the cell as `Cell.hiccup` and `Cell.retryNow` say. -/
theorem overCurrentRowsComplete : Obligations.OverCurrentRowsComplete := by
  intro n k s
  refine ⟨fun _ => exec_overloadTimer_of_since, fun c hw hlevel hr hc htop => ?_, fun _ => exec_hiccup_outranked,
    fun m hst hlevel => ?_, fun _ => exec_retryReset_of_clean⟩
  · obtain ⟨t, ht, hcell⟩ := exec_hiccup_at_count hw hlevel hc htop
    have hsw : (s.cell n k).st.switching = true := by simp_all [Cell.watched]
    obtain ⟨-, hst, hby, hfrom⟩ := Cell.hiccup_of_not_retrying
      (c := { s.cell n k with prot := { (s.cell n k).prot with limN := c } }) hsw hr (s.cellTh n k) s.elapsed
    exact ⟨t, ht, by rw [hcell]; exact ⟨hst, hby, hfrom⟩⟩
  · obtain ⟨t, ht, helapsed, hcell⟩ := exec_hiccupHold_of_hiccup (m := m) hst
    obtain ⟨hst', hretry⟩ := Cell.retryNow_of_no_level t.elapsed m (s.cell n k)
    exact ⟨t, ht, by rw [hcell, hlevel]; exact ⟨hst', hretry, helapsed⟩⟩

/-! ## The rank of a row in its carrier period (R78) -/

section Rank
variable {s t : State} {n k : Nat}

/-- The rank reads of a cluster only its settings, its sensors and whether the cell is watched. -/
theorem cellRank_congr (hst : t = { s with clu := t.clu, freeCtr := t.freeCtr }) (hs1 : (t.cl n).s1 = (s.cl n).s1)
    (htherm : ∀ m, (t.cl m).therm = (s.cl m).therm) (hw : (t.cell n k).watched = (s.cell n k).watched) (c : Instr) :
    t.cellRank n k c = s.cellRank n k c := by
  have hth : t.cellTh n k = s.cellTh n k := by
    unfold State.cellTh
    rw [hs1, hst]
    rfl
  unfold State.cellRank
  dsimp only
  rw [hth, show ((t.cell n k).st.switching && !(t.cell n k).vinStop) = ((s.cell n k).st.switching && !(s.cell n k).vinStop) from hw]
  generalize ((s.cell n k).st.switching && !(s.cell n k).vinStop) = on
  cases c with
  | criticalTrip m e =>
    dsimp only
    rw [htherm, hst]
  | _ => rw [hst] <;> rfl

theorem cellTop_congr (hst : t = { s with clu := t.clu, freeCtr := t.freeCtr }) (hs1 : (t.cl n).s1 = (s.cl n).s1)
    (htherm : ∀ m, (t.cl m).therm = (s.cl m).therm) (hw : (t.cell n k).watched = (s.cell n k).watched)
    (hdis : (t.cell n k).disDue = (s.cell n k).disDue) : t.cellTop n k = s.cellTop n k := by
  have hpending : t.pending = s.pending := by rw [hst]
  unfold State.cellTop
  rw [hdis, hpending, funext fun c => cellRank_congr hst hs1 htherm hw c]

/-- A disable that waits for the carrier start has rank 2, so a period without events has none. -/
theorem disDue_of_cellTop (h : s.cellTop n k = 6) : (s.cell n k).disDue = false := by
  have hle (l : List Instr) (r : Nat) : l.foldl (fun r c => min r (s.cellRank n k c)) r ≤ r := by
    induction l generalizing r with
    | nil => exact le_rfl
    | cons c l ih => exact (ih _).trans (min_le_left _ _)
  by_contra hd
  have htop := hle (s.pending.takeWhile Instr.cellRow) 2
  rw [State.cellTop, if_pos (by simpa using hd)] at h
  omega

end Rank

/-! ## What happens at a carrier start before the word is heard (R63) -/

/-- What every cluster keeps under a change, a change of one cluster keeps of each. -/
theorem modCl_keeps {P : Cluster → Prop} {f : Cluster → Cluster} (hf : ∀ c, P c → P (f c)) {s : State} {m : Nat}
    (h : P (s.cl m)) (n : Nat) : P ((s.modCl n f).cl m) := by
  by_cases hnm : n = m
  · subst hnm
    by_cases hn : n < 64
    · rw [cl_modCl s n f hn]
      exact hf _ h
    · rwa [State.cl, State.modCl, vget_vmod_ge _ _ _ _ hn]
  · rwa [cl_modCl_ne s n m f hnm]

/-- `d` is cluster `c` with its halves and its ledger in another state. -/
def SameButLedger (c d : Cluster) : Prop := ∃ hs led, d = { c with halves := hs, led := led }

/-- The counting of a ledger's budgets changes of a cluster its halves and its ledger alone. -/
theorem accrue_cl (n m : Nat) (s : State) : SameButLedger (s.cl m) ((s.accrue n).cl m) := by
  refine modCl_keeps (P := SameButLedger (s.cl m)) ?_ ?_ n
  · rintro _ ⟨hs, led, rfl⟩
    exact ⟨hs, _, rfl⟩
  · refine each_keeps (P := fun u => SameButLedger (s.cl m) (u.cl m)) ?_ _ ⟨_, _, rfl⟩
    intro h u hu
    refine modCl_keeps (P := SameButLedger (s.cl m)) ?_ hu n
    rintro _ ⟨hs, led, rfl⟩
    exact ⟨_, led, rfl⟩

/-- A cell in PARK reports its park duty, which is all of the cell that a carrier start without an event touches. -/
theorem parkReport_frame (n : CluIx) (k : CellIx) (s : State) :
    s.parkReport n k = { s with clu := (s.parkReport n k).clu, freeCtr := (s.parkReport n k).freeCtr } ∧
      (∃ p, (s.parkReport n k).cell n k = { s.cell n k with parkDuty := p }) ∧
      ∀ m, ∃ cells, (s.parkReport n k).cl m = { s.cl m with cells := cells } := by
  unfold State.parkReport
  split
  · refine ⟨rfl, ⟨_, cell_modCell_ix _ n k _⟩, fun m => ?_⟩
    refine modCl_keeps (P := fun c => ∃ cells, c = { s.cl m with cells := cells }) ?_ ⟨_, rfl⟩ n
    rintro c ⟨cells, rfl⟩
    exact ⟨_, rfl⟩
  · exact ⟨rfl, ⟨_, rfl⟩, fun m => ⟨_, rfl⟩⟩

/-- The state in which a cell hears a word: at its carrier start, with its budgets counted and its park duty reported. -/
def State.heardAt (n : CluIx) (k : CellIx) (s : State) : State := ((s.carrierStart n k).accrue n).parkReport n k

section HeardAt
variable {n : CluIx} {k : CellIx} {s : State}

/-- At a carrier start with no disable due nothing that a word meets changes but the park duty. -/
theorem heardAt_of_not_due (hd : (s.cell n k).disDue = false) :
    s.heardAt n k = { s with clu := (s.heardAt n k).clu, freeCtr := (s.heardAt n k).freeCtr } ∧
      (∃ p, (s.heardAt n k).cell n k = { s.cell n k with parkDuty := p }) ∧
      (s.heardAt n k).cellTh n k = s.cellTh n k ∧ (s.heardAt n k).cellTop n k = s.cellTop n k := by
  have hstart : s.carrierStart n k = s := by simp [State.carrierStart, hd]
  obtain ⟨haccrue, -⟩ := inClu_accrue n s
  obtain ⟨hreport, ⟨p, hp⟩, hcl⟩ := parkReport_frame n k (s.accrue n)
  have hframe : s.heardAt n k = { s with clu := (s.heardAt n k).clu, freeCtr := (s.heardAt n k).freeCtr } := by
    unfold State.heardAt
    rw [hstart, hreport, haccrue]
  have hcell : (s.heardAt n k).cell n k = { s.cell n k with parkDuty := p } := by
    unfold State.heardAt
    rw [hstart, hp, State.cell_eq_of_cells (State.accrue_cells n s)]
  have hkeep (m : Nat) : ((s.heardAt n k).cl m).s1 = (s.cl m).s1 ∧ ((s.heardAt n k).cl m).therm = (s.cl m).therm := by
    unfold State.heardAt
    obtain ⟨cells, hm⟩ := hcl m
    obtain ⟨hs, led, ha⟩ := accrue_cl n m s
    rw [hstart, hm, ha]
    exact ⟨rfl, rfl⟩
  have hcsh : (s.heardAt n k).csh = s.csh := by rw [hframe]
  refine ⟨hframe, ⟨p, hcell⟩, ?_, cellTop_congr hframe (hkeep n).1 (fun m => (hkeep m).2) ?_ ?_⟩
  · unfold State.cellTh State.sheet
    rw [(hkeep n).1, hcsh]
  · simp [hcell, Cell.watched]
  · rw [hcell]

/-- The state in which a cell hears a word that an injected limit of its period has been taken from (14 Table 14-8). -/
def State.heardSpent (n : CluIx) (k : CellIx) (s : State) : State :=
  State.heardAt n k { s with flt := { s.flt with
    injects := s.flt.injects.filter fun i => !(i.kind == 4 && i.unit == uCell n k) } }

/-- The cell does what `Cell.word` says; a VIN dip may leave it no ballast, and a raise of LATCHED leaves it alone. -/
theorem exec_cellCommandWord (w : BitVec 40) (m : PeriodMeas) :
    ∃ t, exec (.cellCommandWord n k w m) s = .next t ∧ ∃ d, t.cell n k =
      { (((s.heardSpent n k).cell n k).word ((s.heardSpent n k).cellTh n k) (s.heardSpent n k).sheet.hdr.parkN
          (s.heardSpent n k).elapsed (s.heardSpent n k).pins.park ((s.heardSpent n k).cellTop n k) w
          { m with cbc := m.cbc || s.flt.injects.any fun i => i.kind == 4 && i.unit == uCell n k }).1 with drawn := d } := by
  refine ⟨_, rfl, ?_⟩
  unfold State.heardSpent State.heardAt
  dsimp only
  generalize State.parkReport n k _ = u
  generalize Cell.word _ _ _ _ _ _ _ _ = r
  have hraise (b : Bool) (v : State) : (v.injected b (State.raise 0x005 (.unit (uCell n k)) 0)).cells = v.cells :=
    State.injected_cells b _ v fun x => State.raise_cells _ _ _ x (by decide)
  have hcell : ∃ d, (u.cellEvent n k fun _ => if u.vin.frozen then { r.1 with drawn := 0 } else r.1).cell n k =
      { r.1 with drawn := d } := by
    rw [cell_cellEvent]
    split
    · exact ⟨0, rfl⟩
    · exact ⟨r.1.drawn, rfl⟩
  split
  · rwa [State.cell_eq_of_cells (hraise _ _)]
  · exact hcell

theorem heardSpent_of_no_injects (hinj : s.flt.injects = []) : s.heardSpent n k = s.heardAt n k := by
  have hs : ({ s with flt := { s.flt with injects := [] } } : State) = s := by rw [← hinj]
  rw [State.heardSpent, hinj, List.filter_nil, hs]

/-- A word without an injection, a limit or another event of its period (R78). -/
theorem exec_cellCommandWord_of_top (hinj : s.flt.injects = []) (htop : s.cellTop n k = 6) (w : BitVec 40) (m : PeriodMeas) :
    ∃ t p d, exec (.cellCommandWord n k w m) s = .next t ∧ t.cell n k =
      { (({ s.cell n k with parkDuty := p } : Cell).word (s.cellTh n k) s.sheet.hdr.parkN s.elapsed s.pins.park 6 w m).1 with
        drawn := d } := by
  obtain ⟨t, ht, d, hcell⟩ := exec_cellCommandWord (s := s) (n := n) (k := k) w m
  obtain ⟨hframe, ⟨p, hp⟩, hth, htop'⟩ := heardAt_of_not_due (disDue_of_cellTop htop)
  have hcsh : (s.heardAt n k).csh = s.csh := by rw [hframe]
  have hparkN : (s.heardAt n k).sheet.hdr.parkN = s.sheet.hdr.parkN := by rw [State.sheet, hcsh]; rfl
  have helapsed : (s.heardAt n k).elapsed = s.elapsed := by rw [hframe]
  have hpins : (s.heardAt n k).pins = s.pins := by rw [hframe]
  refine ⟨t, p, d, ht, ?_⟩
  rw [hcell, heardSpent_of_no_injects hinj, hp, hth, htop', htop, hinj, hparkN, helapsed, hpins]
  simp only [List.any_nil, Bool.or_false]

end HeardAt
/-! ## The word at the cell (R63, R66, R78) -/

section Word
variable {th : Thresh} {parkN now : Nat} {w : BitVec 40} {m : PeriodMeas} {x : CellWord} {c : Cell}

/-- A period in which nothing limits the cell and no kick acts: its current and its reference give no limited cycle. -/
structure Quiet (m : PeriodMeas) (c : Cell) : Prop where
  cbc : m.cbc = false
  imean : m.imean ≤ 5000
  forced : c.fast.forced = false
  vin : c.vinStop = false ∨ c.prot.limN = 0

/-- What a period changes of a cell: its pulses, its limits and the bits of its clamps. -/
theorem period_of_quiet (h : Quiet m c) (th : Thresh) (now : Nat) :
    ∃ pulse prot bits, c.period th now m = { c with pulse, prot, bits } ∧ prot.missN = c.prot.missN ∧
      (c.st.switching = true → prot.limN = 0) := by
  obtain ⟨hcbc, himean, hforced, hvin⟩ := h
  have hfast : { c.fast with forced := false } = c.fast := by rw [← hforced]
  unfold Cell.period
  split
  case isTrue =>
    dsimp only
    rw [hfast]
    exact ⟨_, _, _, rfl, rfl, fun _ => by simp [hcbc, hforced, not_lt.2 himean]⟩
  case isFalse hoff =>
    exact ⟨_, _, _, rfl, rfl, fun hon => hvin.resolve_left (by simpa [hon] using hoff)⟩

/-- What every valid word latches, whatever its MODE does then. -/
theorem latch_eq (th : Thresh) (x : CellWord) (c : Cell) :
    ∃ bal prot bits mode shadow flt refUv,
      c.latch th x = { c with vref := x.vref, bal, prot, bits, mode, shadow, flt, refUv } ∧ prot.missN = 0 ∧
        prot.limN = c.prot.limN ∧ (c.st.running = true → shadow = x.shadow) := by
  unfold Cell.latch
  dsimp only
  split
  case h_1 h | h_2 h | h_3 h => exact ⟨_, _, _, _, _, _, _, rfl, rfl, rfl, by simp [h, CellState.running]⟩
  case h_4 | h_5 => split <;> exact ⟨_, _, _, _, _, _, _, rfl, rfl, rfl, fun _ => rfl⟩
  case h_6 => exact ⟨_, _, _, _, _, _, _, rfl, rfl, rfl, fun _ => rfl⟩

/-- Cell `d` is cell `c` after its period and with the fields of word `x` latched, before the MODE of the word acts. -/
structure Latched (x : CellWord) (c d : Cell) : Prop where
  st : d.st = c.st
  safeValid : d.safeValid = c.safeValid
  fast : d.fast = c.fast
  vref : d.vref = x.vref
  missN : d.prot.missN = 0
  shadow : c.st.running = true → d.shadow = x.shadow
  limN : c.st.switching = true → d.prot.limN = 0

/-- A valid word of a quiet period in which nothing else happens lets its MODE act. -/
theorem word_of_valid (hw : cellWordOf w = some x) (h : Quiet m c) (hn : 1 ≤ th.hiccupN) :
    ∃ d, Latched x c d ∧ (c.word th parkN now false 6 w m).1 = d.applyMode now m x := by
  obtain ⟨pulse, prot, bits, hperiod, -, hlim⟩ := period_of_quiet h th now
  obtain ⟨bal, prot', bits', mode, shadow, flt, refUv, hlatch, hmiss, hlim', hshadow⟩ :=
    latch_eq th x (c.period th now m)
  rw [hperiod] at hlim' hshadow
  have hd : Latched x c ((c.period th now m).latch th x) := by
    rw [hlatch, hperiod]
    exact ⟨rfl, rfl, rfl, rfl, hmiss, hshadow, fun hon => hlim'.trans (hlim hon)⟩
  refine ⟨_, hd, ?_⟩
  have hno : ¬(((c.period th now m).latch th x).st.switching &&
      decide (th.hiccupN ≤ ((c.period th now m).latch th x).prot.limN)) = true := by
    rw [Bool.and_eq_true, decide_eq_true_iff, hd.st]
    rintro ⟨hon, hle⟩
    rw [hd.limN hon] at hle
    omega
  simp [Cell.word, hw, hno]

/-- A missing word in RUN is counted, and PARK_N of them park the cell. -/
theorem word_of_missing (hw : cellWordOf w = none) (h : Quiet m c) (hn : 1 ≤ th.hiccupN) (hst : c.st = .run) :
    ∃ d : Cell, d.st = .run ∧ d.prot.missN = c.prot.missN + 1 ∧ d.duty = c.duty ∧ d.safeValid = c.safeValid ∧
      (c.word th parkN now false 6 w m).1 = if parkN ≤ c.prot.missN + 1 then d.park now else d := by
  obtain ⟨pulse, prot, bits, hperiod, hmiss, hlim⟩ := period_of_quiet h th now
  have hlim0 : prot.limN = 0 := hlim (by rw [hst]; rfl)
  refine ⟨{ c with pulse, prot := { prot with missN := prot.missN + 1 }, bits }, hst, by simp [hmiss], rfl, rfl, ?_⟩
  simp [Cell.word, hw, hperiod, hlim0, Nat.one_le_iff_ne_zero.1 hn, hmiss, apply_ite Prod.fst]

/-- A DISABLED cell stays as it is, whatever word comes. -/
theorem word_of_disabled (level : Bool) (top : Nat) (hst : c.st = .disabled) :
    (c.word th parkN now level top w m).1.st = .disabled ∧ (c.word th parkN now level top w m).1.cause = c.cause ∧
      (c.word th parkN now level top w m).1.disDue = c.disDue := by
  obtain ⟨bits, hperiod⟩ : ∃ bits, c.period th now m = { c with bits } := by
    simp only [Cell.period, hst]
    exact ⟨_, rfl⟩
  cases hw : cellWordOf w with
  | none => simp [Cell.word, hw, hperiod, hst, Cell.park, CellState.switching]
  | some x =>
    obtain ⟨bal, prot', bits', mode, shadow, flt, refUv, hlatch, -⟩ := latch_eq th x { c with bits }
    have hd : ((c.period th now m).latch th x).st = .disabled := by rw [hperiod, hlatch, hst]
    have hword : (c.word th parkN now level top w m).1 = (c.period th now m).latch th x := by
      simp only [Cell.word, hw]
      generalize (c.period th now m).latch th x = d at hd
      simp [hd, CellState.switching, Cell.applyMode]
    rw [hword, hperiod, hlatch]
    exact ⟨hst, rfl, rfl⟩

@[simp] theorem setDuty_st (x : CellWord) (c : Cell) : (c.setDuty x).st = c.st := by
  unfold Cell.setDuty
  split <;> rfl

@[simp] theorem setBallast_st (c : Cell) : c.setBallast.st = c.st := by
  unfold Cell.setBallast
  split
  · split <;> rfl
  · rfl

/-- A park trigger at a cell in START, RUN or BALLAST, and nowhere else, goes to PARK or IDLE (R76). -/
theorem park_st (now : Nat) (h : c.st = .start ∨ c.st.running = true) :
    (c.park now).st = if c.safeValid then .park else .idle := by
  cases hst : c.st <;> simp_all [Cell.park, CellState.running] <;> split <;> rfl

/-- RUN in RUN: the DUTY of the word takes effect, and a cell in RUN draws no ballast. -/
theorem applyMode_run_of_run (hst : c.st = .run) (hmode : x.mode = .run) (htrunc : c.fast.truncOn = false) :
    c.applyMode now m x = { c with st := .run, runFrom := c.runFrom, duty := x.duty, frac := x.frac, drawn := 0 } := by
  simp [Cell.applyMode, hst, hmode, Cell.setDuty, htrunc, Cell.setBallast]

theorem applyMode_start_of_idle (hst : c.st = .idle) (hmode : x.mode = .start) : (c.applyMode now m x).st = .start := by
  simp [Cell.applyMode, hst, hmode, Cell.toStart]

theorem applyMode_test_of_idle (hst : c.st = .idle) (hmode : x.mode = .test) : (c.applyMode now m x).st = .test := by
  simp [Cell.applyMode, hst, hmode, Cell.toTest]

theorem applyMode_ballast_of_run (hst : c.st = .run) (hmode : x.mode = .ballast) :
    (c.applyMode now m x).st = .ballast := by
  simp [Cell.applyMode, hst, hmode]

theorem applyMode_run_of_ballast_or_park (hst : c.st = .ballast ∨ c.st = .park) (hmode : x.mode = .run) :
    (c.applyMode now m x).st = .run := by
  obtain hst | hst := hst <;> simp [Cell.applyMode, hst, hmode, Cell.toRun]

theorem applyMode_park (hst : c.st = .start ∨ c.st.running = true) (hmode : x.mode = .park) :
    c.applyMode now m x = c.park now := by
  cases h : c.st <;> simp_all [Cell.applyMode, CellState.running]

theorem applyMode_off (hst : c.st.switching = true) (hmode : x.mode = .off) :
    c.applyMode now m x = { c.toIdle now with safeValid := false } := by
  cases h : c.st <;> simp_all [Cell.applyMode, CellState.switching]

end Word
/-! ## The rows of a cell's state -/

section StateRows
variable {n : CluIx} {k : CellIx} {s : State}

/-- A valid word of a quiet period acts on the cell through its MODE alone; the draw of a VIN dip apart. -/
theorem exec_validWord {w : BitVec 40} {x : CellWord} {m : PeriodMeas} (hw : cellWordOf w = some x)
    (hpark : s.pins.park = false) (hinj : s.flt.injects = []) (hquiet : Quiet m (s.cell n k))
    (hn : 1 ≤ (s.cellTh n k).hiccupN) (htop : s.cellTop n k = 6) :
    ∃ t c d, exec (.cellCommandWord n k w m) s = .next t ∧ Latched x (s.cell n k) c ∧
      t.cell n k = { c.applyMode s.elapsed m x with drawn := d } := by
  obtain ⟨t, p, d, ht, hcell⟩ := exec_cellCommandWord_of_top hinj htop w m
  have hquiet' : Quiet m { s.cell n k with parkDuty := p } := ⟨hquiet.cbc, hquiet.imean, hquiet.forced, hquiet.vin⟩
  obtain ⟨c, hc, hword⟩ := word_of_valid (parkN := s.sheet.hdr.parkN) (now := s.elapsed) hw hquiet' hn
  rw [hpark, hword] at hcell
  exact ⟨t, c, d, ht, ⟨hc.st, hc.safeValid, hc.fast, hc.vref, hc.missN, hc.shadow, hc.limN⟩, hcell⟩

/-- A missing word of a quiet period in RUN. -/
theorem exec_missingWord {w : BitVec 40} {m : PeriodMeas} (hw : cellWordOf w = none) (hst : (s.cell n k).st = .run)
    (hpark : s.pins.park = false) (hinj : s.flt.injects = []) (hquiet : Quiet m (s.cell n k))
    (hn : 1 ≤ (s.cellTh n k).hiccupN) (htop : s.cellTop n k = 6) :
    ∃ t, exec (.cellCommandWord n k w m) s = .next t ∧
      ((s.cell n k).prot.missN + 1 < s.sheet.hdr.parkN → (t.cell n k).st = .run ∧
        (t.cell n k).prot.missN = (s.cell n k).prot.missN + 1 ∧ (t.cell n k).duty = (s.cell n k).duty) ∧
      (s.sheet.hdr.parkN ≤ (s.cell n k).prot.missN + 1 → (s.cell n k).safeValid = true → (t.cell n k).st = .park) := by
  obtain ⟨t, p, d, ht, hcell⟩ := exec_cellCommandWord_of_top hinj htop w m
  have hquiet' : Quiet m { s.cell n k with parkDuty := p } := ⟨hquiet.cbc, hquiet.imean, hquiet.forced, hquiet.vin⟩
  obtain ⟨c, hcst, hmiss, hduty, hsafe, hword⟩ :=
    word_of_missing (parkN := s.sheet.hdr.parkN) (now := s.elapsed) hw hquiet' hn hst
  rw [hpark, hword] at hcell
  refine ⟨t, ht, fun hlt => ?_, fun hle hvalid => ?_⟩
  · rw [hcell, if_neg (not_le.2 hlt)]
    exact ⟨hcst, hmiss, hduty⟩
  · have hpark' := park_st (c := c) s.elapsed (.inr (by rw [hcst]; rfl))
    rw [hcell, if_pos hle]
    rwa [hsafe, if_pos hvalid] at hpark'

/-- A cell that UNIT_DISABLE has named is DISABLED with cause 6 at its carrier start. -/
theorem carrierStart_cell_of_due (hdue : (s.cell n k).disDue = true) :
    (s.carrierStart n k).cell n k = (s.cell n k).toDisabled s.elapsed 6 := by
  rw [State.carrierStart, if_pos hdue]
  dsimp only
  split <;> simp

theorem heardAt_of_due (hdue : (s.cell n k).disDue = true) :
    ∃ p, (s.heardAt n k).cell n k = { (s.cell n k).toDisabled s.elapsed 6 with parkDuty := p } := by
  obtain ⟨-, ⟨p, hp⟩, -⟩ := parkReport_frame n k ((s.carrierStart n k).accrue n)
  refine ⟨p, ?_⟩
  rw [State.heardAt, hp, State.cell_eq_of_cells (State.accrue_cells n _), carrierStart_cell_of_due hdue]

/-- At the carrier start of its next word a cell that UNIT_DISABLE has named is DISABLED, and the word leaves it so. -/
theorem exec_word_of_due (hdue : (s.cell n k).disDue = true) (w : BitVec 40) (m : PeriodMeas) :
    ∃ t, exec (.cellCommandWord n k w m) s = .next t ∧ (t.cell n k).st = .disabled ∧ (t.cell n k).cause = 6 ∧
      (t.cell n k).disDue = false := by
  obtain ⟨t, ht, d, hcell⟩ := exec_cellCommandWord (s := s) (n := n) (k := k) w m
  have hheard : ∃ p, (s.heardSpent n k).cell n k = { (s.cell n k).toDisabled s.elapsed 6 with parkDuty := p } := by
    unfold State.heardSpent
    exact heardAt_of_due hdue
  obtain ⟨p, hp⟩ := hheard
  obtain ⟨hst, hcause, hdis⟩ := word_of_disabled (c := (s.heardSpent n k).cell n k) (th := (s.heardSpent n k).cellTh n k)
    (parkN := (s.heardSpent n k).sheet.hdr.parkN) (now := (s.heardSpent n k).elapsed) (w := w)
    (m := { m with cbc := m.cbc || s.flt.injects.any fun i => i.kind == 4 && i.unit == uCell n k })
    (s.heardSpent n k).pins.park ((s.heardSpent n k).cellTop n k) (by rw [hp]; rfl)
  refine ⟨t, ht, ?_⟩
  rw [hcell]
  exact ⟨hst, hcause.trans (by rw [hp]; rfl), hdis.trans (by rw [hp]; rfl)⟩

/-- PARK_N periods without a word park a cell in RUN, unless something of the period goes before. -/
theorem exec_parkTimeout_of_run {p : Nat} (hp : s.sheet.hdr.parkN ≤ p) (hst : (s.cell n k).st = .run)
    (htop : 5 ≤ s.cellTop n k) :
    ∃ t, exec (.parkTimeout n k p) s = .next t ∧
      (t.cell n k).st = (if (s.cell n k).safeValid then .park else .idle) := by
  refine ⟨_, rfl, ?_⟩
  have hreport : s.parkReport n k = s := by simp [State.parkReport, hst]
  rw [hreport, cell_cellEvent]
  simp only [hp, htop, decide_true, Bool.and_self, if_true]
  exact park_st s.elapsed (.inr (by rw [hst]; rfl))

end StateRows
/-! ## TEST, START and VIN at the cell (R80, R81, R83, R84) -/

section TestAndStart
variable {n : CluIx} {k : CellIx} {s : State}

@[simp] theorem modSense_cells (n : Nat) (f : Sense → Sense) (s : State) : (s.modSense n f).cells = s.cells :=
  State.modCl_cells _ _ _ fun _ => rfl

@[simp] theorem modLane_cells (n k : Nat) (f : Lane → Lane) (s : State) : (s.modLane n k f).cells = s.cells :=
  State.modCl_cells _ _ _ fun _ => rfl

/-- The suspects of a cell that TEST clears lie in the sense unit, the engine and the faults. -/
theorem senseClear_cells (n k : Nat) (s : State) : (s.senseClear n k).cells = s.cells := by
  simp only [State.senseClear, apply_ite State.cells, State.closeUnit_cells, modLane_cells, modSense_cells, ite_self]

/-- The limits of the four trip times of TEST hold of each of them (Table 3-7). -/
theorem trips_le_of_all {l : List Nat} (h : ((l.zip [1200, 1000, 1000, 1000]).all fun p => decide (p.1 ≤ p.2)) = true) :
    l.getD 0 0 ≤ 1200 ∧ ∀ i, 1 ≤ i → i < 4 → l.getD i 0 ≤ 1000 := by
  have hbound (i : Nat) (hi : i < 4) : l.getD i 0 ≤ [1200, 1000, 1000, 1000].getD i 0 := by
    by_cases hl : i < l.length
    · have hmem : (l[i], [1200, 1000, 1000, 1000][i]) ∈ l.zip [1200, 1000, 1000, 1000] := by
        rw [← List.getElem_zip (h := by simp [hl, hi])]
        exact List.getElem_mem _
      have hle := List.all_eq_true.1 h _ hmem
      simpa [hl, hi] using hle
    · simp [Nat.not_lt.1 hl]
  refine ⟨hbound 0 (by decide), fun i h1 h4 => ?_⟩
  have := hbound i h4
  interval_cases i <;> exact this

/-- All checks of TEST pass at the values that Table 3-7 admits. -/
theorem fail_eq_zero {vout lcal : Nat} {x : CellTest} {a b c d : Nat} (hv : vout ≤ x.vAdc + 10000)
    (hv' : x.vAdc ≤ vout + 10000) (hi : -250 ≤ x.iZero) (hi' : x.iZero ≤ 250) (ht : x.trips = [a, b, c, d])
    (ha : a ≤ 1200) (hb : b ≤ 1000) (hc : c ≤ 1000) (hd : d ≤ 1000) (htog : x.toggles = true)
    (hfree : x.freewheel = true) (hrip : 100 ≤ x.ripple) (hrip' : x.ripple ≤ 2000) (hl : 2000 ≤ lcal)
    (hl' : lcal ≤ 12000) (hopen : x.open_ = 0) : CellTest.fail vout lcal x = 0 := by
  have h1 : ¬(10000 < vout - x.vAdc ∨ 10000 < x.vAdc - vout) := by omega
  have h2 : ¬(x.iZero < -250 ∨ 250 < x.iZero) := by omega
  have h5 : ¬(lcal < 2000 ∨ 12000 < lcal) := by omega
  simp [CellTest.fail, h1, h2, h5, ht, ha, hb, hc, hd, htog, hfree, hrip, hrip', hopen]

/-- The first check, of VOUT, fails alone before the pre-bias reading is taken. -/
theorem fail_eq_one {vout lcal : Nat} {x : CellTest} (h : x.vAdc + 10000 < vout ∨ vout + 10000 < x.vAdc) :
    CellTest.fail vout lcal x = 1 :=
  if_pos (by omega)

/-- A later check fails with a higher number. -/
theorem two_le_fail {vout lcal : Nat} {x : CellTest} (hv : vout ≤ x.vAdc + 10000) (hv' : x.vAdc ≤ vout + 10000)
    (h : x.iZero < -250 ∨ 250 < x.iZero ∨ x.trips.getD 0 0 > 1200 ∨ (∃ i, 1 ≤ i ∧ i < 4 ∧ x.trips.getD i 0 > 1000) ∨
      x.toggles = false ∨ x.freewheel = false ∨ x.ripple < 100 ∨ 2000 < x.ripple ∨ lcal < 2000 ∨ 12000 < lcal ∨
      x.open_ ≠ 0) : 2 ≤ CellTest.fail vout lcal x := by
  have h1 : ¬(10000 < vout - x.vAdc ∨ 10000 < x.vAdc - vout) := by omega
  unfold CellTest.fail
  rw [if_neg h1]
  split_ifs with h2 h3 h4 h5 h6
  iterate 5 decide
  exfalso
  obtain ⟨h30, h3i⟩ := trips_le_of_all (by simpa using h3)
  simp only [Bool.not_eq_true', Bool.not_eq_false, Bool.and_eq_true, decide_eq_true_eq] at h4
  obtain ⟨⟨⟨htog, hfree⟩, hrip⟩, hrip'⟩ := h4
  have hopen : x.open_ = 0 := by simpa using h6
  have htrip : ¬∃ i, 1 ≤ i ∧ i < 4 ∧ x.trips.getD i 0 > 1000 := fun ⟨i, hi, hi', hgt⟩ => absurd (h3i i hi hi') (not_le.2 hgt)
  simp only [htog, hfree, hopen, htrip, ne_eq, not_true_eq_false, Bool.true_eq_false, false_or, or_false] at h
  omega

/-- A cell in TEST passes all checks. -/
theorem exec_cellSelfTest_of_pass {x : CellTest} {lcal : Nat} {m : PeriodMeas} (hst : (s.cell n k).st = .test)
    (hfail : CellTest.fail m.vout lcal x = 0) :
    ∃ t, exec (.cellSelfTest n k x lcal m) s = .next t ∧ (t.cell n k).pass = true ∧ (t.cell n k).lcal = lcal ∧
      (t.cell n k).preBias = m.vout ∧ (t.cell n k).st = (if s.cellOn n k then .start else .idle) := by
  refine ⟨_, rfl, ?_⟩
  rw [if_neg (by simp [hst]), if_pos (by simp [hfail]), State.cell_eq_of_cells (senseClear_cells _ _ _), cell_modCell_ix]
  split <;> exact ⟨rfl, rfl, rfl, rfl⟩

/-- A cell in TEST fails a check. -/
theorem exec_cellSelfTest_of_fail {x : CellTest} {lcal : Nat} {m : PeriodMeas} (hst : (s.cell n k).st = .test)
    (hfail : CellTest.fail m.vout lcal x ≠ 0) :
    ∃ t, exec (.cellSelfTest n k x lcal m) s = .next t ∧ (t.cell n k).st = .disabled ∧ (t.cell n k).cause = 1 ∧
      (t.cell n k).pass = false ∧
      (t.cell n k).preBias = if 2 ≤ CellTest.fail m.vout lcal x then m.vout else (s.cell n k).preBias := by
  refine ⟨_, rfl, ?_⟩
  rw [if_neg (by simp [hst]), if_neg (by simpa using hfail), raise_cell _ (by decide), cell_modCell_ix]
  exact ⟨rfl, rfl, rfl, rfl⟩

/-- START ends in RUN at the first sample within START_WIN of VREF. -/
theorem exec_startDone_of_near {v : Nat} (hst : (s.cell n k).st = .start) (hvin : (s.cell n k).vinStop = false)
    (hlo : uvOf (s.cell n k).vref ≤ v + 1000 * (s.cellTh n k).startWin)
    (hhi : v ≤ uvOf (s.cell n k).vref + 1000 * (s.cellTh n k).startWin) :
    ∃ t, exec (.startDone n k v) s = .next t ∧ (t.cell n k).st = .run := by
  refine ⟨_, rfl, ?_⟩
  rw [cell_modCell_ix, State.cell_eq_of_cells (State.accrue_cells n s)]
  simp [hst, hvin, Cell.target, hlo, hhi, Cell.toRun]

/-- START_TO with a pre-biased output above START_WIN leaves the cell in START and says so. -/
theorem exec_startTimeout_of_high {v : Nat} (hst : (s.cell n k).st = .start) (harmed : (s.cell n k).startArmed = true)
    (hhi : uvOf (s.cell n k).vref + 1000 * (s.cellTh n k).startWin < v) :
    ∃ t, exec (.startTimeout n k v) s = .next t ∧ (t.cell n k).st = .start ∧ (t.cell n k).bits.prebiasHigh = true := by
  have htarget : (s.cell n k).target = uvOf (s.cell n k).vref := by simp [Cell.target, hst]
  refine ⟨_, rfl, ?_⟩
  rw [if_pos (by simp [hst, harmed]), htarget, if_pos hhi, raise_cell _ (by decide), cell_modCell_ix, advanceTo_cell]
  exact ⟨hst, rfl⟩

theorem exec_cellVinStop_of_low {mv : Nat} (h : mv < 1300) :
    ∃ t, exec (.cellVinStop n k mv) s = .next t ∧ (t.cell n k).st = (s.cell n k).st ∧
      (t.cell n k).vinStop = true ∧ (t.cell n k).isoOpen = true := by
  refine ⟨_, rfl, ?_⟩
  rw [if_neg (not_le.2 h), cell_modCell_ix]
  exact ⟨rfl, rfl, rfl⟩

theorem exec_cellVinResume_of_high {mv v : Nat} (h : 1400 < mv) (hstop : (s.cell n k).vinStop = true)
    (hsw : (s.cell n k).st.switching = true) :
    ∃ t, exec (.cellVinResume n k mv v) s = .next t ∧ (t.cell n k).st = (s.cell n k).st ∧
      (t.cell n k).vinStop = false ∧ (t.cell n k).isoOpen = false ∧ (t.cell n k).softStart = true ∧
      (t.cell n k).refUv = v := by
  refine ⟨_, rfl, ?_⟩
  rw [if_neg (not_le.2 h), cell_modCell_ix]
  simp [hstop, hsw, Cell.soft]

end TestAndStart

/-- Settles O30: a word acts through what its period and its latch leave of the cell, the other rows by their own rule. -/
theorem cellStateRowsComplete : Obligations.CellStateRowsComplete := by
  unfold Obligations.CellStateRowsComplete
  intro n k s
  refine ⟨?_, ?_, ?_, fun w m hdue => exec_word_of_due hdue w m, fun p => exec_parkTimeout_of_run, ?_,
    fun v => exec_startDone_of_near, fun v => exec_startTimeout_of_high, fun mv => exec_cellVinStop_of_low,
    fun mv v => exec_cellVinResume_of_high⟩
  · intro w x m hw hmode hst hpark hinj hcbc himean hvin htrunc hforced hn htop
    obtain ⟨t, c, d, ht, hc, hcell⟩ := exec_validWord hw hpark hinj ⟨hcbc, himean, hforced, hvin⟩ hn htop
    rw [applyMode_run_of_run (hc.st.trans hst) hmode (by rw [hc.fast, htrunc])] at hcell
    refine ⟨t, ht, ?_⟩
    rw [hcell]
    exact ⟨rfl, hc.vref, rfl, rfl, hc.shadow (by rw [hst]; rfl), hc.missN, hc.limN (by rw [hst]; rfl)⟩
  · intro w x m hw hpark hinj hcbc himean hforced hvin hn htop
    obtain ⟨t, c, d, ht, hc, hcell⟩ := exec_validWord hw hpark hinj ⟨hcbc, himean, hforced, hvin⟩ hn htop
    have hst : (t.cell n k).st = (c.applyMode s.elapsed m x).st := by rw [hcell]
    have hsafe : (t.cell n k).safeValid = (c.applyMode s.elapsed m x).safeValid := by rw [hcell]
    refine ⟨fun hmode h => ⟨t, ht, hst.trans (applyMode_start_of_idle (hc.st.trans h) hmode)⟩,
      fun hmode h => ⟨t, ht, hst.trans (applyMode_test_of_idle (hc.st.trans h) hmode)⟩,
      fun hmode h => ⟨t, ht, hst.trans (applyMode_ballast_of_run (hc.st.trans h) hmode)⟩,
      fun hmode h => ⟨t, ht, hst.trans (applyMode_run_of_ballast_or_park (by rwa [hc.st]) hmode)⟩,
      fun hmode h => ⟨t, ht, ?_⟩, fun hmode h => ⟨t, ht, ?_⟩⟩
    · have hc' : c.st = .start ∨ c.st.running = true := by rwa [hc.st]
      rw [hst, applyMode_park hc' hmode, park_st _ hc', hc.safeValid]
    · rw [hst, hsafe, applyMode_off (by rwa [hc.st]) hmode]
      exact ⟨rfl, rfl⟩
  · intro w m hw hst hpark hinj hcbc himean hforced hvin hn htop
    exact exec_missingWord hw hst hpark hinj ⟨hcbc, himean, hforced, hvin⟩ hn htop
  · intro lcal m hst
    refine ⟨?_, fun x hv => ?_, fun x hv hv' hbad => ?_⟩
    · intro x a b c d hv hv' hi hi' ht ha hb hc hd htog hfree hrip hrip' hl hl' hopen
      exact exec_cellSelfTest_of_pass hst
        (fail_eq_zero hv hv' hi hi' ht ha hb hc hd htog hfree hrip hrip' hl hl' hopen)
    · have hfail := fail_eq_one (lcal := lcal) hv
      obtain ⟨t, ht, hdis, hcause, hpass, hpre⟩ := exec_cellSelfTest_of_fail hst (by rw [hfail]; decide)
      exact ⟨t, ht, hdis, hcause, hpass, by rw [hpre, hfail]; rfl⟩
    · have hfail := two_le_fail hv hv' hbad
      obtain ⟨t, ht, hdis, hcause, hpass, hpre⟩ := exec_cellSelfTest_of_fail hst (Nat.ne_of_gt (Nat.lt_of_lt_of_le Nat.two_pos hfail))
      exact ⟨t, ht, hdis, hcause, hpass, by rw [hpre, if_pos hfail]⟩
/-! ## The carrier of a cluster (R67, R70 to R74) -/

/-- A carrier at the end of its pull-in has been pulled nowhere yet: the turns made are those of the same motion without it. -/
theorem turned_withPull (c : Carrier) (hpull : c.pull = 0) (q : Bool) (pull : Int) (t : Nat) :
    ({ c with qualified := q, pull, pullAt := t } : Carrier).turned t = c.turned t := by
  simp only [Carrier.turned, Carrier.pulled, Carrier.swept, Carrier.freq, Carrier.glideEnd, hpull, clampI, Nat.sub_self,
    Nat.mul_zero, Nat.zero_div]
  omega

/-- The way, shorter of the two, from the phase `here` to the phase `w - off`. -/
def shorterWay (here w off : Nat) : Int :=
  let e := ((w + turnU - off) % turnU + turnU - here % turnU) % turnU
  if 2 * e ≤ turnU then (e : Int) else (e : Int) - (turnU : Int)

/-- The shorter way is at most half a turn. -/
theorem shorterWay_le (here w off : Nat) : 2 * (shorterWay here w off).natAbs ≤ turnU := by
  unfold shorterWay turnU
  dsimp only
  split <;> omega

/-- The shorter way leads to the phase. -/
theorem shorterWay_closes {off : Nat} (hoff : off ≤ turnU) (here w : Nat) :
    ((here : Int) + shorterWay here w off - ((w : Int) - off)) % (turnU : Int) = 0 := by
  unfold turnU at hoff
  unfold shorterWay turnU
  dsimp only
  split <;> omega

theorem offsetPh_le (n : Nat) : offsetPh n ≤ turnU := by
  unfold offsetPh turnU
  omega

section Carrier
variable {n : CluIx} {hz : Nat} {s : State}

@[simp] theorem carrier_setCarr (c : Carrier) (s : State) : ((s.setCarr n c).cl n).carrier = c := by
  rw [State.setCarr, cl_modCl _ _ _ n.isLt]

/-- A report of ZN_SYNC_IN sets its own phase and may draw a free value. -/
theorem syncSeen_frame (hz : Nat) (s : State) :
    s.syncSeen hz = { s with sync := (s.syncSeen hz).sync, freeCtr := (s.syncSeen hz).freeCtr } := by
  unfold State.syncSeen
  dsimp only
  split <;> rfl

@[simp] theorem carr_syncSeen (hz m : Nat) (s : State) : (s.syncSeen hz).carr m = s.carr m := by
  rw [syncSeen_frame]
  rfl

@[simp] theorem carr_advanceTo (t m : Nat) (s : State) : (s.advanceTo t).carr m = s.carr m := by
  simp [State.carr, State.carrSet, State.cl]

@[simp] theorem elapsed_syncSeen (hz : Nat) (s : State) : (s.syncSeen hz).elapsed = s.elapsed := by rw [syncSeen_frame]

@[simp] theorem edgeKey_syncSeen (hz : Nat) (s : State) : (s.syncSeen hz).edgeKey = s.edgeKey := by rw [syncSeen_frame]

@[simp] theorem carrSet_syncSeen (hz m : Nat) (s : State) : (s.syncSeen hz).carrSet m = s.carrSet m := by
  rw [syncSeen_frame]
  rfl

/-- The carrier that the master glides on when it begins to follow ZN_SYNC_IN at `hz`. -/
def State.glided (n hz : Nat) (s : State) : Carrier :=
  (s.carr n).glide s.elapsed (hzUnits hz) (glideRate (s.carrSet n).fsw)

theorem le_glideEnd (c : Carrier) : c.glideAt ≤ c.glideEnd := by
  unfold Carrier.glideEnd
  split <;> omega

/-- What following sets of the carrier: the glide, and after it the pull-in by the shorter way. -/
theorem carrier_follow (n : CluIx) (hz : Nat) (s : State) :
    ((s.follow_ n hz).cl n).carrier =
      { s.glided n hz with
        qualified := true
        pull := shorterWay
          ((s.glided n hz).turned (s.glided n hz).glideEnd + (if (s.carr n).phFree then Config.edgePhase s.edgeKey n else 0))
          ((s.syncSeen hz).sync.ph + 2 * hzUnits hz * ((s.glided n hz).glideEnd - s.elapsed)) (offsetPh n)
        pullAt := (s.glided n hz).glideEnd } := by
  simp only [State.follow_, carrier_setCarr, carr_syncSeen, elapsed_syncSeen, edgeKey_syncSeen, carrSet_syncSeen]
  rfl

theorem sync_follow (n hz : Nat) (s : State) : (s.follow_ n hz).sync = (s.syncSeen hz).sync := rfl

/-- The pull-in of a master that follows closes its phase error. -/
theorem follow_closes (n : CluIx) (hz : Nat) (s : State) {t : State} (ht : t = s.follow_ n hz) :
    2 * (t.cl n).carrier.pull.natAbs ≤ turnU ∧
      (((t.cl n).carrier.turned (t.cl n).carrier.pullAt : Nat) + (t.cl n).carrier.pull +
        (if (s.carr n).phFree then Config.edgePhase s.edgeKey n else 0 : Nat) -
        (t.sync.ph + 2 * hzUnits hz * ((t.cl n).carrier.pullAt - s.elapsed) - offsetPh n : Int)) % (turnU : Int) = 0 := by
  rw [ht, sync_follow, carrier_follow]
  refine ⟨shorterWay_le _ _ _, ?_⟩
  rw [turned_withPull _ rfl]
  dsimp only
  have hle : s.elapsed ≤ (s.glided n hz).glideEnd := le_glideEnd (s.glided n hz)
  have hcloses := shorterWay_closes (offsetPh_le n)
    ((s.glided n hz).turned (s.glided n hz).glideEnd + (if (s.carr n).phFree then Config.edgePhase s.edgeKey n else 0))
    ((s.syncSeen hz).sync.ph + 2 * hzUnits hz * ((s.glided n hz).glideEnd - s.elapsed))
  rw [← hcloses]
  push_cast [Nat.cast_sub hle]
  ring_nf

theorem exec_syncQualified_of_inWindow (hmaster : (s.cl n).master.isSome = true) (hdis : (s.carrSet n).syncDis = false)
    (hwin : inWindow (s.carrSet n).fsw hz = true) : exec (.syncQualified n hz) s = .next (s.follow_ n hz) := by
  refine congrArg Host.Outcome.next (if_neg ?_)
  simp [hdis, hwin, Option.isSome_iff_ne_none.1 hmaster]

/-- Lock at the frequency that the glide went to. -/
theorem exec_syncLock_of_reached (hlocked : (s.carr n).locked = false) (hqual : (s.carr n).qualified = true)
    (hdis : (s.carrSet n).syncDis = false) (hwin : inWindow (s.carrSet n).fsw hz = true)
    (hto : (s.carr n).freqTo = hzUnits hz) :
    ∃ t, exec (.syncLock n hz) s = .next t ∧ (t.cl n).carrier.locked = true ∧
      (t.cl n).carrier.freqTo = hzUnits hz ∧ (t.cl n).carrier.phFree = false ∧
      (t.cl n).carrier.ph = (s.carr n).turned t.elapsed +
        (if (s.carr n).phFree then Config.edgePhase s.edgeKey n else 0) ∧
      t.elapsed = max s.elapsed ((s.carr n).pullEnd + cdiv (16 * 26214400000) (hzUnits hz)) := by
  refine ⟨_, rfl, ?_⟩
  rw [if_neg (by simp [hqual, hlocked, hdis, hwin]), if_neg (by simp [hto]), carrier_setCarr]
  simp only [State.edgePh, carr_syncSeen, carr_advanceTo, elapsed_syncSeen, edgeKey_syncSeen, advanceTo_edgeKey,
    advanceTo_elapsed, State.setCarr, State.modCl, Carrier.run, hto, and_self]

/-- At another frequency the master follows on. -/
theorem exec_syncLock_of_other (hlocked : (s.carr n).locked = false) (hqual : (s.carr n).qualified = true)
    (hdis : (s.carrSet n).syncDis = false) (hwin : inWindow (s.carrSet n).fsw hz = true)
    (hto : (s.carr n).freqTo ≠ hzUnits hz) : exec (.syncLock n hz) s = .next (s.follow_ n hz) := by
  refine congrArg Host.Outcome.next ?_
  rw [if_neg (by simp [hqual, hlocked, hdis, hwin]), if_pos (by simpa using hto)]

theorem exec_syncLoss_of_following (h : (s.carr n).qualified = true ∨ (s.carr n).locked = true) :
    ∃ t, exec (.syncLoss n) s = .next t ∧ (t.cl n).carrier.locked = false ∧ (t.cl n).carrier.qualified = false ∧
      (t.cl n).carrier.freqFrom = (s.carr n).freq s.elapsed ∧ (t.cl n).carrier.freqTo = s.fswU n := by
  refine ⟨_, rfl, ?_⟩
  rw [State.syncLost, if_pos (by simpa using h), carrier_setCarr]
  exact ⟨rfl, rfl, rfl, rfl⟩

theorem exec_ditherStep_of_unlocked (hlocked : (s.carr n).locked = false) (hmaster : (s.cl n).master.isSome = true) :
    ∃ t, exec (.ditherStep n) s = .next t ∧ (t.cl n).carrier.m = (s.carr n).m + 1 ∧
      ((s.carr n).qualified = false → (s.carr n).freq s.elapsed = (s.carr n).freqTo →
        (t.cl n).carrier.freqTo = ditherFreq (s.carrSet n) ((s.carr n).m + 1)) := by
  refine ⟨_, rfl, ?_⟩
  rw [if_neg (by simp [hlocked, Option.isSome_iff_ne_none.1 hmaster]), carrier_setCarr]
  refine ⟨by split <;> rfl, fun hqual hfreq => ?_⟩
  rw [if_neg (by simp [hqual, hfreq])]
  rfl

end Carrier

/-- Settles O26: following is a glide with the shorter pull-in behind it, the other rows by their own rule. -/
theorem carrierRowsComplete : Obligations.CarrierRowsComplete := by
  unfold Obligations.CarrierRowsComplete
  intro n hz s
  refine ⟨fun hmaster hdis hwin => ?_, fun hlocked hqual hdis hwin => ⟨?_, fun hto => ?_⟩,
    exec_syncLoss_of_following, exec_ditherStep_of_unlocked⟩
  · refine ⟨_, exec_syncQualified_of_inWindow hmaster hdis hwin, ?_, ?_, ?_, ?_, ?_, ?_, ?_, follow_closes n hz s rfl⟩ <;>
      rw [carrier_follow] <;> rfl
  · exact exec_syncLock_of_reached hlocked hqual hdis hwin
  · refine ⟨_, exec_syncLock_of_other hlocked hqual hdis hwin hto, ?_, ?_, ?_⟩ <;> rw [carrier_follow]
    · exact hlocked
    · rfl
    · rfl
/-! ## What the commands addressed to units read and set of the state -/

/-- What the commands addressed to units read and set of a cluster, its lanes and banks apart. -/
structure CluMark where
  loadBusy : Bool
  swap : Option (Nat × Nat)
  inReset : Option Nat
  resetCmd : Option Nat
  running : Bool
  woke : Bool

def Cluster.mark (c : Cluster) : CluMark :=
  ⟨c.ctl.loadBusy, c.ctl.swap, c.inReset, c.resetCmd, c.clock == .running, c.woke⟩

/-- A domain is disabled, and on. -/
def Domain.mark (x : Domain) : Bool × Bool := (x.disabled, x.on)

/-- What the commands addressed to units read and set of the state: the commands, their records and the marks of the units. -/
structure UnitMarks where
  cmds : Tab Cmd
  cpls : List CplRec
  present : Vector (BitVec 16) 64
  clus : Nat → CluMark
  doms : Nat → Bool × Bool

def State.marks (s : State) : UnitMarks :=
  ⟨s.host.cmds, s.host.cpls, s.pins.cells, fun n => (s.cl n).mark, fun d => (s.dm d).mark⟩

section Marks
variable (s : State) (n k d : Nat)

/-- What a change of an entry spares is the same in every entry. -/
theorem vget_vmod_congr {β γ : Type} {l : Nat} [Inhabited γ] (g : γ → β) (v : Vector γ l) (i : Nat) (f : γ → γ)
    (h : g (f (vget v i)) = g (vget v i)) (j : Nat) : g (vget (vmod v i f) j) = g (vget v j) := by
  by_cases hi : i < l
  · by_cases hij : i = j
    · rw [← hij, vget_vmod_same v i f hi, h]
    · rw [vget_vmod_ne v i j f hij]
  · rw [vget_vmod_ge v i j f hi]

/-- A change of a cluster that spares its mark. -/
theorem marks_modCl_of_mark {f : Cluster → Cluster} (h : (f (s.cl n)).mark = (s.cl n).mark) : (s.modCl n f).marks = s.marks :=
  congrArg (fun clus => (⟨s.host.cmds, s.host.cpls, s.pins.cells, clus, fun d => (s.dm d).mark⟩ : UnitMarks))
    (funext (vget_vmod_congr Cluster.mark s.clu n f h))

theorem marks_modCl {f : Cluster → Cluster} (h : ∀ c, (f c).mark = c.mark) : (s.modCl n f).marks = s.marks :=
  marks_modCl_of_mark s n (h _)

/-- A change of a domain that spares its mark. -/
theorem marks_modDm {f : Domain → Domain} (h : ∀ x, (f x).mark = x.mark) : (s.modDm d f).marks = s.marks :=
  congrArg (fun doms => (⟨s.host.cmds, s.host.cpls, s.pins.cells, fun n => (s.cl n).mark, doms⟩ : UnitMarks))
    (funext (vget_vmod_congr Domain.mark s.dom d f (h _)))

theorem marks_each {α : Type} {f : α → State → State} (hf : ∀ x u, (f x u).marks = u.marks) (l : List α) :
    (each l f s).marks = s.marks :=
  each_keeps (P := fun u => u.marks = s.marks) (fun x u hu => (hf x u).trans hu) l rfl

@[simp] theorem marks_modCell (f : Cell → Cell) : (s.modCell n k f).marks = s.marks := marks_modCl s n fun _ => rfl

@[simp] theorem marks_modHalf (h : Nat) (f : Half → Half) : (s.modHalf n h f).marks = s.marks := marks_modCl s n fun _ => rfl

@[simp] theorem marks_modLane (f : Lane → Lane) : (s.modLane n k f).marks = s.marks := marks_modCl s n fun _ => rfl

@[simp] theorem marks_modStg (f : Staging → Staging) : (s.modStg d f).marks = s.marks := marks_modDm s d fun _ => rfl

@[simp] theorem marks_accrue : (s.accrue n).marks = s.marks := by
  unfold State.accrue
  refine (marks_modCl _ n fun _ => ?_).trans (marks_each s (fun h u => ?_) _)
  · rfl
  · exact marks_modHalf u n h _

/-- A wake source starts a sleeping clock, which does not run yet. -/
@[simp] theorem marks_wakeClu : (s.wakeClu n).marks = s.marks := by
  unfold State.wakeClu
  split
  case isFalse => exact marks_modCl s n fun _ => rfl
  case isTrue h =>
    have hasleep : (s.cl n).clock = .asleep := by simpa using h
    exact marks_modCl_of_mark s n (by simp [Cluster.mark, hasleep])

/-! ### Records, notices, windows and probes -/

@[simp] theorem marks_noticeLost (x : Option (Nat × Nat)) : (s.noticeLost x).marks = s.marks := by
  unfold State.noticeLost
  split <;> rfl

@[simp] theorem marks_evLost (j : Nat) (x : Option (Nat × Nat)) : (s.evLost j x).marks = s.marks := by
  unfold State.evLost
  dsimp only
  split <;> exact marks_noticeLost _ x

@[simp] theorem marks_ovfWrite (e : EvRec) : (s.ovfWrite n e).marks = s.marks := by
  unfold State.ovfWrite
  split <;> rfl

@[simp] theorem marks_postEvent (ctx : Option Nat) (words : List Word64) (clu : Option Nat) (x : Option (Nat × Nat)) :
    (s.postEvent ctx words clu x).marks = s.marks := by
  unfold State.postEvent
  split
  · exact marks_noticeLost _ x
  split
  · exact marks_noticeLost _ x
  dsimp only
  split
  · rfl
  split
  · split <;> rfl
  split
  · split
    · exact marks_ovfWrite s _ _
    · exact marks_evLost s _ x
  · exact marks_evLost s _ x

@[simp] theorem marks_issue (c q cause unit t0 t1 : Nat) : (s.issue c q cause unit t0 t1).marks = s.marks := by
  unfold State.issue
  split
  · rfl
  split
  · rfl
  split
  · rfl
  · exact marks_postEvent _ _ _ _ _

@[simp] theorem marks_trigOpen (x : Option Nat) (cause unit t0 : Nat) : (s.trigOpen x cause unit t0).marks = s.marks := by
  unfold State.trigOpen
  split <;> rfl

@[simp] theorem marks_trigClose (cause unit t1 : Nat) : (s.trigClose cause unit t1).marks = s.marks := by
  unfold State.trigClose
  split
  · rfl
  · exact marks_each _ (fun c u => marks_each u (fun p v => marks_issue v _ _ _ _ _ _) _) _

@[simp] theorem marks_closeUnit (codes : List Nat) : (s.closeUnit n codes).marks = s.marks := rfl

@[simp] theorem marks_closeCell (a b : CellState) : (s.closeCell n k a b).marks = s.marks := by
  unfold State.closeCell
  split_ifs <;> rfl

@[simp] theorem marks_placeDom (ch : Change) : (s.placeDom d ch).marks = s.marks := by
  unfold State.placeDom
  refine marks_each s (fun p u => ?_) _
  exact marks_modHalf u p.1 p.2 _

@[simp] theorem marks_probeRestore (slot stop : Nat) : (s.probeRestore slot stop).marks = s.marks := by
  unfold State.probeRestore
  split
  · split
    · exact marks_placeDom _ _ _
    · rfl
  · rfl

@[simp] theorem marks_probeCheck : s.probeCheck.marks = s.marks := by
  unfold State.probeCheck
  refine marks_each s (fun q u => ?_) _
  dsimp only
  split_ifs
  · rfl
  · exact marks_probeRestore u _ _
  · exact marks_probeRestore u _ _
  · exact marks_probeRestore u _ _
  · rfl

@[simp] theorem marks_noteParks (old : State) : (s.noteParks old).marks = s.marks := by
  unfold State.noteParks
  refine (marks_each _ (fun n u => ?_) _).trans (marks_probeCheck s)
  split
  · rfl
  refine marks_each u (fun k v => ?_) _
  dsimp only
  split
  · split <;> simp
  · split <;> simp

@[simp] theorem marks_cellEvent (f : Cell → Cell) : (s.cellEvent n k f).marks = s.marks :=
  (marks_noteParks _ _).trans (marks_modCell s n k f)

@[simp] theorem marks_phaseTrig (t0 : Nat) : (s.phaseTrig n k t0).marks = s.marks := by
  unfold State.phaseTrig
  split
  · rfl
  · exact marks_trigOpen s _ _ _ _

@[simp] theorem marks_carrierStart : (s.carrierStart n k).marks = s.marks := by
  unfold State.carrierStart
  split
  · dsimp only
    split <;> simp
  · rfl

/-! ### Cells and stages -/

@[simp] theorem marks_disableCell : (s.disableCell n k).marks = s.marks := by
  unfold State.disableCell
  dsimp only
  split
  · exact marks_modLane s n k _
  · split <;> simp

@[simp] theorem marks_enableCell : (s.enableCell n k).marks = s.marks := by
  have hlane (u : State) : (u.modCl n fun c => { c with ctl := { c.ctl with
      lanes := vmod c.ctl.lanes k fun l => { l with redPark := false, mism := 0 } } }).marks = u.marks :=
    marks_modCl u n fun _ => rfl
  unfold State.enableCell
  dsimp only
  split
  · rw [marks_cellEvent, marks_wakeClu, hlane, marks_carrierStart]
  · rw [hlane, marks_carrierStart]

@[simp] theorem marks_fade (off : Bool) : (s.fade n off).marks = s.marks := by
  unfold State.fade
  refine marks_each s (fun p u => ?_) _
  exact (marks_modHalf _ p.1 p.2 _).trans (marks_accrue u p.1)

@[simp] theorem marks_unfade : (s.unfade d).marks = s.marks := by
  unfold State.unfade
  split
  · rfl
  · exact (marks_modStg _ _ _).trans (marks_each s (fun n u => marks_fade u n false) _)

@[simp] theorem marks_dropStage : (s.dropStage d).marks = s.marks := by
  unfold State.dropStage
  refine marks_each s (fun p u => ?_) _
  exact marks_modHalf u p.1 p.2 _

end Marks
/-! ## Ends of commands and of their parts -/

/-- The marks of the units, without the commands. -/
def State.standing (s : State) : UnitMarks := { s.marks with cmds := [], cpls := [] }

section Ends
variable {s t : State} {slot : Nat}

theorem standing_of_marks (h : t.marks = s.marks) : t.standing = s.standing := by rw [State.standing, h, State.standing]

/-- An end changes the host interface alone. -/
theorem complete_hostOnly (s : State) (slot : Nat) (st : Status) (res : Nat) :
    ∃ h, s.complete slot st res = { s with host := h } := by
  unfold State.complete State.completeAfter
  split
  · exact ⟨_, rfl⟩
  · split <;> exact ⟨_, rfl⟩

/-- The end of a part changes the host interface alone. -/
theorem endPart_hostOnly (s : State) (slot d : Nat) (st : Status) : ∃ h, s.endPart slot d st = { s with host := h } := by
  unfold State.endPart
  dsimp only
  split
  · exact ⟨_, rfl⟩
  split
  · exact ⟨_, rfl⟩
  split
  · split <;> exact complete_hostOnly _ _ _ _
  · exact ⟨_, rfl⟩

/-- A wait of one command for the record of another changes the host interface alone. -/
theorem supersedes_hostOnly (s : State) (old : Nat) (new : Option Nat) : ∃ h, s.supersedes old new = { s with host := h } := by
  unfold State.supersedes
  split
  · split <;> exact ⟨_, rfl⟩
  · exact ⟨_, rfl⟩

/-- The command in a slot runs and waits for no part. -/
def Partless (s : State) (slot : Nat) : Prop := ∃ c, s.cmd? slot = some c ∧ c.stage = .dispatched ∧ c.parts = []

theorem Partless.of_marks (h : t.marks = s.marks) (hs : Partless s slot) : Partless t slot := by
  have hcmds : t.host.cmds = s.host.cmds := congrArg UnitMarks.cmds h
  rwa [Partless, State.cmd?, hcmds]

theorem Partless.endPart (h : Partless s slot) (q d : Nat) (st : Status) : Partless (s.endPart q d st) slot := by
  by_cases hq : q = slot
  · subst hq
    obtain ⟨c, hc, hstage, hparts⟩ := h
    simp only [State.endPart, hc, hparts, List.contains_nil, Bool.not_false, if_true]
    exact ⟨c, hc, hstage, hparts⟩
  · obtain ⟨c, hc, hrest⟩ := h
    refine ⟨c, ?_, hrest⟩
    rw [← hc]
    unfold State.endPart
    dsimp only
    split
    · rfl
    split
    · rfl
    split
    · split <;> exact (cmd?_complete_ne hq _ _).trans (cmd?_modCmd_ne hq _)
    · exact cmd?_modCmd_ne hq _

theorem Partless.supersedes (h : Partless s slot) (old : Nat) (new : Option Nat) : Partless (s.supersedes old new) slot := by
  unfold State.supersedes
  split
  case h_2 => exact h
  case h_1 q c hq =>
    split
    · exact h
    · obtain ⟨x, hx, hrest⟩ := h
      by_cases hslot : q = slot
      · subst hslot
        exact ⟨_, cmd?_modCmd_same hx _, hrest⟩
      · exact ⟨x, (cmd?_modCmd_ne hslot _).trans hx, hrest⟩

theorem Partless.ended (h : Partless s slot) (st : Status) (res : Nat) : Ended (s.complete slot st res) slot st res := by
  obtain ⟨c, hc, hstage, -⟩ := h
  exact ended_of_completed (complete_completed hc (by simp [hstage]) st res)

end Ends

/-! ## The units of a list -/

section Units
variable {l : List Nat}

theorem mem_cellsIn {n : CluIx} {k : CellIx} (h : uCell n k ∈ l) : (n.val, k.val) ∈ cellsIn l := by
  refine List.mem_filterMap.2 ⟨_, h, ?_⟩
  have hn := n.isLt
  have hk := k.isLt
  have h1 : ¬ uCell n k < 0x040 := by unfold uCell; omega
  have h2 : ¬ uCell n k < 0x080 := by unfold uCell; omega
  have h3 : ¬ uCell n k < 0x100 := by unfold uCell; omega
  have h4 : uCell n k < 0x500 := by unfold uCell; omega
  have h5 : (uCell n k - 0x100) / 16 = n := by unfold uCell; omega
  have h6 : (uCell n k - 0x100) % 16 = k := by unfold uCell; omega
  simp [uKind, h1, h2, h3, h4, h5, h6]

theorem mem_domsIn {d : DomIx} (h : uDom d ∈ l) : d.val ∈ domsIn l := by
  refine List.mem_filterMap.2 ⟨_, h, ?_⟩
  have hd := d.isLt
  have h1 : ¬ uDom d < 0x040 := by unfold uDom; omega
  have h2 : ¬ uDom d < 0x080 := by unfold uDom; omega
  have h3 : uDom d < 0x100 := by unfold uDom; omega
  have h4 : uDom d - 0x080 = d := by unfold uDom; omega
  simp [uKind, h1, h2, h3, h4]

theorem mem_clusIn {n : CluIx} (h : uClu n ∈ l) : n.val ∈ clusIn l := by
  refine List.mem_filterMap.2 ⟨_, h, ?_⟩
  have hn := n.isLt
  have h1 : ¬ uClu n < 0x040 := by unfold uClu; omega
  have h2 : uClu n < 0x080 := by unfold uClu; omega
  have h3 : uClu n - 0x040 = n := by unfold uClu; omega
  simp [uKind, h1, h2, h3]

end Units

/-! ## UNIT_DISABLE (11 R369, R370, R372) -/

section Disable
variable {s t : State} {slot : Nat} {n : CluIx} {k : CellIx} {d : DomIx}

/-- The bank operations of a cluster ended: of a cluster only its load and its swap change, and else the channels and the
host interface. -/
theorem stopBanks_eq (m slot : Nat) (s : State) : ∃ ch h, s.stopBanks m slot =
    { s.modCl m (fun c => { c with ctl := { c.ctl with loadBusy := false, swap := none } }) with ch := ch, host := h } := by
  unfold State.stopBanks
  dsimp only
  refine each_keeps (P := fun u => ∃ ch h, u = { s.modCl m _ with ch := ch, host := h }) ?_ _ ⟨_, _, rfl⟩
  rintro q _ ⟨ch, h, rfl⟩
  obtain ⟨h₁, hsup⟩ := supersedes_hostOnly { s.modCl m (fun c => { c with ctl := { c.ctl with loadBusy := false, swap := none } })
    with ch := ch, host := h } q (some slot)
  rw [hsup]
  obtain ⟨h₂, hend⟩ := endPart_hostOnly { s.modCl m (fun c => { c with ctl := { c.ctl with loadBusy := false, swap := none } })
    with ch := ch, host := h₁ } q m .abortedDisabled
  exact ⟨ch, h₂, hend⟩

theorem Partless.stopBanks (h : Partless s slot) (m q : Nat) : Partless (s.stopBanks m q) slot := by
  unfold State.stopBanks
  exact each_keeps (P := fun u => Partless u slot) (fun q u hu => (hu.supersedes _ _).endPart _ _ _) _ h

/-- A sequence that switches a domain on ends (Table 11-9). -/
def State.endSwitching (d slot : Nat) (s : State) : State :=
  match (s.dm d).stg with
  | some g => if g.closing then
      let s := match g.cmd with
        | some q => (s.supersedes q (some slot)).endPart q d .abortedDisabled
        | none => s
      ((s.unfade d).dropStage d).modDm d (fun x => { x with stg := none, stages := 0 }) else s
  | none => s

theorem disableDom_eq (d slot : Nat) (s : State) : s.disableDom d slot =
    (s.endSwitching d slot).modDm d (fun x => { x with disabled := true, on := false, nbWait := false }) := rfl

theorem marks_stageEnd (d : Nat) (s : State) :
    (((s.unfade d).dropStage d).modDm d fun x => { x with stg := none, stages := 0 }).marks = s.marks := by
  refine (marks_modDm _ d fun _ => ?_).trans ?_
  · rfl
  · rw [marks_dropStage, marks_unfade]

theorem Partless.endSwitching (h : Partless s slot) (d q : Nat) : Partless (s.endSwitching d q) slot := by
  unfold State.endSwitching
  split
  case h_2 => exact h
  case h_1 =>
    split
    case isFalse => exact h
    case isTrue =>
      refine Partless.of_marks (marks_stageEnd d _) ?_
      split
      · exact (h.supersedes _ _).endPart _ _ _
      · exact h

theorem Partless.disableDom (h : Partless s slot) (d q : Nat) : Partless (s.disableDom d q) slot := h.endSwitching d q

theorem Partless.disableCell (h : Partless s slot) (m j : Nat) : Partless (s.disableCell m j) slot :=
  h.of_marks (marks_disableCell s m j)

@[simp] theorem standing_endSwitching (d slot : Nat) (s : State) : (s.endSwitching d slot).standing = s.standing := by
  unfold State.endSwitching
  split
  case h_2 => rfl
  case h_1 =>
    split
    case isFalse => rfl
    case isTrue =>
      refine (standing_of_marks (marks_stageEnd d _)).trans ?_
      split
      · obtain ⟨h₁, hsup⟩ := supersedes_hostOnly s ‹Nat› (some slot)
        obtain ⟨h₂, hend⟩ := endPart_hostOnly { s with host := h₁ } ‹Nat› d .abortedDisabled
        rw [hsup, hend]
        rfl
      · rfl

/-- What the marks of two states agree on, they agree on in each cluster. -/
theorem mark_of_standing (h : t.standing = s.standing) (m : Nat) : (t.cl m).mark = (s.cl m).mark :=
  congrFun (congrArg UnitMarks.clus h) m

theorem dmMark_of_standing (h : t.standing = s.standing) (e : Nat) : (t.dm e).mark = (s.dm e).mark :=
  congrFun (congrArg UnitMarks.doms h) e

theorem mark_disableDom (d slot m : Nat) (s : State) : ((s.disableDom d slot).cl m).mark = (s.cl m).mark :=
  mark_of_standing (standing_endSwitching d slot s) m

/-- A domain disabled is off. -/
theorem dm_disableDom (d : DomIx) (slot : Nat) (s : State) : ((s.disableDom d slot).dm d).mark = (true, false) := by
  rw [disableDom_eq, dm_modDm _ _ _ d.isLt]
  rfl

theorem dm_disableDom_keeps (e slot : Nat) (h : (s.dm d).mark = (true, false)) :
    ((s.disableDom e slot).dm d).mark = (true, false) := by
  by_cases he : e = d
  · subst he
    exact dm_disableDom d slot s
  · rw [disableDom_eq, dm_modDm_ne _ _ _ _ he, dmMark_of_standing (standing_endSwitching e slot s), h]

/-! ### The cells of UNIT_DISABLE -/

@[simp] theorem dropStage_cells (d : Nat) (s : State) : (s.dropStage d).cells = s.cells := by
  unfold State.dropStage
  refine each_cells _ _ (fun p u => ?_) s
  exact State.modHalf_cells u p.1 p.2 _

@[simp] theorem fade_cells (n : Nat) (off : Bool) (s : State) : (s.fade n off).cells = s.cells := by
  unfold State.fade
  refine each_cells _ _ (fun p u => ?_) s
  exact (State.modHalf_cells _ p.1 p.2 _).trans (State.accrue_cells p.1 u)

@[simp] theorem unfade_cells (d : Nat) (s : State) : (s.unfade d).cells = s.cells := by
  unfold State.unfade
  split
  · rfl
  · exact each_cells _ _ (fun n u => fade_cells n false u) s

@[simp] theorem disableDom_cells (d slot : Nat) (s : State) : (s.disableDom d slot).cells = s.cells := by
  have hstage (u : State) : (((u.unfade d).dropStage d).modDm d fun x => { x with stg := none, stages := 0 }).cells = u.cells :=
    (dropStage_cells d _).trans (unfade_cells d u)
  show (s.endSwitching d slot).cells = s.cells
  unfold State.endSwitching
  split
  case h_2 => rfl
  case h_1 =>
    split
    case isFalse => rfl
    case isTrue =>
      dsimp only
      rw [hstage]
      split <;> simp

@[simp] theorem stopBanks_cells (m slot : Nat) (s : State) : (s.stopBanks m slot).cells = s.cells := by
  obtain ⟨ch, h, heq⟩ := stopBanks_eq m slot s
  rw [heq]
  exact State.modCl_cells s m _ fun _ => rfl

/-- A cluster makes samples as long as its clock, its reset and the call sheet stay. -/
theorem samples_congr {m : Nat} (hcsh : t.csh = s.csh) (hrun : (t.cl m).mark.running = (s.cl m).mark.running)
    (hreset : (t.cl m).inReset = (s.cl m).inReset) (hwoke : (t.cl m).woke = (s.cl m).woke) : t.samples m = s.samples m := by
  unfold State.samples State.sheet
  rw [hcsh, hreset, hwoke, show ((t.cl m).clock == Clock.running) = ((s.cl m).clock == Clock.running) from hrun]

theorem samples_of_mark {m : Nat} (hcsh : t.csh = s.csh) (h : (t.cl m).mark = (s.cl m).mark) : t.samples m = s.samples m :=
  samples_congr hcsh (congrArg CluMark.running h) (congrArg CluMark.inReset h) (congrArg CluMark.woke h)

theorem elapsed_of_calm (h : t.calm = s.calm) : t.elapsed = s.elapsed := congrArg Calm.elapsed h

theorem csh_of_calm (h : t.calm = s.calm) : t.csh = s.csh := congrArg Calm.csh h

theorem samples_disableDom (d slot m : Nat) (s : State) : (s.disableDom d slot).samples m = s.samples m :=
  samples_of_mark (csh_of_calm (State.disableDom_calm d slot s)) (mark_disableDom d slot m s)

theorem samples_disableCell (i j m : Nat) (s : State) : (s.disableCell i j).samples m = s.samples m :=
  samples_of_mark (csh_of_calm (State.disableCell_calm i j s)) (mark_of_standing (standing_of_marks (marks_disableCell s i j)) m)

theorem samples_stopBanks (i slot m : Nat) (s : State) : (s.stopBanks i slot).samples m = s.samples m := by
  obtain ⟨ch, h, heq⟩ := stopBanks_eq i slot s
  have hcl : ∃ ctl, (s.stopBanks i slot).cl m = { s.cl m with ctl := ctl } := by
    rw [heq]
    refine modCl_keeps (P := fun c => ∃ ctl, c = { s.cl m with ctl := ctl }) ?_ ⟨_, rfl⟩ i
    rintro _ ⟨ctl, rfl⟩
    exact ⟨_, rfl⟩
  obtain ⟨ctl, hcl⟩ := hcl
  refine samples_congr (csh_of_calm (State.stopBanks_calm i slot s)) ?_ ?_ ?_
  · rw [hcl]
    rfl
  · rw [hcl]
  · rw [hcl]

end Disable
section DisableCells
variable {s : State} {slot : Slot} {c : Cmd} {n : CluIx} {k : CellIx}

theorem cellEvent_cell_ne {i j : Nat} (h : i ≠ n ∨ j ≠ k) (f : Cell → Cell) (s : State) :
    (s.cellEvent i j f).cell n k = s.cell n k := by
  rw [State.cellEvent, State.cell_eq_of_cells (State.noteParks_cells _ _), cell_modCell_ne _ _ _ _ _ _ h]

theorem carrierStart_cell_ne {i j : Nat} (h : i ≠ n ∨ j ≠ k) (s : State) :
    (s.carrierStart i j).cell n k = s.cell n k := by
  unfold State.carrierStart
  split
  · dsimp only
    split <;> simp [cellEvent_cell_ne h]
  · rfl

@[simp] theorem modLane_cell (i j m l : Nat) (f : Lane → Lane) (s : State) : (s.modLane i j f).cell m l = s.cell m l :=
  State.cell_eq_of_cells (modLane_cells i j f s) m l

/-- UNIT_DISABLE at another cell leaves a cell as it is. -/
theorem disableCell_cell_ne {i j : Nat} (h : i ≠ n ∨ j ≠ k) (s : State) : (s.disableCell i j).cell n k = s.cell n k := by
  unfold State.disableCell
  dsimp only
  split
  · exact modLane_cell _ _ _ _ _ _
  · split
    · rw [cell_modCell_ne _ _ _ _ _ _ h, modLane_cell]
    · rw [carrierStart_cell_ne h, cell_modCell_ne _ _ _ _ _ _ h, modLane_cell]

/-- The marks that UNIT_DISABLE sets in a lane and a cell leave a cluster's samples as they are. -/
theorem samples_named (i j m : Nat) (f : Lane → Lane) (g : Cell → Cell) (s : State) :
    ((s.modLane i j f).modCell i j g).samples m = s.samples m :=
  samples_of_mark rfl (mark_of_standing (standing_of_marks ((marks_modCell _ i j g).trans (marks_modLane s i j f))) m)

/-- A cell that switches in a cluster with samples waits for its carrier start. -/
theorem disableCell_cell_of_switching (hsw : (s.cell n k).st.switching = true) (hsamp : s.samples n = true) :
    (s.disableCell n k).cell n k = { s.cell n k with disDue := true } := by
  have hst : ((s.cell n k).st == .disabled) = false := by
    cases h : (s.cell n k).st <;> simp_all [CellState.switching]
  unfold State.disableCell
  dsimp only
  rw [hst, if_neg Bool.false_ne_true, hsw, samples_named, hsamp, Bool.and_self, if_pos rfl, cell_modCell_ix, modLane_cell]

/-- A cell without a carrier start to wait for is DISABLED at once. -/
theorem disableCell_cell_of_not (h : ((s.cell n k).st.switching && s.samples n) = false) :
    ((s.disableCell n k).cell n k).st = .disabled := by
  unfold State.disableCell
  dsimp only
  rw [samples_named, h]
  split
  case isTrue hst =>
    rw [modLane_cell]
    simpa using hst
  case isFalse =>
    rw [if_neg Bool.false_ne_true, carrierStart_cell_of_due (by rw [cell_modCell_ix])]
    rfl

/-- The state that a UNIT_DISABLE of the units `sub` leaves before its end. -/
def State.unitsDisabled (sub : List Nat) (slot : Nat) (s : State) : State :=
  each (cellsIn sub) (fun p s => s.disableCell p.1 p.2)
    (each (domsIn sub) (fun d s => s.disableDom d slot) (each (clusIn sub) (fun n s => s.stopBanks n slot) s))

theorem exec_unitDisable_of_chosen (h : Chosen s slot 0x18 c) : exec (.unitDisable slot) s =
    .next (((s.dispatched slot).unitsDisabled (s.switchSub c.unit) slot).complete slot .done 0) :=
  congrArg Host.Outcome.next (opRow_of_chosen h _ _ _)

variable {sub : List Nat} {q : Nat}

/-- The cells are as they were when their turn comes, and their clusters make samples as before. -/
theorem cell_before_disableCells (m : CluIx) (j : CellIx) (s : State) (q : Nat) :
    let u := each (domsIn sub) (fun d s => s.disableDom d q) (each (clusIn sub) (fun n s => s.stopBanks n q) s)
    u.cell m j = s.cell m j ∧ u.samples m = s.samples m := by
  refine each_keeps (P := fun u => u.cell m j = s.cell m j ∧ u.samples m = s.samples m) ?_ _
    (each_keeps (P := fun u => u.cell m j = s.cell m j ∧ u.samples m = s.samples m) ?_ _ ⟨rfl, rfl⟩)
  · rintro d u ⟨hcell, hsamp⟩
    exact ⟨(State.cell_eq_of_cells (disableDom_cells d q u) m j).trans hcell, (samples_disableDom d q m u).trans hsamp⟩
  · rintro i u ⟨hcell, hsamp⟩
    exact ⟨(State.cell_eq_of_cells (stopBanks_cells i q u) m j).trans hcell, (samples_stopBanks i q m u).trans hsamp⟩

/-- A pair of indices other than those of a cell. -/
theorem ne_of_pair_ne {p : Nat × Nat} (h : p ≠ (n.val, k.val)) : p.1 ≠ n ∨ p.2 ≠ k := by
  by_contra hno
  obtain ⟨h1, h2⟩ := not_or.1 hno
  exact h (Prod.ext (not_not.1 h1) (not_not.1 h2))

theorem unitsDisabled_cell_of_switching (hsub : uCell n k ∈ sub) (hsw : (s.cell n k).st.switching = true)
    (hsamp : s.samples n = true) :
    ((s.unitsDisabled sub q).cell n k).st = (s.cell n k).st ∧ ((s.unitsDisabled sub q).cell n k).disDue = true := by
  obtain ⟨hcell, hsamp'⟩ := cell_before_disableCells (sub := sub) n k s q
  unfold State.unitsDisabled
  refine (each_reaches (P := fun u => (u.cell n k).st = (s.cell n k).st ∧ u.samples n = true)
    (Q := fun u => ((u.cell n k).st = (s.cell n k).st ∧ u.samples n = true) ∧ (u.cell n k).disDue = true)
    ?_ ?_ ?_ (mem_cellsIn hsub) ⟨by rw [hcell], hsamp'.trans hsamp⟩).imp And.left id
  · rintro p hp u ⟨hst, hu⟩
    rw [disableCell_cell_ne (ne_of_pair_ne hp), samples_disableCell]
    exact ⟨hst, hu⟩
  · rintro u ⟨hst, hu⟩
    rw [disableCell_cell_of_switching (by rwa [hst]) hu, samples_disableCell]
    exact ⟨⟨hst, hu⟩, rfl⟩
  · rintro p u ⟨⟨hst, hu⟩, hdue⟩
    by_cases hp : p = (n.val, k.val)
    · subst hp
      rw [disableCell_cell_of_switching (by rwa [hst]) hu, samples_disableCell]
      exact ⟨⟨hst, hu⟩, rfl⟩
    · rw [disableCell_cell_ne (ne_of_pair_ne hp), samples_disableCell]
      exact ⟨⟨hst, hu⟩, hdue⟩

theorem unitsDisabled_cell_of_not (hsub : uCell n k ∈ sub)
    (hno : (s.cell n k).st.switching = false ∨ s.samples n = false) :
    ((s.unitsDisabled sub q).cell n k).st = .disabled := by
  obtain ⟨hcell, hsamp⟩ := cell_before_disableCells (sub := sub) n k s q
  have hno' : ((s.cell n k).st.switching && s.samples n) = false := by
    obtain h | h := hno <;> simp [h]
  unfold State.unitsDisabled
  refine each_reaches (P := fun u => ((u.cell n k).st.switching && u.samples n) = false)
    (Q := fun u => (u.cell n k).st = .disabled) ?_ ?_ ?_ (mem_cellsIn hsub)
    (by rw [hcell, hsamp, hno'])
  · intro p hp u hu
    rwa [disableCell_cell_ne (ne_of_pair_ne hp), samples_disableCell]
  · intro u hu
    rw [disableCell_cell_of_not hu]
  · intro p u hst
    by_cases hp : p = (n.val, k.val)
    · subst hp
      rw [disableCell_cell_of_not (by simp [hst, CellState.switching])]
    · rwa [disableCell_cell_ne (ne_of_pair_ne hp)]

theorem Partless.unitsDisabled (h : Partless s q) (sub : List Nat) : Partless (s.unitsDisabled sub q) q := by
  unfold State.unitsDisabled
  exact each_keeps (P := fun u => Partless u q) (fun p u hu => hu.disableCell p.1 p.2) _
    (each_keeps (P := fun u => Partless u q) (fun d u hu => hu.disableDom d q) _
      (each_keeps (P := fun u => Partless u q) (fun i u hu => hu.stopBanks i q) _ h))

theorem unitsDisabled_dm {d : DomIx} (hsub : uDom d ∈ sub) : ((s.unitsDisabled sub q).dm d).mark = (true, false) := by
  unfold State.unitsDisabled
  refine each_keeps (P := fun u => (u.dm d).mark = (true, false)) ?_ _
    (each_reaches (P := fun _ => True) (Q := fun u => (u.dm d).mark = (true, false)) ?_ ?_ ?_ (mem_domsIn hsub) trivial)
  · intro p u hu
    rw [dmMark_of_standing (standing_of_marks (marks_disableCell u p.1 p.2)), hu]
  · exact fun _ _ _ _ => trivial
  · intro u _
    exact dm_disableDom d q u
  · intro e u hu
    exact dm_disableDom_keeps e q hu

/-- A cluster has no load under way and no swap deferred. -/
def CluMark.noBank (m : CluMark) : Prop := m.loadBusy = false ∧ m.swap = none

theorem unitsDisabled_noBank (hsub : uClu n ∈ sub) : ((s.unitsDisabled sub q).cl n).mark.noBank := by
  have hstop (i : Nat) (u : State) (hi : i = n ∨ (u.cl n).mark.noBank) : ((u.stopBanks i q).cl n).mark.noBank := by
    obtain ⟨ch, h, heq⟩ := stopBanks_eq i q u
    rw [heq]
    show ((u.modCl i _).cl n).mark.noBank
    by_cases hin : i = n
    · subst hin
      rw [cl_modCl _ _ _ n.isLt]
      exact ⟨rfl, rfl⟩
    · rw [cl_modCl_ne _ _ _ _ hin]
      exact hi.resolve_left hin
  unfold State.unitsDisabled
  refine each_keeps (P := fun u => (u.cl n).mark.noBank) ?_ _ (each_keeps (P := fun u => (u.cl n).mark.noBank) ?_ _
    (each_reaches (P := fun _ => True) (Q := fun u => (u.cl n).mark.noBank) ?_ ?_ ?_ (mem_clusIn hsub) trivial))
  · intro p u hu
    rwa [mark_of_standing (standing_of_marks (marks_disableCell u p.1 p.2))]
  · intro d u hu
    rwa [mark_disableDom]
  · exact fun _ _ _ _ => trivial
  · intro u _
    exact hstop n u (.inl rfl)
  · intro i u hu
    exact hstop i u (.inr hu)

end DisableCells
/-! ## Resets of clusters (11 R368) -/

/-- From `s` to `t` no reset of a cluster begins or ends, no domain becomes disabled or enabled, and no time passes. -/
structure SameResets (s t : State) : Prop where
  inReset (m : Nat) : (t.cl m).inReset = (s.cl m).inReset
  resetCmd (m : Nat) : (t.cl m).resetCmd = (s.cl m).resetCmd
  present (m : Nat) : t.present m = s.present m
  disabled (e : Nat) : (t.dm e).disabled = (s.dm e).disabled
  elapsed : t.elapsed = s.elapsed

section Resets
variable {s t u : State} {n : CluIx}

theorem SameResets.refl (s : State) : SameResets s s := ⟨fun _ => rfl, fun _ => rfl, fun _ => rfl, fun _ => rfl, rfl⟩

theorem SameResets.trans (h : SameResets s t) (h' : SameResets t u) : SameResets s u :=
  ⟨fun m => (h'.inReset m).trans (h.inReset m), fun m => (h'.resetCmd m).trans (h.resetCmd m),
    fun m => (h'.present m).trans (h.present m), fun e => (h'.disabled e).trans (h.disabled e), h'.elapsed.trans h.elapsed⟩

theorem SameResets.of_standing (h : t.standing = s.standing) (he : t.elapsed = s.elapsed) : SameResets s t :=
  ⟨fun m => congrArg CluMark.inReset (mark_of_standing h m), fun m => congrArg CluMark.resetCmd (mark_of_standing h m),
    fun m => congrArg (fun v => vget v m != 0) (congrArg UnitMarks.present h),
    fun e => congrArg Prod.fst (dmMark_of_standing h e), he⟩

theorem SameResets.of_parts (hclu : t.clu = s.clu) (hdom : t.dom = s.dom) (hpins : t.pins = s.pins)
    (he : t.elapsed = s.elapsed) : SameResets s t :=
  ⟨fun m => by rw [State.cl, hclu]; rfl, fun m => by rw [State.cl, hclu]; rfl, fun m => by rw [State.present, hpins]; rfl,
    fun e => by rw [State.dm, hdom]; rfl, he⟩

theorem sameResets_each {α : Type} {f : α → State → State} (hf : ∀ x u, SameResets u (f x u)) (l : List α) (s : State) :
    SameResets s (each l f s) :=
  each_keeps (P := fun u => SameResets s u) (fun x u hu => hu.trans (hf x u)) l (.refl s)

theorem sameResets_modDm {f : Domain → Domain} (h : ∀ x, (f x).disabled = x.disabled) (d : Nat) (s : State) :
    SameResets s (s.modDm d f) :=
  ⟨fun _ => rfl, fun _ => rfl, fun _ => rfl, fun e => vget_vmod_congr Domain.disabled s.dom d f (h _) e, rfl⟩

theorem sameResets_modCl {f : Cluster → Cluster} (h : ∀ c, (f c).inReset = c.inReset ∧ (f c).resetCmd = c.resetCmd) (m : Nat)
    (s : State) : SameResets s (s.modCl m f) :=
  ⟨fun j => vget_vmod_congr Cluster.inReset s.clu m f (h _).1 j, fun j => vget_vmod_congr Cluster.resetCmd s.clu m f (h _).2 j,
    fun _ => rfl, fun _ => rfl, rfl⟩

theorem sameResets_modHalf (m h : Nat) (f : Half → Half) (s : State) : SameResets s (s.modHalf m h f) := by
  refine sameResets_modCl ?_ m s
  exact fun _ => ⟨rfl, rfl⟩

/-- A change of every cluster that spares its reset. -/
theorem sameResets_vmap {f : Nat → Cluster → Cluster} (h : ∀ m c, (f m c).inReset = c.inReset ∧ (f m c).resetCmd = c.resetCmd)
    (s : State) : SameResets s { s with clu := vmap f s.clu } := by
  have hcl (m : Nat) : (vget (vmap f s.clu) m).inReset = (vget s.clu m).inReset ∧
      (vget (vmap f s.clu) m).resetCmd = (vget s.clu m).resetCmd := by
    by_cases hm : m < 64
    · rw [vget_vmap _ _ _ hm]
      exact h _ _
    · simp [vget, hm]
  exact ⟨fun m => (hcl m).1, fun m => (hcl m).2, fun _ => rfl, fun _ => rfl, rfl⟩

theorem sameResets_complete (s : State) (slot : Nat) (st : Status) (res : Nat) : SameResets s (s.complete slot st res) := by
  obtain ⟨h, heq⟩ := complete_hostOnly s slot st res
  rw [heq]
  exact .of_parts rfl rfl rfl rfl

theorem sameResets_clearCmd (d : Nat) (s : State) : SameResets s (s.clearCmd d) := by
  unfold State.clearCmd
  refine (sameResets_modDm ?_ d s).trans (sameResets_each (fun p u => ?_) _ _)
  · exact fun _ => rfl
  · exact sameResets_modHalf p.1 p.2 _ u

theorem sameResets_endProbe (slot : Nat) (s : State) : SameResets s (s.endProbe slot) := by
  unfold State.endProbe
  split
  · refine SameResets.trans (t := { s with probes := Tab.del s.probes slot }) (.of_parts rfl rfl rfl rfl)
      (sameResets_modDm ?_ _ _)
    exact fun _ => rfl
  · exact .refl s

/-- What an ended command leaves behind changes no reset. -/
theorem sameResets_forget (slot : Nat) (s : State) : SameResets s (s.forget slot) := by
  unfold State.forget
  extract_lets s₁ s₂ s₃ s₄ s₅
  have h₁ : SameResets s s₁ := sameResets_each (fun d u => sameResets_clearCmd d u) _ s
  have h₂ : SameResets s₁ s₂ := by
    refine sameResets_each (fun d u => sameResets_modDm ?_ d u) _ _
    exact fun _ => rfl
  have h₃ : SameResets s₂ s₃ := by
    refine sameResets_vmap ?_ s₂
    exact fun _ _ => ⟨rfl, rfl⟩
  have h₄ : SameResets s₃ s₄ := sameResets_endProbe slot s₃
  have h₅ : SameResets s₄ s₅ := by
    show SameResets s₄ (match s₄.cmd? slot with
      | some c => _
      | none => _)
    split
    · split
      · refine sameResets_each (fun n u => sameResets_modCl ?_ n u) _ _
        exact fun _ => ⟨rfl, rfl⟩
      · exact .refl _
    · exact .refl _
  exact ((((h₁.trans h₂).trans h₃).trans h₄).trans h₅).trans (.of_parts rfl rfl rfl rfl)

theorem sameResets_revokeAll (m : Nat) (s : State) : SameResets s (s.revokeAll m) := by
  unfold State.revokeAll
  refine sameResets_each (fun p u => ?_) _ s
  exact .of_parts rfl rfl rfl rfl

/-- The commands whose operations a reset ends (R368). -/
def State.endTouched (m : Nat) (s : State) : State :=
  each ((s.host.cmds.filter (fun p => p.2.stage == .dispatched && s.touches m p.2)).map (fun p => p.1))
    (fun q s => match s.cmd? q with
      | some c => (s.complete q .abortedReset (s.resetResult m c)).forget q
      | none => s) s

theorem sameResets_endTouched (m : Nat) (s : State) : SameResets s (s.endTouched m) := by
  unfold State.endTouched
  refine sameResets_each (fun q u => ?_) _ s
  split
  · exact (sameResets_complete u _ _ _).trans (sameResets_forget _ _)
  · exact .refl u

/-- The reset of a cluster asserted, and counted. -/
def State.assertReset (m : Nat) (cmd : Option Nat) (s : State) : State :=
  let s := s.modCl m (fun c => { c with
    inReset := some s.elapsed, resetRel := false, resetCmd := cmd, clock := .waking, wakeBy := s.elapsed + 5000 })
  { s with boot := { s.boot with cluRst := satInc 8 s.boot.cluRst } }

/-- A reset does nothing to an absent cluster, joins a reset under way, or ends what runs at the cluster and is asserted. -/
theorem resetClu_eq (m : Nat) (cmd : Option Nat) (s : State) : s.resetClu m cmd =
    if !s.present m then s
    else if (s.cl m).inReset.isSome then s.modCl m (fun c => { c with resetCmd := c.resetCmd.orElse (fun _ => cmd) })
    else ((s.endTouched m).revokeAll m).assertReset m cmd := rfl

theorem sameResets_revoked (m : Nat) (s : State) : SameResets s ((s.endTouched m).revokeAll m) :=
  (sameResets_endTouched m s).trans (sameResets_revokeAll m _)

theorem assertReset_same (cmd : Option Nat) (s : State) :
    ((s.assertReset n cmd).cl n).inReset = some s.elapsed ∧ ((s.assertReset n cmd).cl n).resetCmd = cmd := by
  show ((s.modCl n _).cl n).inReset = _ ∧ ((s.modCl n _).cl n).resetCmd = _
  rw [cl_modCl _ _ _ n.isLt]
  exact ⟨rfl, rfl⟩

theorem assertReset_ne {m : Nat} (hm : m ≠ n) (cmd : Option Nat) (s : State) : (s.assertReset m cmd).cl n = s.cl n :=
  cl_modCl_ne s m n _ hm

theorem assertReset_frame (m : Nat) (cmd : Option Nat) (s : State) : (∀ j, (s.assertReset m cmd).present j = s.present j) ∧
    (∀ e, (s.assertReset m cmd).dm e = s.dm e) ∧ (s.assertReset m cmd).elapsed = s.elapsed :=
  ⟨fun _ => rfl, fun _ => rfl, rfl⟩

/-- A reset that begins is asserted now, by its command. -/
theorem resetClu_begins {cmd : Option Nat} (hp : s.present n = true) (hr : (s.cl n).inReset = none) :
    ((s.resetClu n cmd).cl n).inReset = some s.elapsed ∧ ((s.resetClu n cmd).cl n).resetCmd = cmd := by
  rw [resetClu_eq, hp, hr, if_neg (by simp), if_neg (by simp), ← (sameResets_revoked n s).elapsed]
  exact assertReset_same cmd _

/-- A reset leaves the resets of the other clusters as they are. -/
theorem resetClu_ne {m : Nat} (hm : m ≠ n) (cmd : Option Nat) (s : State) :
    ((s.resetClu m cmd).cl n).inReset = (s.cl n).inReset ∧ ((s.resetClu m cmd).cl n).resetCmd = (s.cl n).resetCmd := by
  rw [resetClu_eq]
  split
  · exact ⟨rfl, rfl⟩
  split
  · rw [cl_modCl_ne _ _ _ _ hm]
    exact ⟨rfl, rfl⟩
  · rw [assertReset_ne hm]
    exact ⟨(sameResets_revoked m s).inReset n, (sameResets_revoked m s).resetCmd n⟩

/-- A reset changes no presence and no domain's place, and passes no time. -/
theorem resetClu_frame (m : Nat) (cmd : Option Nat) (s : State) : (∀ j, (s.resetClu m cmd).present j = s.present j) ∧
    (∀ e, ((s.resetClu m cmd).dm e).disabled = (s.dm e).disabled) ∧ (s.resetClu m cmd).elapsed = s.elapsed := by
  rw [resetClu_eq]
  split
  · exact ⟨fun _ => rfl, fun _ => rfl, rfl⟩
  split
  · exact ⟨fun _ => rfl, fun _ => rfl, rfl⟩
  · obtain ⟨hpresent, hdm, helapsed⟩ := assertReset_frame m cmd ((s.endTouched m).revokeAll m)
    refine ⟨fun j => (hpresent j).trans ((sameResets_revoked m s).present j), fun e => ?_,
      helapsed.trans (sameResets_revoked m s).elapsed⟩
    rw [hdm]
    exact (sameResets_revoked m s).disabled e

/-- A cluster already in reset for a command stays so. -/
theorem resetClu_again {q e : Nat} (hr : (s.cl n).inReset = some e) (hc : (s.cl n).resetCmd = some q) (cmd : Option Nat) :
    ((s.resetClu n cmd).cl n).inReset = some e ∧ ((s.resetClu n cmd).cl n).resetCmd = some q := by
  rw [resetClu_eq]
  split
  · exact ⟨hr, hc⟩
  · rw [if_pos (by simp [hr]), cl_modCl _ _ _ n.isLt]
    exact ⟨hr, by simp [hc]⟩

end Resets
/-! ## UNIT_ENABLE (11 R369, R371, 03 R93) -/

section Enable
variable {s : State} {slot : Slot} {c : Cmd} {n : CluIx} {k : CellIx}

/-- The state that UNIT_ENABLE leaves a cell in: TEST, where it was disabled, latched or about to be disabled. -/
def Cell.enabledSt (x : Cell) : CellState :=
  if x.st = .disabled ∨ x.st = .latched ∨ x.disDue = true then .test else x.st

/-- A change of a cluster's lanes spares its cells. -/
theorem cell_modLanes (i : Nat) (f : Vector Lane 16 → Vector Lane 16) (m j : Nat) (s : State) :
    (s.modCl i fun c => { c with ctl := { c.ctl with lanes := f c.ctl.lanes } }).cell m j = s.cell m j := by
  refine cell_modCl_of_cells s ?_ i m j
  exact fun _ => rfl

theorem enableCell_cell_ne {i j : Nat} (h : i ≠ n ∨ j ≠ k) (s : State) : (s.enableCell i j).cell n k = s.cell n k := by
  unfold State.enableCell
  dsimp only
  split
  · rw [cellEvent_cell_ne h, State.cell_eq_of_cells (State.wakeClu_cells i _), cell_modLanes i (vmod · j _),
      carrierStart_cell_ne h]
  · rw [cell_modLanes i (vmod · j _), carrierStart_cell_ne h]

/-- A cell at its carrier start waits for no disable any longer. -/
theorem carrierStart_enabledSt (n : CluIx) (k : CellIx) (s : State) :
    ((s.carrierStart n k).cell n k).disDue = false ∧
      ((s.carrierStart n k).cell n k).enabledSt = (s.cell n k).enabledSt := by
  by_cases hdue : (s.cell n k).disDue = true
  · rw [carrierStart_cell_of_due hdue]
    exact ⟨rfl, by simp [Cell.enabledSt, Cell.toDisabled, hdue]⟩
  · rw [State.carrierStart, if_neg hdue]
    exact ⟨by simpa using hdue, rfl⟩

theorem enableCell_cell (n : CluIx) (k : CellIx) (s : State) :
    ((s.enableCell n k).cell n k).st = (s.cell n k).enabledSt ∧ ((s.enableCell n k).cell n k).disDue = false := by
  obtain ⟨hdue, hst⟩ := carrierStart_enabledSt n k s
  rw [← hst]
  unfold State.enableCell
  dsimp only
  rw [cell_modLanes n (vmod · k _)]
  split
  case isTrue h =>
    have hoff : ((s.carrierStart n k).cell n k).st = .disabled ∨ ((s.carrierStart n k).cell n k).st = .latched := by
      simpa using h
    rw [cell_cellEvent, State.cell_eq_of_cells (State.wakeClu_cells n _), cell_modLanes n (vmod · k _)]
    exact ⟨by simp [Cell.enabledSt, Cell.toTest, or_assoc.symm, hoff], hdue⟩
  case isFalse h =>
    have hon : ¬(((s.carrierStart n k).cell n k).st = .disabled ∨ ((s.carrierStart n k).cell n k).st = .latched) := by
      simpa using h
    rw [cell_modLanes n (vmod · k _)]
    exact ⟨by simp [Cell.enabledSt, hon, hdue], hdue⟩

/-- An enabled cell stays in its state when it is enabled once more. -/
theorem enabledSt_of_enabledSt {x y : Cell} (hst : y.st = x.enabledSt) (hdue : y.disDue = false) :
    y.enabledSt = x.enabledSt := by
  by_cases h : x.st = .disabled ∨ x.st = .latched ∨ x.disDue = true
  · have hx : x.enabledSt = .test := if_pos h
    rw [hx, Cell.enabledSt, hst, hx]
    exact ite_self _
  · have hx : x.enabledSt = x.st := if_neg h
    obtain ⟨h1, h2⟩ := not_or.1 h
    obtain ⟨h2, -⟩ := not_or.1 h2
    rw [hx, Cell.enabledSt, hst, hx, hdue, if_neg (by simp [h1, h2])]

theorem sameResets_enableCell (i j : Nat) (s : State) : SameResets s (s.enableCell i j) :=
  .of_standing (standing_of_marks (marks_enableCell s i j)) (elapsed_of_calm (State.enableCell_calm i j s))

/-- The state that a UNIT_ENABLE of the units `sub` leaves before it resets the clusters `resets`. -/
def State.unitsEnabled (sub resets : List Nat) (s : State) : State :=
  each ((cellsIn sub).filter (fun p => !resets.contains p.1)) (fun p s => s.enableCell p.1 p.2)
    (each (domsIn sub) State.enableDom s)

theorem exec_unitEnable_of_chosen (h : Chosen s slot 0x19 c) :
    let resets := (clusIn (s.switchSub c.unit)).filter s.cluDisabled
    let u := (s.dispatched slot).unitsEnabled (s.switchSub c.unit) resets
    exec (.unitEnable slot) s = .next (if resets.isEmpty then u.complete slot .done 0
      else each resets (fun n s => s.resetClu n (some slot)) (u.modCmd slot (fun x => { x with parts := resets }))) :=
  congrArg Host.Outcome.next (opRow_of_chosen h _ _ _)

variable {sub resets : List Nat}

/-- UNIT_ENABLE leaves the commands and their records as they are until its end. -/
theorem unitsEnabled_marks (sub resets : List Nat) (s : State) :
    (s.unitsEnabled sub resets).marks.cmds = s.host.cmds ∧ (s.unitsEnabled sub resets).marks.cpls = s.host.cpls := by
  unfold State.unitsEnabled
  refine each_keeps (P := fun u => u.marks.cmds = s.host.cmds ∧ u.marks.cpls = s.host.cpls) ?_ _
    (each_keeps (P := fun u => u.marks.cmds = s.host.cmds ∧ u.marks.cpls = s.host.cpls) ?_ _ ⟨rfl, rfl⟩)
  · intro p u hu
    rwa [marks_enableCell]
  · exact fun d u hu => hu

/-- Each domain of the units is enabled. -/
theorem unitsEnabled_dm {d : DomIx} (hsub : uDom d ∈ sub) : ((s.unitsEnabled sub resets).dm d).disabled = false := by
  have hdom (e : Nat) (u : State) (he : e = d ∨ (u.dm d).disabled = false) : ((u.enableDom e).dm d).disabled = false := by
    show ((u.modDm e _).dm d).disabled = false
    by_cases hed : e = d
    · subst hed
      rw [dm_modDm _ _ _ d.isLt]
    · rw [dm_modDm_ne _ _ _ _ hed]
      exact he.resolve_left hed
  unfold State.unitsEnabled
  refine each_keeps (P := fun u => (u.dm d).disabled = false) ?_ _
    (each_reaches (P := fun _ => True) (Q := fun u => (u.dm d).disabled = false) ?_ ?_ ?_ (mem_domsIn hsub) trivial)
  · intro p u hu
    rw [(sameResets_enableCell p.1 p.2 u).disabled d, hu]
  · exact fun _ _ _ _ => trivial
  · intro u _
    exact hdom d u (.inl rfl)
  · intro e u hu
    exact hdom e u (.inr hu)

theorem enableDom_cell (d m j : Nat) (s : State) : (s.enableDom d).cell m j = s.cell m j := rfl

/-- Each cell of the units that no reset waits for is enabled. -/
theorem unitsEnabled_cell (hsub : uCell n k ∈ sub) (hno : n.val ∉ resets) :
    ((s.unitsEnabled sub resets).cell n k).st = (s.cell n k).enabledSt := by
  have hdoms : (each (domsIn sub) State.enableDom s).cell n k = s.cell n k :=
    each_keeps (P := fun u => u.cell n k = s.cell n k) (fun d u hu => (enableDom_cell d n k u).trans hu) _ rfl
  have hmem : (n.val, k.val) ∈ (cellsIn sub).filter (fun p => !resets.contains p.1) :=
    List.mem_filter.2 ⟨mem_cellsIn hsub, by simpa using hno⟩
  unfold State.unitsEnabled
  refine (each_reaches (P := fun u => u.cell n k = s.cell n k)
    (Q := fun u => (u.cell n k).st = (s.cell n k).enabledSt ∧ (u.cell n k).disDue = false) ?_ ?_ ?_ hmem hdoms).1
  · intro p hp u hu
    rw [enableCell_cell_ne (ne_of_pair_ne hp), hu]
  · intro u hu
    have hown := enableCell_cell n k u
    rwa [hu] at hown
  · rintro p u ⟨hst, hdue⟩
    by_cases hp : p = (n.val, k.val)
    · subst hp
      have hown := enableCell_cell n k u
      rwa [enabledSt_of_enabledSt hst hdue] at hown
    · rw [enableCell_cell_ne (ne_of_pair_ne hp)]
      exact ⟨hst, hdue⟩

/-- A record formed after what spares the records is the one record more. -/
theorem Completed.of_cpls {t u : State} {q : Nat} {st : Status} {res : Nat} (h : Completed u t q st res)
    (hu : u.host.cpls = s.host.cpls) : Completed s t q st res := by
  rwa [Completed, hu] at h

/-- No reset begins while units are enabled. -/
theorem unitsEnabled_resets (m : Nat) (sub resets : List Nat) (s : State) :
    ((s.unitsEnabled sub resets).cl m).inReset = (s.cl m).inReset ∧
      (s.unitsEnabled sub resets).present m = s.present m ∧ (s.unitsEnabled sub resets).elapsed = s.elapsed := by
  have hcells := sameResets_each (f := fun (p : Nat × Nat) u => u.enableCell p.1 p.2) (fun p u => sameResets_enableCell p.1 p.2 u)
    ((cellsIn sub).filter (fun p => !resets.contains p.1)) (each (domsIn sub) State.enableDom s)
  have hdoms : (each (domsIn sub) State.enableDom s).cl m = s.cl m ∧
      (each (domsIn sub) State.enableDom s).present m = s.present m ∧
      (each (domsIn sub) State.enableDom s).elapsed = s.elapsed := by
    refine each_keeps (P := fun u => u.cl m = s.cl m ∧ u.present m = s.present m ∧ u.elapsed = s.elapsed) ?_ _ ⟨rfl, rfl, rfl⟩
    rintro d u ⟨hcl, hp, he⟩
    exact ⟨hcl, hp, he⟩
  obtain ⟨hcl, hp, he⟩ := hdoms
  exact ⟨(hcells.inReset m).trans (by rw [hcl]), (hcells.present m).trans hp, hcells.elapsed.trans he⟩

/-- Each cluster of a list that is present and not in reset is reset for the command. -/
theorem resets_begin {q : Nat} {l : List Nat} (hmem : n.val ∈ l) (hp : s.present n = true) (hr : (s.cl n).inReset = none) :
    ((each l (fun n s => s.resetClu n (some q)) s).cl n).inReset = some s.elapsed ∧
      ((each l (fun n s => s.resetClu n (some q)) s).cl n).resetCmd = some q := by
  refine each_reaches (P := fun u => u.present n = true ∧ (u.cl n).inReset = none ∧ u.elapsed = s.elapsed)
    (Q := fun u => (u.cl n).inReset = some s.elapsed ∧ (u.cl n).resetCmd = some q) ?_ ?_ ?_ hmem ⟨hp, hr, rfl⟩
  · rintro m hm u ⟨hpu, hru, heu⟩
    obtain ⟨hpres, -, helapsed⟩ := resetClu_frame m (some q) u
    obtain ⟨hreset, -⟩ := resetClu_ne hm (some q) u
    exact ⟨(hpres n).trans hpu, hreset.trans hru, helapsed.trans heu⟩
  · rintro u ⟨hpu, hru, heu⟩
    rw [← heu]
    exact resetClu_begins hpu hru
  · rintro m u ⟨hru, hcu⟩
    by_cases hm : m = n
    · subst hm
      exact resetClu_again hru hcu _
    · obtain ⟨hreset, hcmd⟩ := resetClu_ne hm (some q) u
      exact ⟨hreset.trans hru, hcmd.trans hcu⟩

end Enable
/-! ## LOAD_BANK and SWAP_BANK (04 R136 to R138) -/

section Turns
variable {α : Type} {P Q : State → Prop} {f : α → State → State} {k : α} {l : List α} {s : State}

/-- What every turn of a list's own elements keeps holds at the end. -/
theorem each_keeps_of_mem (hf : ∀ x ∈ l, ∀ s, P s → P (f x s)) (h : P s) : P (each l f s) := by
  induction l generalizing s with
  | nil => exact h
  | cons x l ih => exact ih (fun y hy => hf y (List.mem_cons_of_mem _ hy)) (hf x (List.mem_cons_self ..) s h)

/-- In a list without repetition an element has one turn, and the others leave before it what it rests on and after it what
it brings about. -/
theorem each_turn (hbefore : ∀ x, x ≠ k → ∀ s, P s → P (f x s)) (hk : ∀ s, P s → Q (f k s))
    (hafter : ∀ x, x ≠ k → ∀ s, Q s → Q (f x s)) (hl : k ∈ l) (hnodup : l.Nodup) (h : P s) : Q (each l f s) := by
  induction l generalizing s with
  | nil => simp at hl
  | cons x l ih =>
    obtain ⟨hx, hnodup'⟩ := List.nodup_cons.1 hnodup
    by_cases hxk : x = k
    · subst hxk
      exact each_keeps_of_mem (l := l) (fun y hy => hafter y fun e => hx (e ▸ hy)) (hk s h)
    · exact ih ((List.mem_cons.1 hl).resolve_left (Ne.symm hxk)) hnodup' (hbefore x hxk s h)

end Turns

/-- A bank command reaches each cluster once. -/
theorem bankClus_nodup (cs : CallSheet) (u : Nat) : (cs.bankClus u).Nodup := by
  unfold CallSheet.bankClus
  split
  · split
    · exact List.nodup_singleton _
    · exact List.nodup_nil
  · exact (List.nodup_range.filter _).filter _

theorem lt_of_mem_bankClus {cs : CallSheet} {u n : Nat} (h : n ∈ cs.bankClus u) : n < 64 := by
  unfold CallSheet.bankClus at h
  split at h
  next m hm =>
    have hlt : m < 64 := by
      unfold uKind at hm
      split_ifs at hm
      cases hm
      omega
    split at h
    · rwa [List.mem_singleton.1 h]
    · simp at h
  next =>
    obtain ⟨hmem, -⟩ := List.mem_filter.1 h
    obtain ⟨hmem, -⟩ := List.mem_filter.1 hmem
    exact List.mem_range.1 hmem

section Banks
variable {s : State} {slot : Slot} {c : Cmd} {n : Nat}

/-- A wake spares the banks and the reset of every cluster. -/
theorem wakeClu_keeps (m n : Nat) (s : State) : ((s.wakeClu m).cl n).ctl = (s.cl n).ctl ∧
    ((s.wakeClu m).cl n).inReset = (s.cl n).inReset := by
  unfold State.wakeClu
  split
  · refine modCl_keeps (P := fun d => d.ctl = (s.cl n).ctl ∧ d.inReset = (s.cl n).inReset) ?_ ⟨rfl, rfl⟩ m
    exact fun d hd => hd
  · refine modCl_keeps (P := fun d => d.ctl = (s.cl n).ctl ∧ d.inReset = (s.cl n).inReset) ?_ ⟨rfl, rfl⟩ m
    exact fun d hd => hd

theorem wakeClu_host (m : Nat) (s : State) : (s.wakeClu m).host = s.host ∧ (s.wakeClu m).out = s.out ∧ (s.wakeClu m).ch = s.ch := by
  unfold State.wakeClu
  split <;> exact ⟨rfl, rfl, rfl⟩

theorem endPart_keeps (q d : Nat) (st : Status) (n : Nat) (s : State) : (s.endPart q d st).cl n = s.cl n ∧
    (s.endPart q d st).ch = s.ch := by
  obtain ⟨h, heq⟩ := endPart_hostOnly s q d st
  rw [heq]
  exact ⟨rfl, rfl⟩

/-- The banks of a cluster with a load under way into the inactive one. -/
def Ctl.loading (x : Ctl) : Ctl := { (x.setInactive { x.inactive with valid := false }) with loadBusy := true }

theorem Ctl.loading_spec (x : Ctl) : x.loading.loadBusy = true ∧ x.loading.inactive.valid = false ∧ x.loading.active = x.active := by
  unfold Ctl.loading Ctl.setInactive Ctl.inactive Ctl.active
  split <;> simp_all

/-- A load that begins in a cluster. -/
theorem loadBegin_same (hn : n < 64) (s : State) : ((s.loadBegin n).cl n).ctl = ((s.cl n).ctl).loading ∧
    ((s.loadBegin n).cl n).inReset = (s.cl n).inReset := by
  obtain ⟨hctl, hreset⟩ := wakeClu_keeps n n s
  rw [State.loadBegin, cl_modCl _ _ _ hn, ← hctl, ← hreset]
  exact ⟨rfl, rfl⟩

theorem loadBegin_ne {m : Nat} (hm : m ≠ n) (s : State) : ((s.loadBegin m).cl n).ctl = (s.cl n).ctl ∧
    ((s.loadBegin m).cl n).inReset = (s.cl n).inReset := by
  rw [State.loadBegin, cl_modCl_ne _ _ _ _ hm]
  exact wakeClu_keeps m n s

theorem loadBegin_inReset (m n : Nat) (s : State) : ((s.loadBegin m).cl n).inReset = (s.cl n).inReset := by
  unfold State.loadBegin
  refine modCl_keeps (P := fun d => d.inReset = (s.cl n).inReset) ?_ (wakeClu_keeps m n s).2 m
  exact fun d hd => hd

theorem loadBegin_host (m : Nat) (s : State) :
    (s.loadBegin m).host = s.host ∧ (s.loadBegin m).out = s.out ∧ (s.loadBegin m).ch = s.ch :=
  wakeClu_host m s

/-- LOAD_BANK in one cluster: its part ends with the cluster's reset, else its load begins, from the host or an archive. -/
def State.loadPart (slot src n : Nat) (s : State) : State :=
  if (s.cl n).inReset.isSome then s.endPart slot n .abortedReset
  else if src == 0 then s.loadBegin n
  else (s.loadBegin n).modChan n (fun x => { x with jobs := x.jobs ++ [.arch slot (src - 1)] })

/-- SWAP_BANK in one cluster: its part ends with the cluster's reset, else the swap is deferred. -/
def State.swapPart (slot by_ n : Nat) (s : State) : State :=
  if (s.cl n).inReset.isSome then s.endPart slot n .abortedReset
  else (s.wakeClu n).modCl n (fun c => { c with ctl := { c.ctl with swap := some (slot, by_) } })

/-- A part of LOAD_BANK in another cluster. -/
theorem loadPart_ne {m : Nat} (hm : m ≠ n) (q src : Nat) (s : State) : ((s.loadPart q src m).cl n).ctl = (s.cl n).ctl ∧
    ((s.loadPart q src m).cl n).inReset = (s.cl n).inReset ∧ (s.loadPart q src m).chan n = s.chan n := by
  unfold State.loadPart
  split
  · obtain ⟨hcl, hch⟩ := endPart_keeps q m .abortedReset n s
    rw [hcl, State.chan, hch]
    exact ⟨rfl, rfl, rfl⟩
  obtain ⟨hctl, hreset⟩ := loadBegin_ne hm s
  obtain ⟨-, -, hch⟩ := loadBegin_host m s
  split
  · exact ⟨hctl, hreset, by rw [State.chan, hch]; rfl⟩
  · exact ⟨hctl, hreset, by rw [chan_modChan_ne _ _ _ _ hm, State.chan, hch]; rfl⟩

/-- The part of LOAD_BANK in a cluster that is not in reset. -/
theorem loadPart_same (hn : n < 64) (hr : (s.cl n).inReset = none) (q src : Nat) :
    ((s.loadPart q src n).cl n).ctl = (s.cl n).ctl.loading ∧
      (src ≠ 0 → ((s.loadPart q src n).chan n).jobs = (s.chan n).jobs ++ [.arch q (src - 1)]) := by
  obtain ⟨hctl, -⟩ := loadBegin_same hn s
  obtain ⟨-, -, hch⟩ := loadBegin_host n s
  unfold State.loadPart
  rw [hr, if_neg (by simp)]
  split
  case isTrue h => exact ⟨hctl, fun hsrc => absurd (by simpa using h) hsrc⟩
  case isFalse =>
    refine ⟨hctl, fun _ => ?_⟩
    rw [chan_modChan _ _ _ (by omega), State.chan, hch]
    rfl

theorem swapPart_ne {m : Nat} (hm : m ≠ n) (q by_ : Nat) (s : State) : ((s.swapPart q by_ m).cl n).ctl = (s.cl n).ctl ∧
    ((s.swapPart q by_ m).cl n).inReset = (s.cl n).inReset := by
  unfold State.swapPart
  split
  · obtain ⟨hcl, -⟩ := endPart_keeps q m .abortedReset n s
    rw [hcl]
    exact ⟨rfl, rfl⟩
  · rw [cl_modCl_ne _ _ _ _ hm]
    exact wakeClu_keeps m n s

theorem swapPart_same (hn : n < 64) (hr : (s.cl n).inReset = none) (q by_ : Nat) :
    ((s.swapPart q by_ n).cl n).ctl = { (s.cl n).ctl with swap := some (q, by_) } := by
  obtain ⟨hctl, -⟩ := wakeClu_keeps n n s
  rw [State.swapPart, hr, if_neg (by simp), cl_modCl _ _ _ hn, ← hctl]

/-- LOAD_BANK sent to each cluster of a list. -/
def State.loadParts (slot src : Nat) (ns : List Nat) (s : State) : State :=
  each ns (State.loadPart slot src) (s.modCmd slot (fun x => { x with parts := ns }))

/-- A host image is read once for all clusters of a LOAD_BANK (R137). -/
def State.readImage (slot : Nat) (c : Cmd) (s : State) : State :=
  match s.cmd? slot with
  | some x =>
    if c.opnd 2 48 3 == 0 && x.stage == .dispatched then
      s.startRead (c.opnd 2 0 48) 8192 (.bank slot) (vget s.host.rings c.ring).pid
    else s
  | none => s

/-- The start of a read changes the transfers alone. -/
theorem startRead_frame (addr bytes : Nat) (use : RdUse) (src : Nat) (s : State) : ∃ reads out,
    s.startRead addr bytes use src = { s with host := { s.host with reads := reads }, out := out } := by
  unfold State.startRead
  dsimp only
  split <;> exact ⟨_, _, rfl⟩

theorem readImage_keeps (slot : Nat) (c : Cmd) (s : State) :
    (s.readImage slot c).clu = s.clu ∧ (s.readImage slot c).ch = s.ch ∧ (s.readImage slot c).cmd? slot = s.cmd? slot := by
  unfold State.readImage
  split
  · split
    · obtain ⟨reads, out, heq⟩ := startRead_frame (c.opnd 2 0 48) 8192 (.bank slot) (vget s.host.rings c.ring).pid s
      rw [heq]
      exact ⟨rfl, rfl, rfl⟩
    · exact ⟨rfl, rfl, rfl⟩
  · exact ⟨rfl, rfl, rfl⟩

theorem readImage_of_dispatched {x : Cmd} (hx : s.cmd? slot = some x) (hstage : x.stage = .dispatched)
    (hsrc : c.opnd 2 48 3 = 0) : s.readImage slot c =
      s.startRead (c.opnd 2 0 48) 8192 (.bank slot) (vget s.host.rings c.ring).pid := by
  simp [State.readImage, hx, hstage, hsrc]

/-- A cluster of a bank command that refuses LOAD_BANK. -/
def State.loadBad (s : State) (c : Cmd) (n : Nat) : Bool :=
  (s.cl n).ctl.swap.isSome || (c.opnd 2 48 3 != 0 && (s.chan n).st == 3)

theorem exec_loadBank_of_chosen (h : Chosen s slot 0x06 c) : exec (.loadBank slot) s = .next
    (match (s.sheet.bankClus c.unit).find? (s.loadBad c) with
    | some n => (s.dispatched slot).complete slot .rejectedState (bankResult n)
    | none =>
      if (s.sheet.bankClus c.unit).isEmpty then (s.dispatched slot).complete slot .done 0
      else ((s.dispatched slot).loadParts slot (c.opnd 2 48 3) (s.sheet.bankClus c.unit)).readImage slot c) :=
  congrArg Host.Outcome.next (opRow_of_chosen h _ _ _)

theorem exec_swapBank_of_chosen (h : Chosen s slot 0x07 c) : exec (.swapBank slot) s = .next
    (match (s.sheet.bankClus c.unit).find? s.swapBad with
    | some n => (s.dispatched slot).complete slot .rejectedState (bankResult n)
    | none =>
      if (s.sheet.bankClus c.unit).isEmpty then (s.dispatched slot).complete slot .done 0
      else each (s.sheet.bankClus c.unit) (State.swapPart slot (s.elapsed + 1000 * s.sheet.s2.swapTo))
        ((s.dispatched slot).modCmd slot (fun x => { x with parts := s.sheet.bankClus c.unit }))) :=
  congrArg Host.Outcome.next (opRow_of_chosen h _ _ _)

/-- A command that ends at its dispatch spares the clusters. -/
theorem complete_clu (s : State) (q : Nat) (st : Status) (res : Nat) : (s.complete q st res).clu = s.clu := by
  obtain ⟨h, heq⟩ := complete_hostOnly s q st res
  rw [heq]

/-- What LOAD_BANK does in a cluster that it reaches and that is not in reset. -/
theorem loadParts_same {ns : List Nat} (hn : n ∈ ns) (hlt : n < 64) (hnodup : ns.Nodup) (hr : (s.cl n).inReset = none)
    (q src : Nat) : ((s.loadParts q src ns).cl n).ctl = (s.cl n).ctl.loading ∧
      (src ≠ 0 → ((s.loadParts q src ns).chan n).jobs = (s.chan n).jobs ++ [.arch q (src - 1)]) := by
  unfold State.loadParts
  refine each_turn (f := State.loadPart q src) (s := s.modCmd q fun x => { x with parts := ns })
    (P := fun u => (u.cl n).ctl = (s.cl n).ctl ∧ (u.cl n).inReset = (s.cl n).inReset ∧ u.chan n = s.chan n)
    (Q := fun u => (u.cl n).ctl = (s.cl n).ctl.loading ∧ (src ≠ 0 → (u.chan n).jobs = (s.chan n).jobs ++ [.arch q (src - 1)]))
    ?_ ?_ ?_ hn hnodup ⟨rfl, rfl, rfl⟩
  · rintro m hm u ⟨hctl, hreset, hchan⟩
    obtain ⟨hctl', hreset', hchan'⟩ := loadPart_ne hm q src u
    exact ⟨hctl'.trans hctl, hreset'.trans hreset, hchan'.trans hchan⟩
  · rintro u ⟨hctl, hreset, hchan⟩
    rw [← hctl, ← hchan]
    exact loadPart_same hlt (hreset.trans hr) q src
  · rintro m hm u ⟨hctl, hjobs⟩
    obtain ⟨hctl', -, hchan'⟩ := loadPart_ne hm q src u
    rw [hctl', hchan']
    exact ⟨hctl, hjobs⟩

/-- Where no cluster is in reset, the parts of LOAD_BANK leave the host interface as its dispatch left it. -/
theorem loadParts_host {ns : List Nat} (hr : ∀ m ∈ ns, (s.cl m).inReset = none) (q src : Nat) :
    (s.loadParts q src ns).host = (s.modCmd q (fun x => { x with parts := ns })).host ∧ (s.loadParts q src ns).out = s.out := by
  unfold State.loadParts
  refine (each_keeps_of_mem (s := s.modCmd q fun x => { x with parts := ns }) (P := fun u => (∀ m ∈ ns, (u.cl m).inReset = none) ∧
    u.host = (s.modCmd q (fun x => { x with parts := ns })).host ∧ u.out = s.out) ?_ ⟨hr, rfl, rfl⟩).2
  rintro m hm u ⟨hru, hhost, hout⟩
  obtain ⟨hhost', hout', -⟩ := loadBegin_host m u
  unfold State.loadPart
  rw [hru m hm, if_neg (by simp)]
  split
  · exact ⟨fun j hj => (loadBegin_inReset m j u).trans (hru j hj), hhost'.trans hhost, hout'.trans hout⟩
  · exact ⟨fun j hj => (loadBegin_inReset m j u).trans (hru j hj), hhost'.trans hhost, hout'.trans hout⟩

/-- LOAD_BANK where no cluster of its reach is in reset runs, and its host image is being read. -/
theorem loadBank_runs {ns : List Nat} (h : Chosen s slot 0x06 c) (hr : ∀ m ∈ ns, (s.cl m).inReset = none) :
    Running (((s.dispatched slot).loadParts slot (c.opnd 2 48 3) ns).readImage slot c) slot ∧
      (c.opnd 2 48 3 = 0 → Fetches s (((s.dispatched slot).loadParts slot (c.opnd 2 48 3) ns).readImage slot c)
        (c.opnd 2 0 48) 8192 (.bank slot) (vget s.host.rings c.ring).pid) := by
  obtain ⟨hhost, hout⟩ := loadParts_host (s := s.dispatched slot) hr slot (c.opnd 2 48 3)
  have hcmd : ((s.dispatched slot).loadParts slot (c.opnd 2 48 3) ns).cmd? slot =
      some { c with stage := .dispatched, parts := ns } := by
    rw [State.cmd?, hhost]
    exact cmd?_modCmd_same (cmd?_dispatched h) _
  refine ⟨⟨_, (readImage_keeps slot c _).2.2.trans hcmd, rfl⟩, fun hsrc => ?_⟩
  have hfetch := startRead_fetches (c.opnd 2 0 48) 8192 (.bank slot) (vget s.host.rings c.ring).pid
    ((s.dispatched slot).loadParts slot (c.opnd 2 48 3) ns)
  have hread : ((s.dispatched slot).loadParts slot (c.opnd 2 48 3) ns).readImage slot c =
      ((s.dispatched slot).loadParts slot (c.opnd 2 48 3) ns).startRead (c.opnd 2 0 48) 8192 (.bank slot)
        (vget s.host.rings c.ring).pid := by
    have hrings : ((s.dispatched slot).loadParts slot (c.opnd 2 48 3) ns).host.rings = s.host.rings := by rw [hhost]; rfl
    rw [readImage_of_dispatched hcmd rfl hsrc, hrings]
  rw [hread]
  have hreads : ((s.dispatched slot).loadParts slot (c.opnd 2 48 3) ns).host.reads = s.host.reads := by rw [hhost]; rfl
  rw [Fetches, hreads, hout] at hfetch
  exact hfetch

/-- What SWAP_BANK does in a cluster that it reaches and that is not in reset. -/
theorem swapParts_same {ns : List Nat} (hn : n ∈ ns) (hlt : n < 64) (hnodup : ns.Nodup) (hr : (s.cl n).inReset = none)
    (q by_ : Nat) : ((each ns (State.swapPart q by_) s).cl n).ctl = { (s.cl n).ctl with swap := some (q, by_) } := by
  refine each_turn (f := State.swapPart q by_) (s := s) (P := fun u => (u.cl n).ctl = (s.cl n).ctl ∧ (u.cl n).inReset = (s.cl n).inReset)
    (Q := fun u => (u.cl n).ctl = { (s.cl n).ctl with swap := some (q, by_) }) ?_ ?_ ?_ hn hnodup ⟨rfl, rfl⟩
  · rintro m hm u ⟨hctl, hreset⟩
    obtain ⟨hctl', hreset'⟩ := swapPart_ne hm q by_ u
    exact ⟨hctl'.trans hctl, hreset'.trans hreset⟩
  · rintro u ⟨hctl, hreset⟩
    rw [← hctl]
    exact swapPart_same hlt (hreset.trans hr) q by_
  · rintro m hm u hctl
    obtain ⟨hctl', -⟩ := swapPart_ne hm q by_ u
    rw [hctl', hctl]

end Banks

section UnitCommands
variable {s : State} {slot : Slot} {c : Cmd}

/-- LOAD_BANK is refused by the first cluster of its reach that cannot take it. -/
theorem loadBank_refused {n : Nat} (h : Chosen s slot 0x06 c) (hbad : (s.sheet.bankClus c.unit).find? (s.loadBad c) = some n) :
    ∃ t, exec (.loadBank slot) s = .next t ∧ Completed s t slot .rejectedState (n * 2 ^ 8) ∧ t.clu = s.clu := by
  refine ⟨_, exec_loadBank_of_chosen h, ?_⟩
  rw [hbad]
  exact ⟨completed_dispatched h _ _, complete_clu _ _ _ _⟩

/-- LOAD_BANK that reaches no cluster is done. -/
theorem loadBank_empty (h : Chosen s slot 0x06 c) (hnil : s.sheet.bankClus c.unit = []) :
    ∃ t, exec (.loadBank slot) s = .next t ∧ Completed s t slot .done 0 ∧ t.clu = s.clu := by
  refine ⟨_, exec_loadBank_of_chosen h, ?_⟩
  rw [hnil]
  exact ⟨completed_dispatched h _ _, complete_clu _ _ _ _⟩

/-- LOAD_BANK that every cluster of its reach can take. -/
theorem loadBank_loads (h : Chosen s slot 0x06 c) (hnil : s.sheet.bankClus c.unit ≠ [])
    (hok : ∀ n ∈ s.sheet.bankClus c.unit, (s.cl n).ctl.swap = none ∧ (c.opnd 2 48 3 ≠ 0 → (s.chan n).st ≠ 3)) :
    ∃ t, exec (.loadBank slot) s = .next t ∧
      (∀ n ∈ s.sheet.bankClus c.unit, (s.cl n).inReset = none →
        (t.cl n).ctl.loadBusy = true ∧ (t.cl n).ctl.inactive.valid = false ∧
        (t.cl n).ctl.active = (s.cl n).ctl.active ∧
        (c.opnd 2 48 3 ≠ 0 → (t.chan n).jobs = (s.chan n).jobs ++ [.arch slot (c.opnd 2 48 3 - 1)])) ∧
      ((∀ n ∈ s.sheet.bankClus c.unit, (s.cl n).inReset = none) → Running t slot ∧
        (c.opnd 2 48 3 = 0 → Fetches s t (c.opnd 2 0 48) 8192 (.bank slot) (vget s.host.rings c.ring).pid)) := by
  have hfind : (s.sheet.bankClus c.unit).find? (s.loadBad c) = none := by
    refine List.find?_eq_none.2 fun n hn => ?_
    obtain ⟨hswap, hst⟩ := hok n hn
    simpa [State.loadBad, hswap] using hst
  refine ⟨_, exec_loadBank_of_chosen h, ?_⟩
  rw [hfind]
  simp only [List.isEmpty_iff, hnil, if_false]
  refine ⟨fun n hn hr => ?_, fun hr => loadBank_runs h hr⟩
  obtain ⟨hctl, hjobs⟩ := loadParts_same (s := s.dispatched slot) hn (lt_of_mem_bankClus hn) (bankClus_nodup _ _) hr slot
    (c.opnd 2 48 3)
  obtain ⟨hclu, hch, -⟩ := readImage_keeps slot c ((s.dispatched slot).loadParts slot (c.opnd 2 48 3) (s.sheet.bankClus c.unit))
  obtain ⟨hbusy, hvalid, hactive⟩ := Ctl.loading_spec (s.cl n).ctl
  rw [State.cl, hclu, State.chan, hch]
  change _ = (s.cl n).ctl.loading at hctl
  rw [← hctl] at hbusy hvalid hactive
  exact ⟨hbusy, hvalid, hactive, hjobs⟩

/-- SWAP_BANK is refused by the first cluster of its reach in which it is illegal. -/
theorem swapBank_refused {n : Nat} (h : Chosen s slot 0x07 c) (hbad : (s.sheet.bankClus c.unit).find? s.swapBad = some n) :
    ∃ t, exec (.swapBank slot) s = .next t ∧ Completed s t slot .rejectedState (n * 2 ^ 8) ∧ t.clu = s.clu := by
  refine ⟨_, exec_swapBank_of_chosen h, ?_⟩
  rw [hbad]
  exact ⟨completed_dispatched h _ _, complete_clu _ _ _ _⟩

/-- SWAP_BANK that is legal in every cluster of its reach. -/
theorem swapBank_defers (h : Chosen s slot 0x07 c) (hok : (s.sheet.bankClus c.unit).find? s.swapBad = none) :
    ∃ t, exec (.swapBank slot) s = .next t ∧ (s.sheet.bankClus c.unit = [] → Completed s t slot .done 0) ∧
      ∀ n ∈ s.sheet.bankClus c.unit, (s.cl n).inReset = none →
        (t.cl n).ctl = { (s.cl n).ctl with swap := some (slot.val, s.elapsed + 1000 * s.sheet.s2.swapTo) } := by
  refine ⟨_, exec_swapBank_of_chosen h, ?_⟩
  rw [hok]
  refine ⟨fun hnil => ?_, fun n hn hr => ?_⟩
  · rw [hnil]
    exact completed_dispatched h _ _
  · have hne : (s.sheet.bankClus c.unit).isEmpty = false := by
      cases hl : s.sheet.bankClus c.unit with
      | nil => simp [hl] at hn
      | cons x l => rfl
    simp only [hne, Bool.false_eq_true, if_false]
    exact swapParts_same (s := (s.dispatched slot).modCmd slot fun x => { x with parts := s.sheet.bankClus c.unit }) hn
      (lt_of_mem_bankClus hn) (bankClus_nodup _ _) hr slot (s.elapsed + 1000 * s.sheet.s2.swapTo)

/-- UNIT_DISABLE ends after its banks, its domains and its cells. -/
theorem unitDisable_disables (h : Chosen s slot 0x18 c) :
    ∃ t, exec (.unitDisable slot) s = .next t ∧
      (∀ (n : CluIx) (k : CellIx), uCell n k ∈ s.switchSub c.unit →
        ((s.cell n k).st.switching = true → s.samples n = true →
          (t.cell n k).st = (s.cell n k).st ∧ (t.cell n k).disDue = true) ∧
        ((s.cell n k).st.switching = false ∨ s.samples n = false → (t.cell n k).st = .disabled)) ∧
      (c.parts = [] → Ended t slot .done 0) ∧
      (∀ d : DomIx, uDom d ∈ s.switchSub c.unit → (t.dm d).disabled = true ∧ (t.dm d).on = false) ∧
      (∀ n : CluIx, uClu n ∈ s.switchSub c.unit → (t.cl n).ctl.loadBusy = false ∧ (t.cl n).ctl.swap = none) := by
  refine ⟨_, exec_unitDisable_of_chosen h, ?_⟩
  obtain ⟨host, heq⟩ := complete_hostOnly ((s.dispatched slot).unitsDisabled (s.switchSub c.unit) slot) slot .done 0
  refine ⟨fun n k hsub => ⟨fun hsw hsamp => ?_, fun hno => ?_⟩, fun hparts => ?_, fun d hsub => ?_, fun n hsub => ?_⟩
  · rw [heq]
    exact unitsDisabled_cell_of_switching (s := s.dispatched slot) hsub hsw hsamp
  · rw [heq]
    exact unitsDisabled_cell_of_not (s := s.dispatched slot) hsub hno
  · have hpartless : Partless (s.dispatched slot) slot := ⟨_, cmd?_dispatched h, rfl, hparts⟩
    exact (hpartless.unitsDisabled _).ended _ _
  · have hmark := unitsDisabled_dm (s := s.dispatched slot) (q := slot) hsub
    rw [heq]
    exact Prod.ext_iff.1 hmark
  · have hmark := unitsDisabled_noBank (s := s.dispatched slot) (q := slot) hsub
    rw [heq]
    exact hmark

/-- UNIT_ENABLE without a cluster to reset is done once its cells run TEST. -/
theorem unitEnable_done (h : Chosen s slot 0x19 c) (hnone : (clusIn (s.switchSub c.unit)).filter s.cluDisabled = []) :
    ∃ t, exec (.unitEnable slot) s = .next t ∧ Completed s t slot .done 0 ∧
      (∀ d : DomIx, uDom d ∈ s.switchSub c.unit → (t.dm d).disabled = false) ∧
      (∀ (n : CluIx) (k : CellIx), uCell n k ∈ s.switchSub c.unit →
        (t.cell n k).st = (if (s.cell n k).st = .disabled ∨ (s.cell n k).st = .latched ∨ (s.cell n k).disDue = true then .test
          else (s.cell n k).st)) := by
  refine ⟨_, exec_unitEnable_of_chosen h, ?_⟩
  rw [hnone, if_pos List.isEmpty_nil]
  obtain ⟨hcmds, hcpls⟩ := unitsEnabled_marks (s.switchSub c.unit) [] (s.dispatched slot)
  obtain ⟨host, heq⟩ := complete_hostOnly ((s.dispatched slot).unitsEnabled (s.switchSub c.unit) []) slot .done 0
  refine ⟨?_, fun d hsub => ?_, fun n k hsub => ?_⟩
  · have hcmd : ((s.dispatched slot).unitsEnabled (s.switchSub c.unit) []).cmd? slot = some { c with stage := .dispatched } := by
      have hhost : ((s.dispatched slot).unitsEnabled (s.switchSub c.unit) []).host.cmds = (s.dispatched slot).host.cmds := hcmds
      rw [State.cmd?, hhost]
      exact cmd?_dispatched h
    exact (complete_completed hcmd (by simp) _ _).of_cpls hcpls
  · rw [heq]
    exact unitsEnabled_dm (s := s.dispatched slot) hsub
  · rw [heq]
    exact unitsEnabled_cell (s := s.dispatched slot) hsub (List.not_mem_nil)

/-- UNIT_ENABLE resets each cluster of its units that is disabled as a whole. -/
theorem unitEnable_resets (h : Chosen s slot 0x19 c) :
    ∃ t, exec (.unitEnable slot) s = .next t ∧
      (∀ d : DomIx, uDom d ∈ s.switchSub c.unit → (t.dm d).disabled = false) ∧
      ∀ n : CluIx, uClu n ∈ s.switchSub c.unit → s.cluDisabled n = true → s.present n = true →
        (s.cl n).inReset = none → (t.cl n).inReset = some s.elapsed ∧ (t.cl n).resetCmd = some slot.val := by
  refine ⟨_, exec_unitEnable_of_chosen h, fun d hsub => ?_, fun n hsub hdis hp hr => ?_⟩
  · have hdm := unitsEnabled_dm (s := s.dispatched slot) (resets := (clusIn (s.switchSub c.unit)).filter s.cluDisabled) hsub
    split
    · obtain ⟨host, heq⟩ := complete_hostOnly ((s.dispatched slot).unitsEnabled (s.switchSub c.unit)
        ((clusIn (s.switchSub c.unit)).filter s.cluDisabled)) slot .done 0
      rw [heq]
      exact hdm
    · refine each_keeps (P := fun u => (u.dm d).disabled = false) (fun m u hu => ?_) _ hdm
      obtain ⟨-, hdom, -⟩ := resetClu_frame m (some slot) u
      exact (hdom d).trans hu
  · have hmem : n.val ∈ (clusIn (s.switchSub c.unit)).filter s.cluDisabled := List.mem_filter.2 ⟨mem_clusIn hsub, hdis⟩
    obtain ⟨hreset, hpres, helapsed⟩ := unitsEnabled_resets n (s.switchSub c.unit)
      ((clusIn (s.switchSub c.unit)).filter s.cluDisabled) (s.dispatched slot)
    rw [if_neg (by rw [List.isEmpty_iff]; exact List.ne_nil_of_mem hmem)]
    have hbegin := resets_begin (q := slot) (s := ((s.dispatched slot).unitsEnabled (s.switchSub c.unit)
      ((clusIn (s.switchSub c.unit)).filter s.cluDisabled)).modCmd slot fun x =>
        { x with parts := (clusIn (s.switchSub c.unit)).filter s.cluDisabled }) hmem (hpres.trans hp) (hreset.trans hr)
    obtain ⟨h1, h2⟩ := hbegin
    exact ⟨h1.trans (congrArg some helapsed), h2⟩

end UnitCommands

/-- Settles O14: each command's turns over the units it reaches, and what the other turns leave of a unit. -/
theorem unitCommandsComplete : Obligations.UnitCommandsComplete := by
  unfold Obligations.UnitCommandsComplete
  intro slot c s
  exact ⟨fun _ => loadBank_refused, loadBank_empty, loadBank_loads, fun _ => swapBank_refused, swapBank_defers,
    unitDisable_disables, unitEnable_done, unitEnable_resets⟩

/-! ## The dither counters (03 R75) -/

/-- The dither counter of each cluster. -/
def dithers (v : Vector Cluster 64) (n : Nat) : Nat := (vget v n).carrier.m

section Combinators
variable {α β : Type}

@[simp] theorem dithers_ite (c : Prop) [Decidable c] (s t : State) :
    dithers (if c then s else t).clu = if c then dithers s.clu else dithers t.clu :=
  apply_ite (fun u : State => dithers u.clu) c s t

@[simp] theorem dithers_vmap {f : Nat → Cluster → Cluster} (h : ∀ n c, (f n c).carrier.m = c.carrier.m)
    (v : Vector Cluster 64) : dithers (vmap f v) = dithers v := by
  funext n
  unfold dithers
  by_cases hn : n < 64
  · rw [vget_vmap _ _ _ hn, h]
  · simp [vget, hn]

@[simp] theorem dithers_each {f : α → State → State} (h : ∀ x s, dithers (f x s).clu = dithers s.clu) (l : List α)
    (s : State) :
    dithers (each l f s).clu = dithers s.clu :=
  each_keeps (P := fun t => dithers t.clu = dithers s.clu) (fun x t ht => (h x t).trans ht) l rfl

@[simp] theorem dithers_foldl {f : State → α → State} (h : ∀ s x, dithers (f s x).clu = dithers s.clu)
    (l : List α) (s : State) :
    dithers (l.foldl f s).clu = dithers s.clu :=
  dithers_each (f := fun x s => f s x) (fun x s => h s x) l s

@[simp] theorem dithers_foldl_snd {f : β × State → α → β × State} (h : ∀ p x, dithers (f p x).2.clu = dithers p.2.clu)
    (l : List α) (p : β × State) : dithers (l.foldl f p).2.clu = dithers p.2.clu := by
  induction l generalizing p with
  | nil => rfl
  | cons x l ih => exact (ih (f p x)).trans (h p x)

@[simp] theorem dithers_modCl {f : Cluster → Cluster} (h : ∀ c, (f c).carrier.m = c.carrier.m) (n : Nat) (s : State) :
    dithers (s.modCl n f).clu = dithers s.clu :=
  funext (vget_vmod_congr (fun c : Cluster => c.carrier.m) s.clu n f (h _))

@[simp] theorem modAcc_carrier (c : Cluster) (h : Nat) (f : Acc → Acc) : (c.modAcc h f).carrier = c.carrier := rfl

/-- Where an outcome is a next state, its dither counters are those of `s`. -/
def KeepsDithers (s : State) : Host.Outcome State Fault Refusal → Prop
  | .next t => dithers t.clu = dithers s.clu
  | _ => True

@[simp] theorem keepsDithers_next (s t : State) : KeepsDithers s (.next t) ↔ dithers t.clu = dithers s.clu := Iff.rfl

@[simp] theorem keepsDithers_refused (s : State) (r : Refusal) : KeepsDithers s (.refused r) := trivial

@[simp] theorem keepsDithers_ite (c : Prop) [Decidable c] (s : State) (o o' : Host.Outcome State Fault Refusal) :
    KeepsDithers s (if c then o else o') ↔ if c then KeepsDithers s o else KeepsDithers s o' := by
  split <;> rfl

end Combinators

/-- A block reset of a cluster leaves its dither counter running (03 R75). -/
@[simp] theorem blockReset_m (t : Nat) (c : Cluster) : (c.blockReset t).carrier.m = c.carrier.m := rfl

/-! ### Machine/Operands -/

@[simp] theorem dithers_modCell (s : State) (n k : Nat) (f : Cell → Cell) :
    dithers (State.modCell s n k f).clu = dithers s.clu := by simp [State.modCell]

@[simp] theorem dithers_modHalf (s : State) (n h : Nat) (f : Half → Half) :
    dithers (State.modHalf s n h f).clu = dithers s.clu := by simp [State.modHalf]

@[simp] theorem dithers_modDm (s : State) (d : Nat) (f : Domain → Domain) :
    dithers (State.modDm s d f).clu = dithers s.clu := by simp [State.modDm]

@[simp] theorem dithers_modCx (s : State) (c : Nat) (f : Context → Context) :
    dithers (State.modCx s c f).clu = dithers s.clu := by simp [State.modCx]

@[simp] theorem dithers_modChan (s : State) (c : Nat) (f : Channel → Channel) :
    dithers (State.modChan s c f).clu = dithers s.clu := by simp [State.modChan]

/-! ### Machine/Ops -/

@[simp] theorem dithers_advanceTo (t : Nat) (s : State) :
    dithers (State.advanceTo t s).clu = dithers s.clu := by simp [State.advanceTo]

@[simp] theorem dithers_put (o : Out) (s : State) :
    dithers (State.put o s).clu = dithers s.clu := by simp [State.put]

@[simp] theorem dithers_drawNat (s : State) :
    dithers (State.drawNat s).2.clu = dithers s.clu := by simp [State.drawNat]

@[simp] theorem dithers_irqDo (f : Irq → Irq) (s : State) :
    dithers (State.irqDo f s).clu = dithers s.clu := by simp [State.irqDo]

@[simp] theorem dithers_fire (i : Nat) (s : State) :
    dithers (State.fire i s).clu = dithers s.clu := by simp [State.fire]

@[simp] theorem dithers_noticeLost (n : Option (Nat × Nat)) (s : State) :
    dithers (State.noticeLost n s).clu = dithers s.clu := by
  unfold State.noticeLost
  split <;> simp

@[simp] theorem dithers_noticeAcked (n : Option (Nat × Nat)) (s : State) :
    dithers (State.noticeAcked n s).clu = dithers s.clu := by
  unfold State.noticeAcked
  split <;> simp

@[simp] theorem dithers_evLost (j : Nat) (n : Option (Nat × Nat)) (s : State) :
    dithers (State.evLost j n s).clu = dithers s.clu := by simp [State.evLost]

@[simp] theorem dithers_ovfWrite (c : Nat) (e : EvRec) (s : State) :
    dithers (State.ovfWrite c e s).clu = dithers s.clu := by simp [State.ovfWrite]

@[simp] theorem dithers_freeHeld (s : State) :
    dithers (State.freeHeld s).clu = dithers s.clu := by
  unfold State.freeHeld
  refine dithers_each (fun x u => ?_) _ _
  split <;> simp

@[simp] theorem dithers_postEvent (ctx : Option Nat) (words : List Word64) (clu : Option Nat)
    (n : Option (Nat × Nat)) (s : State) :
    dithers (State.postEvent ctx words clu n s).clu = dithers s.clu := by
  unfold State.postEvent
  repeat' split
  all_goals simp

@[simp] theorem dithers_refillBuf (fuel : Nat) (s : State) : dithers (State.refillBuf fuel s).clu = dithers s.clu := by
  induction fuel generalizing s with
  | zero => rfl
  | succ fuel ih =>
    unfold State.refillBuf
    split
    · dsimp only
      split
      · rfl
      · rw [ih]
        split
        · exact dithers_evLost _ _ _
        · rfl
    · rfl

@[simp] theorem dithers_parkAll (s : State) :
    dithers (State.parkAll s).clu = dithers s.clu := by simp [State.parkAll]

@[simp] theorem dithers_enterFatal (s : State) :
    dithers (State.enterFatal s).clu = dithers s.clu := by simp [State.enterFatal]

@[simp] theorem dithers_wakeGaf (s : State) :
    dithers (State.wakeGaf s).clu = dithers s.clu := by simp [State.wakeGaf]

@[simp] theorem dithers_wakeClu (n : Nat) (s : State) :
    dithers (State.wakeClu n s).clu = dithers s.clu := by simp [State.wakeClu]

@[simp] theorem dithers_wakeAll (s : State) :
    dithers (State.wakeAll s).clu = dithers s.clu := by simp [State.wakeAll]

@[simp] theorem dithers_collect (r0 : Raise) (s : State) :
    dithers (State.collect r0 s).clu = dithers s.clu := by
  unfold State.collect
  dsimp only
  repeat' split
  all_goals simp

@[simp] theorem dithers_raise (code : Nat) (sc : Scope) (detail : Nat) (s : State) :
    dithers (State.raise code sc detail s).clu = dithers s.clu := by simp [State.raise]

@[simp] theorem dithers_raiseAcc (code : Nat) (sc : Scope) (detail addr master acc : Nat) (inj : Bool) (s : State) :
    dithers (State.raiseAcc code sc detail addr master acc inj s).clu = dithers s.clu := by simp [State.raiseAcc]

@[simp] theorem dithers_injected {f : State → State} (h : ∀ s, dithers (f s).clu = dithers s.clu) (b : Bool)
    (s : State) :
    dithers (s.injected b f).clu = dithers s.clu := by
  simp [State.injected, h]

@[simp] theorem dithers_closeFlt (p : Flt → Bool) (s : State) :
    dithers (State.closeFlt p s).clu = dithers s.clu := by simp [State.closeFlt]

@[simp] theorem dithers_closeUnit (u : Nat) (codes : List Nat) (s : State) :
    dithers (State.closeUnit u codes s).clu = dithers s.clu := by simp [State.closeUnit]

@[simp] theorem dithers_modCmd (slot : Nat) (f : Cmd → Cmd) (s : State) :
    dithers (State.modCmd slot f s).clu = dithers s.clu := by simp [State.modCmd]

@[simp] theorem dithers_completeAfter (slot : Nat) (st : Status) (res : Nat) (after : List Nat) (s : State) :
    dithers (State.completeAfter slot st res after s).clu = dithers s.clu := by
  unfold State.completeAfter
  split <;> simp

@[simp] theorem dithers_complete (slot : Nat) (st : Status) (res : Nat) (s : State) :
    dithers (State.complete slot st res s).clu = dithers s.clu := by simp [State.complete]

@[simp] theorem dithers_startRead (addr bytes : Nat) (use : RdUse) (src : Nat) (s : State) :
    dithers (State.startRead addr bytes use src s).clu = dithers s.clu := by
  unfold State.startRead
  split <;> simp

@[simp] theorem dithers_endRead (id : Nat) (s : State) :
    dithers (State.endRead id s).clu = dithers s.clu := by
  unfold State.endRead
  dsimp only
  split <;> simp

@[simp] theorem dithers_startWrite (addr : Nat) (words : List Word64) (use : WrUse) (s : State) :
    dithers (State.startWrite addr words use s).clu = dithers s.clu := by
  unfold State.startWrite
  split <;> simp

@[simp] theorem dithers_endWrite (id : Nat) (s : State) :
    dithers (State.endWrite id s).clu = dithers s.clu := by
  unfold State.endWrite
  dsimp only
  split <;> simp

@[simp] theorem dithers_writeLong (fuel addr : Nat) (words : List Word64) (use : Bool → WrUse) (s : State) :
    dithers (State.writeLong fuel addr words use s).clu = dithers s.clu := by
  induction fuel generalizing addr words s with
  | zero => rfl
  | succ fuel ih => simp [State.writeLong, ih]

@[simp] theorem dithers_writeIndex (ring : Nat) (v : Word32) (s : State) :
    dithers (State.writeIndex ring v s).clu = dithers s.clu := by simp [State.writeIndex]

/-! ### Machine/Throttle -/

@[simp] theorem dithers_retarget (d : Nat) (s : State) :
    dithers (State.retarget d s).clu = dithers s.clu := by simp [State.retarget]

@[simp] theorem dithers_thrDom (d : Nat) (s : State) :
    dithers (State.thrDom d s).clu = dithers s.clu := by
  unfold State.thrDom
  split <;> simp

@[simp] theorem dithers_driveBuses (s : State) :
    dithers (State.driveBuses s).clu = dithers s.clu := by simp [State.driveBuses]

@[simp] theorem dithers_throttle (ds : List Nat) (s : State) :
    dithers (State.throttle ds s).clu = dithers s.clu := by simp [State.throttle]

@[simp] theorem dithers_throttleAll (s : State) :
    dithers (State.throttleAll s).clu = dithers s.clu := by simp [State.throttleAll]

@[simp] theorem execExternalThrottle_keepsDithers (ns : Nat) (s : State) :
    KeepsDithers s (execExternalThrottle ns s) := by simp [execExternalThrottle]

@[simp] theorem execExternalThrottleEnd_keepsDithers (s : State) :
    KeepsDithers s (execExternalThrottleEnd s) := by simp [execExternalThrottleEnd]

@[simp] theorem execVfStepDown_keepsDithers (d : DomIx) (s : State) :
    KeepsDithers s (execVfStepDown d s) := by
  unfold execVfStepDown
  split <;> simp

@[simp] theorem dithers_vinRead (mv : Nat) (s : State) :
    dithers (State.vinRead mv s).clu = dithers s.clu := by simp [State.vinRead]

@[simp] theorem dithers_vinJudge (s : State) :
    dithers (State.vinJudge s).clu = dithers s.clu := by simp [State.vinJudge]

/-! ### Machine/Credits -/

@[simp] theorem dithers_balAdd (n h : Nat) (x : Int) (s : State) :
    dithers (State.balAdd n h x s).clu = dithers s.clu := by simp [State.balAdd]

@[simp] theorem dithers_send (m : LMsg) (s : State) :
    dithers (State.send m s).clu = dithers s.clu := by simp [State.send]

@[simp] theorem dithers_sendUp (op n h d amt : Nat) (s : State) :
    dithers (State.sendUp op n h d amt s).clu = dithers s.clu := by simp [State.sendUp]

@[simp] theorem dithers_accrue (n : Nat) (s : State) :
    dithers (State.accrue n s).clu = dithers s.clu := by simp [State.accrue]

@[simp] theorem dithers_borrow (n h : Nat) (s : State) :
    dithers (State.borrow n h s).clu = dithers s.clu := by
  unfold State.borrow
  split <;> simp

@[simp] theorem dithers_examine (n r : Nat) (s : State) :
    dithers (State.examine n r s).2.clu = dithers s.clu := by
  unfold State.examine
  extract_lets l h x hold mayBh
  split
  · extract_lets a0 gb a1 gr a2 y yr g gen atRel l1 l2 s₁
    split
    · rfl
    · refine (dithers_put _ s₁).trans (dithers_modCl ?_ n s)
      exact fun _ => rfl
  · rfl

@[simp] theorem dithers_examineAll (n k : Nat) (l : List Nat) (last : Option Nat) (s : State) :
    dithers (State.examineAll n k l last s).2.clu = dithers s.clu := by
  induction l generalizing k last s with
  | nil => cases k <;> rfl
  | cons r l ih =>
    cases k with
    | zero => rfl
    | succ k =>
      unfold State.examineAll
      dsimp only
      split <;> rw [ih, dithers_examine]

@[simp] theorem dithers_round (n : Nat) (s : State) : dithers (s.round n).clu = dithers s.clu := by
  unfold State.round
  extract_lets s₀ l hold fair order before q s₁ s₂ got s₃ s₄
  have h₀ : dithers s₀.clu = dithers s.clu := by simp [s₀]
  have h₁ : dithers s₁.clu = dithers s₀.clu := dithers_examineAll n _ _ _ s₀
  have h₂ : dithers s₂.clu = dithers s₁.clu := by
    unfold s₂
    split <;> simp
  have h₃ : dithers s₃.clu = dithers s₂.clu := by simp [s₃]
  have h₄ : dithers s₄.clu = dithers s₃.clu := by simp [s₄]
  rw [← h₀]
  split
  · rfl
  · rw [dithers_each fun h u => dithers_borrow n h u, h₄, h₃, h₂, h₁]

@[simp] theorem dithers_badWord (n : Nat) (s : State) :
    dithers (State.badWord n s).clu = dithers s.clu := by simp [State.badWord]

@[simp] theorem dithers_request (n r amt : Nat) (filler : Bool) (s : State) :
    dithers (State.request n r amt filler s).clu = dithers s.clu := by
  unfold State.request
  dsimp only
  split <;> simp

@[simp] theorem dithers_applyReturn (n h amt : Nat) (s : State) :
    dithers (State.applyReturn n h amt s).clu = dithers s.clu := by
  unfold State.applyReturn
  split <;> simp

@[simp] theorem dithers_returned (n r amt slot gen : Nat) (s : State) :
    dithers (State.returned n r amt slot gen s).clu = dithers s.clu := by simp [State.returned]

@[simp] theorem dithers_digestIn (n : Nat) (w : Word64) (s : State) : dithers (s.digestIn n w).clu = dithers s.clu := by
  refine dithers_modCl (fun c => ?_) n s
  dsimp only
  split <;> rfl

@[simp] theorem dithers_upWord (n : Nat) (w : Word64) (s : State) :
    dithers (State.upWord n w s).clu = dithers s.clu := by simp [State.upWord]

@[simp] theorem dithers_reclaimHost (n : Nat) (s : State) :
    dithers (State.reclaimHost n s).clu = dithers s.clu := by simp [State.reclaimHost]

@[simp] theorem dithers_revokeAll (n : Nat) (s : State) : dithers (s.revokeAll n).clu = dithers s.clu := by
  unfold State.revokeAll
  rw [dithers_each]
  simp

@[simp] theorem dithers_restoreLedger (n : Nat) (s : State) :
    dithers (State.restoreLedger n s).clu = dithers s.clu := by simp [State.restoreLedger]

@[simp] theorem dithers_rezero (n d : Nat) (s : State) : dithers (s.rezero n d).clu = dithers s.clu := by
  unfold State.rezero
  split
  · rfl
  · refine (dithers_modCl ?_ n s :)
    exact fun _ => rfl

@[simp] theorem dithers_rederive (n d : Nat) (s : State) : dithers (s.rederive n d).clu = dithers s.clu := by
  unfold State.rederive
  split
  · rfl
  · dsimp only
    rw [dithers_rezero, dithers_each]
    simp

@[simp] theorem dithers_fillZero (n h : Nat) (s : State) : dithers (s.fillZero n h).clu = dithers s.clu := by
  unfold State.fillZero
  dsimp only
  rw [dithers_modCl, dithers_each]
  · simp
  · exact fun _ => rfl

@[simp] theorem dithers_brollStop (n h : Nat) (s : State) :
    dithers (State.brollStop n h s).clu = dithers s.clu := by simp [State.brollStop]

@[simp] theorem dithers_brollEnd (n h : Nat) (s : State) :
    dithers (State.brollEnd n h s).clu = dithers s.clu := by simp [State.brollEnd]

@[simp] theorem dithers_ledgerLost (n : Nat) (ds : List Nat) (s : State) :
    dithers (State.ledgerLost n ds s).clu = dithers s.clu := by simp [State.ledgerLost]

@[simp] theorem execRequest_keepsDithers (n : CluIx) (w : Word64) (s : State) :
    KeepsDithers s (execRequest n w s) := by simp [execRequest]

@[simp] theorem execDigest_keepsDithers (n : CluIx) (w : Word64) (s : State) :
    KeepsDithers s (execDigest n w s) := by simp [execDigest]

@[simp] theorem execBorrow_keepsDithers (w : Word64) (s : State) :
    KeepsDithers s (execBorrow w s) := by
  unfold execBorrow
  dsimp only
  split
  · simp
  · split <;> simp

@[simp] theorem dithers_giveIn (w : Word64) (s : State) :
    dithers (State.giveIn w s).clu = dithers s.clu := by
  unfold State.giveIn
  dsimp only
  split
  · simp
  · split <;> simp

@[simp] theorem dithers_callIn (w : Word64) (s : State) :
    dithers (State.callIn w s).clu = dithers s.clu := by
  unfold State.callIn
  dsimp only
  split
  · simp
  · split <;> simp

@[simp] theorem execLend_keepsDithers (w : Word64) (s : State) :
    KeepsDithers s (execLend w s) := by
  unfold execLend
  split <;> simp

@[simp] theorem execBank_keepsDithers (w : Word64) (s : State) :
    KeepsDithers s (execBank w s) := by
  unfold execBank
  split <;> simp

@[simp] theorem dithers_recallIn (w : Word64) (s : State) :
    dithers (State.recallIn w s).clu = dithers s.clu := by
  unfold State.recallIn
  dsimp only
  split
  · simp
  · split <;> simp

@[simp] theorem execWithhold_keepsDithers (w : Word64) (s : State) :
    KeepsDithers s (execWithhold w s) := by
  unfold execWithhold
  split <;> simp

@[simp] theorem execBorrowRetry_keepsDithers (n : CluIx) (h : HalfIx) (s : State) :
    KeepsDithers s (execBorrowRetry n h s) := by
  unfold execBorrowRetry
  split <;> simp

@[simp] theorem execSliceBoundary_keepsDithers (n : CluIx) (s : State) :
    KeepsDithers s (execSliceBoundary n s) := by simp [execSliceBoundary]

@[simp] theorem dithers_brollRelease (n h : Nat) (s : State) : dithers (s.brollRelease n h).clu = dithers s.clu := by
  unfold State.brollRelease
  split
  · rfl
  · dsimp only
    rw [dithers_modHalf]
    split
    · simp [-put_clu]
    · split <;> simp

/-! ### Machine/Predictor -/

@[simp] theorem dithers_predHalf (n h : Nat) (s : State) :
    dithers (State.predHalf n h s).clu = dithers s.clu := by
  unfold State.predHalf
  dsimp only
  split <;> simp

@[simp] theorem dithers_forecastHalf (n h : Nat) (s : State) :
    dithers (State.forecastHalf n h s).clu = dithers s.clu := by simp [State.forecastHalf]

@[simp] theorem dithers_predict (n : Nat) (s : State) :
    dithers (State.predict n s).clu = dithers s.clu := by simp [State.predict]

/-! ### Machine/Control -/

@[simp] theorem dithers_endPart (slot d : Nat) (st : Status) (s : State) :
    dithers (State.endPart slot d st s).clu = dithers s.clu := by
  unfold State.endPart
  dsimp only
  repeat' split
  all_goals simp

@[simp] theorem dithers_endPartWith (slot d : Nat) (st : Status) (code : Nat) (s : State) :
    dithers (State.endPartWith slot d st code s).clu = dithers s.clu := by simp [State.endPartWith]

@[simp] theorem dithers_placeChange (n h : Nat) (ch : Change) (s : State) :
    dithers (State.placeChange n h ch s).clu = dithers s.clu := by simp [State.placeChange]

@[simp] theorem dithers_placeDom (d : Nat) (ch : Change) (s : State) :
    dithers (State.placeDom d ch s).clu = dithers s.clu := by simp [State.placeDom]

@[simp] theorem dithers_supersedes (old : Nat) (new : Option Nat) (s : State) :
    dithers (State.supersedes old new s).clu = dithers s.clu := by
  unfold State.supersedes
  split <;> simp

@[simp] theorem dithers_applyChange (n h : Nat) (ch : Change) (s : State) :
    dithers (State.applyChange n h ch s).clu = dithers s.clu := by
  unfold State.applyChange
  dsimp only
  repeat' split
  all_goals simp

@[simp] theorem dithers_applyChanges (n h : Nat) (s : State) :
    dithers (State.applyChanges n h s).2.clu = dithers s.clu := by simp [State.applyChanges]

@[simp] theorem dithers_moveRamp (n h : Nat) (s : State) :
    dithers (State.moveRamp n h s).clu = dithers s.clu := by simp [State.moveRamp]

@[simp] theorem dithers_movePrep (n h : Nat) (s : State) :
    dithers (State.movePrep n h s).clu = dithers s.clu := by simp [State.movePrep]

@[simp] theorem dithers_withdraw (n h : Nat) (s : State) :
    dithers (State.withdraw n h s).clu = dithers s.clu := by simp [State.withdraw]

@[simp] theorem dithers_moveBroll (n h : Nat) (s : State) :
    dithers (State.moveBroll n h s).clu = dithers s.clu := by simp [State.moveBroll]

@[simp] theorem dithers_moveFill (n h : Nat) (s : State) : dithers (s.moveFill n h).clu = dithers s.clu := by
  have hfill (l : List Nat) (f : Nat → Out) (u : State) (g : Cluster → Ledger) :
      dithers ((each l (fun r s => s.put (f r)) u).modCl n fun c => { c with led := g c }).clu = dithers u.clu := by
    rw [dithers_modCl, dithers_each]
    · simp
    · exact fun _ => rfl
  unfold State.moveFill
  split
  · rfl
  dsimp only
  split
  · exact hfill _ _ s _
  split
  · exact hfill _ _ s _
  · rfl

@[simp] theorem dithers_thErrs (n : Nat) (s : State) :
    dithers (State.thErrs n s).clu = dithers s.clu := by simp [State.thErrs]

@[simp] theorem dithers_sampleHalf (n h lcal : Nat) (moving : Bool) (mism : BitVec 16) (s : State) :
    dithers (s.sampleHalf n h lcal moving mism).clu = dithers s.clu := by
  unfold State.sampleHalf
  extract_lets cells live term os sh vref res words nsat s₁ s₂ bad s₃ s₄ s₅ con conSum mean mul eOf run vs s₆
  have hmodCl {f : Cluster → Cluster} {u : State} (hf : ∀ c, (f c).carrier = c.carrier) :
      dithers (u.modCl n f).clu = dithers u.clu := dithers_modCl (fun c => congrArg Carrier.m (hf c)) n u
  have h₁ : dithers s₁.clu = dithers s.clu := by
    refine hmodCl ?_
    exact fun _ => rfl
  have h₂ : dithers s₂.clu = dithers s₁.clu := dithers_each (fun w u => dithers_put _ u) _ s₁
  have h₃ : dithers s₃.clu = dithers s₂.clu := by
    unfold s₃
    split
    · rfl
    · refine hmodCl ?_
      exact fun _ => rfl
  have h₄ : dithers s₄.clu = dithers s₃.clu := dithers_each (fun p u => dithers_raise _ _ _ u) _ s₃
  have h₅ : dithers s₅.clu = dithers s₄.clu := dithers_each (fun p u => dithers_raise _ _ _ u) _ s₄
  have h₆ : dithers s₆.clu = dithers s₅.clu := by
    refine hmodCl ?_
    exact fun _ => rfl
  rw [dithers_modHalf, h₆, h₅, h₄, h₃, h₂, h₁]

@[simp] theorem dithers_cellsSample (n : Nat) (s : State) :
    dithers (State.cellsSample n s).clu = dithers s.clu := by simp [State.cellsSample]

@[simp] theorem dithers_creditSamples (n : Nat) (s : State) :
    dithers (State.creditSamples n s).clu = dithers s.clu := by simp [State.creditSamples]

@[simp] theorem dithers_decayRc (n : Nat) (s : State) :
    dithers (State.decayRc n s).clu = dithers s.clu := by simp [State.decayRc]

@[simp] theorem dithers_sawSample (n : Nat) (s : State) :
    dithers (State.sawSample n s).clu = dithers s.clu := by simp [State.sawSample, -modDm_clu]

@[simp] theorem dithers_halfSample (n h : Nat) (mism : BitVec 16) (s : State) :
    dithers (State.halfSample n h mism s).clu = dithers s.clu := by
  unfold State.halfSample
  dsimp only
  split <;> simp

@[simp] theorem dithers_parkReports (n : Nat) (s : State) :
    dithers (State.parkReports n s).clu = dithers s.clu := by simp [State.parkReports]

@[simp] theorem dithers_controlSample (n : Nat) (mism : BitVec 16) (s : State) :
    dithers (State.controlSample n mism s).clu = dithers s.clu := by
  unfold State.controlSample
  split
  · extract_lets s₁ s₂ s₃ w s₄ s₅ s₆
    have h₁ : dithers s₁.clu = dithers s.clu := by
      refine (dithers_modCl ?_ n _ :).trans (dithers_advanceTo _ s)
      exact fun _ => rfl
    clear_value s₁
    have h₂ : dithers s₂.clu = dithers s₁.clu := dithers_parkReports n s₁
    clear_value s₂
    have h₃ : dithers s₃.clu = dithers s₂.clu :=
      dithers_each (fun h u => (dithers_halfSample n h mism _).trans (dithers_forecastHalf n h u)) _ s₂
    clear_value s₃
    have h₄ : dithers s₄.clu = dithers s₃.clu := by
      change dithers w.clu = _
      refine (dithers_modCl ?_ n s₃ :)
      exact fun _ => rfl
    clear_value s₄
    have h₅ : dithers s₅.clu = dithers s₄.clu := by simp [s₅]
    clear_value s₅
    have h₆ : dithers s₆.clu = dithers s₅.clu := by
      refine (dithers_modCl ?_ n s₅ :)
      exact fun _ => rfl
    clear_value s₆
    rw [dithers_throttle, h₆, h₅, h₄, h₃, h₂, h₁]
  · rfl

/-! ### Machine/Probe -/

@[simp] theorem dithers_probeRamp (p : Probe) (code : Nat) (s : State) :
    dithers (State.probeRamp p code s).clu = dithers s.clu := by simp [State.probeRamp]

@[simp] theorem dithers_setProbe (p : Probe) (s : State) :
    dithers (State.setProbe p s).clu = dithers s.clu := by simp [State.setProbe]

@[simp] theorem dithers_endProbe (slot : Nat) (s : State) :
    dithers (State.endProbe slot s).clu = dithers s.clu := by
  unfold State.endProbe
  split <;> simp

@[simp] theorem dithers_probeRestore (slot stop : Nat) (s : State) :
    dithers (State.probeRestore slot stop s).clu = dithers s.clu := by
  unfold State.probeRestore
  split <;> simp

@[simp] theorem dithers_probeStep (slot k : Nat) (s : State) :
    dithers (State.probeStep slot k s).clu = dithers s.clu := by
  unfold State.probeStep
  split <;> simp

@[simp] theorem dithers_probeCheck (s : State) :
    dithers (State.probeCheck s).clu = dithers s.clu := by simp [State.probeCheck]

@[simp] theorem dithers_probeSettled (d : Nat) (s : State) :
    dithers (State.probeSettled d s).clu = dithers s.clu := by
  unfold State.probeSettled
  refine dithers_each (fun x u => ?_) _ _
  split <;> simp

@[simp] theorem dithers_probeTimeout (d : Nat) (s : State) :
    dithers (State.probeTimeout d s).clu = dithers s.clu := by simp [State.probeTimeout]

@[simp] theorem dithers_probeAcked (slot : Nat) (last : Bool) (s : State) :
    dithers (State.probeAcked slot last s).clu = dithers s.clu := by
  unfold State.probeAcked
  split <;> simp

@[simp] theorem dithers_probeVerdict (slot : Nat) (w : Option Word64) (s : State) :
    dithers (State.probeVerdict slot w s).clu = dithers s.clu := by
  unfold State.probeVerdict
  repeat' split
  all_goals simp

@[simp] theorem execMarginProbeDwell_keepsDithers (slot : Slot) (s : State) :
    KeepsDithers s (execMarginProbeDwell slot s) := by
  unfold execMarginProbeDwell
  split <;> simp

/-! ### Machine/Retake -/

@[simp] theorem dithers_modPlayed (c seq : Nat) (f : Played → Played) (s : State) :
    dithers (State.modPlayed c seq f s).clu = dithers s.clu := by simp [State.modPlayed]

@[simp] theorem dithers_issue (c seq cause unit t0 t1 : Nat) (s : State) :
    dithers (State.issue c seq cause unit t0 t1 s).clu = dithers s.clu := by
  unfold State.issue
  split <;> simp

@[simp] theorem dithers_issueAll (c cause unit t0 t1 : Nat) (s : State) :
    dithers (State.issueAll c cause unit t0 t1 s).clu = dithers s.clu := by simp [State.issueAll]

@[simp] theorem dithers_trigOpen (d : Option Nat) (cause unit t0 : Nat) (s : State) :
    dithers (State.trigOpen d cause unit t0 s).clu = dithers s.clu := by simp [State.trigOpen]

@[simp] theorem dithers_trigClose (cause unit t1 : Nat) (s : State) :
    dithers (State.trigClose cause unit t1 s).clu = dithers s.clu := by
  unfold State.trigClose
  split <;> simp

@[simp] theorem dithers_endPhases (s : State) :
    dithers (State.endPhases s).clu = dithers s.clu := by simp [State.endPhases]

@[simp] theorem dithers_trigAt (d : Option Nat) (cause unit t0 t1 : Nat) (s : State) :
    dithers (State.trigAt d cause unit t0 t1 s).clu = dithers s.clu := by simp [State.trigAt]

@[simp] theorem dithers_closeCell (n k : Nat) (a b : CellState) (s : State) :
    dithers (State.closeCell n k a b s).clu = dithers s.clu := by simp [State.closeCell]

@[simp] theorem dithers_noteParks (s old : State) : dithers (s.noteParks old).clu = dithers s.clu := by
  unfold State.noteParks
  refine (dithers_each (fun n u => ?_) _ _).trans (dithers_probeCheck s)
  split
  · rfl
  refine dithers_each (fun k v => ?_) _ u
  dsimp only
  split
  · split <;> simp
  · split <;> simp

@[simp] theorem dithers_shutCtx (c : Nat) (s : State) :
    dithers (State.shutCtx c s).clu = dithers s.clu := by simp [State.shutCtx]

@[simp] theorem dithers_closeDone (c : Nat) (s : State) :
    dithers (State.closeDone c s).clu = dithers s.clu := by
  unfold State.closeDone
  dsimp only
  split <;> simp

@[simp] theorem dithers_wmAdvance (c : Nat) (s : State) :
    dithers (State.wmAdvance c s).clu = dithers s.clu := by simp [State.wmAdvance]

@[simp] theorem dithers_endShot (c seq t : Nat) (s : State) :
    dithers (State.endShot c seq t s).clu = dithers s.clu := by
  unfold State.endShot
  repeat' split
  all_goals simp

@[simp] theorem dithers_endPlay (c : Nat) (s : State) :
    dithers (State.endPlay c s).clu = dithers s.clu := by simp [State.endPlay]

@[simp] theorem dithers_noticeAll (c cause t0 : Nat) (s : State) :
    dithers (State.noticeAll c cause t0 s).clu = dithers s.clu := by simp [State.noticeAll]

@[simp] theorem dithers_evalShot (c : Nat) (p : Played) (s : State) :
    dithers (State.evalShot c p s).clu = dithers s.clu := by
  unfold State.evalShot
  dsimp only
  split <;> simp

@[simp] theorem execShotEndEvaluation_keepsDithers (c : CtxIx) (s : State) :
    KeepsDithers s (execShotEndEvaluation c s) := by
  unfold execShotEndEvaluation
  split <;> simp

@[simp] theorem execWatermarkWrite_keepsDithers (c : CtxIx) (s : State) :
    KeepsDithers s (execWatermarkWrite c s) := by
  unfold execWatermarkWrite
  dsimp only
  split <;> simp

/-! ### Machine/Story -/

@[simp] theorem dithers_wakeCtx (c : Nat) (s : State) :
    dithers (State.wakeCtx c s).clu = dithers s.clu := by simp [State.wakeCtx]

@[simp] theorem dithers_dropReel (c i : Nat) (s : State) :
    dithers (State.dropReel c i s).clu = dithers s.clu := by simp [State.dropReel]

@[simp] theorem dithers_planRead (ch : Nat) (j : ChJob) (s : State) :
    dithers (State.planRead ch j s).clu = dithers s.clu := by simp [State.planRead]

@[simp] theorem dithers_staleReel (c : Nat) (e : Reel) (s : State) :
    dithers (State.staleReel c e s).clu = dithers s.clu := by simp [State.staleReel]

@[simp] theorem dithers_prefetch (c : Nat) (s : State) :
    dithers (State.prefetch c s).clu = dithers s.clu := by simp [State.prefetch]

@[simp] theorem dithers_startReel (c : Nat) (l : Load) (s : State) :
    dithers (State.startReel c l s).clu = dithers s.clu := by
  unfold State.startReel
  split <;> simp

@[simp] theorem dithers_startLoads (c : Nat) (s : State) :
    dithers (State.startLoads c s).clu = dithers s.clu := by simp [State.startLoads]

@[simp] theorem dithers_applyProf (c n h : Nat) (x : Shot) (s : State) :
    dithers (State.applyProf c n h x s).clu = dithers s.clu := by
  unfold State.applyProf
  split <;> simp

@[simp] theorem dithers_applyShotProf (c : Nat) (x : Shot) (s : State) :
    dithers (State.applyShotProf c x s).clu = dithers s.clu := by simp [State.applyShotProf]

@[simp] theorem dithers_applyShotV (c : Nat) (x : Shot) (s : State)
    : dithers (s.applyShotV c x).2.clu = dithers s.clu := by
  unfold State.applyShotV
  split
  · rfl
  refine dithers_foldl_snd (fun acc d => ?_) _ _
  split
  · rfl
  · dsimp only
    split <;> simp

@[simp] theorem dithers_beginPrep (n h shot onset rise : Nat) (s : State) :
    dithers (State.beginPrep n h shot onset rise s).clu = dithers s.clu := by simp [State.beginPrep]

@[simp] theorem dithers_withdrawCtx (c : Nat) (s : State) :
    dithers (State.withdrawCtx c s).clu = dithers s.clu := by simp [State.withdrawCtx]

@[simp] theorem dithers_forgetGone (c : Nat) (shot : Option Nat) (s : State) :
    dithers (State.forgetGone c shot s).clu = dithers s.clu := by simp [State.forgetGone]

@[simp] theorem dithers_movePreps (c : Nat) (s : State) :
    dithers (State.movePreps c s).clu = dithers s.clu := by
  unfold State.movePreps
  refine dithers_each (fun x u => ?_) _ _
  dsimp only
  repeat' split
  all_goals simp

@[simp] theorem dithers_prepStart (n h : Nat) (s : State) :
    dithers (State.prepStart n h s).clu = dithers s.clu := by
  unfold State.prepStart
  split <;> simp

@[simp] theorem dithers_stepWin (n h : Nat) (s : State) :
    dithers (State.stepWin n h s).clu = dithers s.clu := by simp [State.stepWin]

@[simp] theorem dithers_takeFractions (c : Nat) (e : Reel) (s : State) :
    dithers (State.takeFractions c e s).clu = dithers s.clu := by
  unfold State.takeFractions
  split <;> simp

@[simp] theorem dithers_unfeed (c : Nat) (s : State) :
    dithers (State.unfeed c s).clu = dithers s.clu := by simp [State.unfeed]

@[simp] theorem dithers_endHolds (c : Nat) (s : State) :
    dithers (State.endHolds c s).clu = dithers s.clu := by simp [State.endHolds]

@[simp] theorem dithers_coast (c code : Nat) (s : State) :
    dithers (State.coast c code s).clu = dithers s.clu := by simp [State.coast]

@[simp] theorem dithers_pageLate (c : Nat) (s : State) :
    dithers (State.pageLate c s).clu = dithers s.clu := by simp [State.pageLate]

@[simp] theorem dithers_haltPlay (c : Nat) (s : State) :
    dithers (State.haltPlay c s).clu = dithers s.clu := by simp [State.haltPlay]

@[simp] theorem dithers_disarmNow (c : Nat) (s : State) :
    dithers (State.disarmNow c s).clu = dithers s.clu := by simp [State.disarmNow]

@[simp] theorem dithers_failNow (c : Nat) (s : State) :
    dithers (State.failNow c s).clu = dithers s.clu := by simp [State.failNow]

@[simp] theorem dithers_consume (c : Nat) (s : State) :
    dithers (State.consume c s).clu = dithers s.clu := by simp [State.consume]

@[simp] theorem dithers_ctxBoundary (s : State) :
    dithers (State.ctxBoundary s).clu = dithers s.clu := by
  unfold State.ctxBoundary
  refine dithers_each (fun x u => ?_) _ _
  split <;> simp

@[simp] theorem dithers_setRelease (c : Nat) (t : Option Nat) (s : State) :
    dithers (State.setRelease c t s).clu = dithers s.clu := by simp [State.setRelease]

@[simp] theorem dithers_moveRelease (c t : Nat) (s : State) :
    dithers (State.moveRelease c t s).clu = dithers s.clu := by simp [State.moveRelease]

@[simp] theorem dithers_placeNext (c : Nat) (onset cueAt : Option Nat) (late : Bool) (s : State) :
    dithers (State.placeNext c onset cueAt late s).clu = dithers s.clu := by simp [State.placeNext]

@[simp] theorem dithers_follow (c i : Nat) (onset : Option Nat) (s : State) :
    dithers (State.follow c i onset s).clu = dithers s.clu := by simp [State.follow]

@[simp] theorem dithers_switchTo (c i : Nat) (onset : Option Nat) (s : State) :
    dithers (State.switchTo c i onset s).clu = dithers s.clu := by
  unfold State.switchTo
  dsimp only
  repeat' split
  all_goals simp

@[simp] theorem dithers_switchGo (c : Nat) (q : Nat × Option Nat × Nat) (s : State) :
    dithers (State.switchGo c q s).clu = dithers s.clu := by
  unfold State.switchGo
  split <;> simp

@[simp] theorem dithers_switchWaiting (c : Nat) (s : State) :
    dithers (State.switchWaiting c s).clu = dithers s.clu := by
  unfold State.switchWaiting
  dsimp only
  split
  · simp
  · split <;> simp

@[simp] theorem execShotSwitch_keepsDithers (c : CtxIx) (s : State) :
    KeepsDithers s (execShotSwitch c s) := by
  unfold execShotSwitch
  split <;> simp

@[simp] theorem execShotOnset_keepsDithers (c : CtxIx) (s : State) :
    KeepsDithers s (execShotOnset c s) := by
  unfold execShotOnset
  dsimp only
  repeat' split
  all_goals simp

@[simp] theorem execMissingCue_keepsDithers (c : CtxIx) (s : State) :
    KeepsDithers s (execMissingCue c s) := by
  unfold execMissingCue
  dsimp only
  split
  · simp
  · split <;> simp

@[simp] theorem dithers_recue (c onset : Nat) (s : State) :
    dithers (State.recue c onset s).clu = dithers s.clu := by
  unfold State.recue
  dsimp only
  split
  · split <;> simp
  · simp

@[simp] theorem dithers_matchCue (c : Nat) (w : Word64) (rcpt onset : Nat) (s : State) :
    dithers (State.matchCue c w rcpt onset s).clu = dithers s.clu := by
  unfold State.matchCue
  extract_lets x step lead curHit start win seen hit exam before late lasts s₀
  clear_value curHit hit
  split
  · split
    · split <;> simp
    · simp
  split
  · simp
  split
  · split <;> simp
  · extract_lets same s₁ again s₂ s₃ s₄
    have h₁ : dithers s₁.clu = dithers s.clu := by
      unfold s₁
      split
      · rfl
      · exact dithers_withdrawCtx c s₀
    have h₂ : dithers s₂.clu = dithers s.clu := (dithers_modCx s₁ c _).trans h₁
    have h₄ : dithers s₄.clu = dithers s.clu := by
      have h₃ : dithers s₃.clu = dithers s₂.clu := (dithers_forgetGone c none _).trans (dithers_modCx s₂ c _)
      unfold s₄
      clear_value s₃ s₂
      split
      · split <;> simp [h₃, h₂]
      · exact h₂
    rw [dithers_placeNext, dithers_prefetch, h₄]

@[simp] theorem dithers_takeCue (w : Word64) (rcpt : Nat) (s : State) :
    dithers (State.takeCue w rcpt s).clu = dithers s.clu := by simp [State.takeCue]

@[simp] theorem execCue_keepsDithers (w : Word64) (s : State) :
    KeepsDithers s (execCue w s) := by
  unfold execCue
  dsimp only
  repeat' split
  all_goals simp

@[simp] theorem dithers_armPlan (c : Nat) (e : Reel) (s : State) :
    dithers (State.armPlan c e s).clu = dithers s.clu := by simp [State.armPlan]

@[simp] theorem dithers_reelReady (c r : Nat) (s : State) :
    dithers (State.reelReady c r s).clu = dithers s.clu := by
  unfold State.reelReady
  dsimp only
  repeat' split
  all_goals simp

/-! ### Machine/Cells -/

/-- The carrier that a cluster runs has the cluster's dither counter. -/
theorem m_carr (n : Nat) (s : State) : (s.carr n).m = (s.cl n).carrier.m := by
  unfold State.carr
  dsimp only
  split <;> rfl

/-- A carrier replaced by one with the same dither counter. -/
theorem dithers_setCarr {n : Nat} {c : Carrier} {s : State} (h : c.m = (s.cl n).carrier.m) :
    dithers (s.setCarr n c).clu = dithers s.clu :=
  funext (vget_vmod_congr (fun x : Cluster => x.carrier.m) s.clu n _ h)

@[simp] theorem dithers_syncSeen (hz : Nat) (s : State) :
    dithers (State.syncSeen hz s).clu = dithers s.clu := by simp [State.syncSeen]

@[simp] theorem dithers_follow_ (n hz : Nat) (s : State) : dithers (s.follow_ n hz).clu = dithers s.clu :=
  (dithers_setCarr (by rw [← m_carr]; rfl)).trans (dithers_syncSeen hz s)

@[simp] theorem execSyncQualified_keepsDithers (n : CluIx) (hz : Nat) (s : State) :
    KeepsDithers s (execSyncQualified n hz s) := by simp [execSyncQualified]

@[simp] theorem execSyncLock_keepsDithers (n : CluIx) (hz : Nat) (s : State) :
    KeepsDithers s (execSyncLock n hz s) := by
  unfold execSyncLock
  dsimp only
  split
  · exact rfl
  split
  · simp
  · rw [keepsDithers_next, dithers_setCarr, dithers_syncSeen, dithers_advanceTo]
    exact m_carr n _

@[simp] theorem dithers_syncLost (n : Nat) (s : State) : dithers (s.syncLost n).clu = dithers s.clu := by
  unfold State.syncLost
  dsimp only
  split
  · exact dithers_setCarr (m_carr n s)
  · rfl

@[simp] theorem execSyncLoss_keepsDithers (n : CluIx) (s : State) :
    KeepsDithers s (execSyncLoss n s) := by simp [execSyncLoss]

@[simp] theorem dithers_cellEvent (n k : Nat) (f : Cell → Cell) (s : State) :
    dithers (s.cellEvent n k f).clu = dithers s.clu := by
  rw [State.cellEvent, dithers_noteParks, dithers_modCell]

@[simp] theorem dithers_phaseTrig (n k t0 : Nat) (s : State) :
    dithers (State.phaseTrig n k t0 s).clu = dithers s.clu := by
  unfold State.phaseTrig
  split <;> simp

@[simp] theorem dithers_carrierStart (n k : Nat) (s : State) :
    dithers (State.carrierStart n k s).clu = dithers s.clu := by simp [State.carrierStart]

@[simp] theorem dithers_parkReport (n k : Nat) (s : State) :
    dithers (State.parkReport n k s).clu = dithers s.clu := by simp [State.parkReport]

@[simp] theorem execCellCommandWord_keepsDithers (n : CluIx) (k : CellIx) (w : BitVec 40) (m : PeriodMeas) (s : State) :
    KeepsDithers s (execCellCommandWord n k w m s) := by simp [execCellCommandWord]

@[simp] theorem execParkTimeout_keepsDithers (n : CluIx) (k : CellIx) (periods : Nat) (s : State) :
    KeepsDithers s (execParkTimeout n k periods s) := by simp [execParkTimeout]

@[simp] theorem execKickEnd_keepsDithers (n : CluIx) (k : CellIx) (vout : Nat) (s : State) :
    KeepsDithers s (execKickEnd n k vout s) := by simp [execKickEnd]

@[simp] theorem execKickRearm_keepsDithers (n : CluIx) (k : CellIx) (s : State) :
    KeepsDithers s (execKickRearm n k s) := by simp [execKickRearm]

@[simp] theorem dithers_truncNow (n k vout : Nat) (s : State) :
    dithers (State.truncNow n k vout s).clu = dithers s.clu := by simp [State.truncNow]

@[simp] theorem execTruncation_keepsDithers (n : CluIx) (k : CellIx) (vout : Nat) (s : State) :
    KeepsDithers s (execTruncation n k vout s) := by simp [execTruncation]

@[simp] theorem execTruncationEnd_keepsDithers (n : CluIx) (k : CellIx) (vout : Nat) (s : State) :
    KeepsDithers s (execTruncationEnd n k vout s) := by simp [execTruncationEnd]

@[simp] theorem dithers_shuntNow (n k vout : Nat) (s : State) :
    dithers (State.shuntNow n k vout s).clu = dithers s.clu := by simp [State.shuntNow]

@[simp] theorem execShunt_keepsDithers (n : CluIx) (k : CellIx) (vout : Nat) (s : State) :
    KeepsDithers s (execShunt n k vout s) := by simp [execShunt]

@[simp] theorem execShuntEnd_keepsDithers (n : CluIx) (k : CellIx) (vout : Nat) (s : State) :
    KeepsDithers s (execShuntEnd n k vout s) := by simp [execShuntEnd]

@[simp] theorem execShuntRearm_keepsDithers (n : CluIx) (k : CellIx) (s : State) :
    KeepsDithers s (execShuntRearm n k s) := by simp [execShuntRearm]

@[simp] theorem execOverloadTimer_keepsDithers (n : CluIx) (k : CellIx) (s : State) :
    KeepsDithers s (execOverloadTimer n k s) := by
  unfold execOverloadTimer
  split <;> simp

@[simp] theorem execHiccup_keepsDithers (n : CluIx) (k : CellIx) (cycles : Nat) (s : State) :
    KeepsDithers s (execHiccup n k cycles s) := by simp [execHiccup]

@[simp] theorem execHiccupHold_keepsDithers (n : CluIx) (k : CellIx) (m : PeriodMeas) (s : State) :
    KeepsDithers s (execHiccupHold n k m s) := by simp [execHiccupHold]

@[simp] theorem execRetryReset_keepsDithers (n : CluIx) (k : CellIx) (s : State) :
    KeepsDithers s (execRetryReset n k s) := by
  unfold execRetryReset
  dsimp only
  split <;> simp

@[simp] theorem execStartDone_keepsDithers (n : CluIx) (k : CellIx) (vout : Nat) (s : State) :
    KeepsDithers s (execStartDone n k vout s) := by simp [execStartDone]

@[simp] theorem execStartTimeout_keepsDithers (n : CluIx) (k : CellIx) (vout : Nat) (s : State) :
    KeepsDithers s (execStartTimeout n k vout s) := by simp [execStartTimeout]

@[simp] theorem dithers_openPhase (n k detail t0 : Nat) (s : State) :
    dithers (State.openPhase n k detail t0 s).clu = dithers s.clu := by simp [State.openPhase]

@[simp] theorem execStuckSwitch_keepsDithers (n : CluIx) (k : CellIx) (periods : Nat) (s : State) :
    KeepsDithers s (execStuckSwitch n k periods s) := by simp [execStuckSwitch]

@[simp] theorem execNoSwitching_keepsDithers (n : CluIx) (k : CellIx) (periods : Nat) (s : State) :
    KeepsDithers s (execNoSwitching n k periods s) := by simp [execNoSwitching]

@[simp] theorem execOpenPhase_keepsDithers (n : CluIx) (k : CellIx) (periods : Nat) (s : State) :
    KeepsDithers s (execOpenPhase n k periods s) := by simp [execOpenPhase]

@[simp] theorem execSenseImplausible_keepsDithers (n : CluIx) (k : CellIx) (periods : Nat) (s : State) :
    KeepsDithers s (execSenseImplausible n k periods s) := by
  unfold execSenseImplausible
  dsimp only
  repeat' split
  all_goals simp

@[simp] theorem execCellVinStop_keepsDithers (n : CluIx) (k : CellIx) (mv : Nat) (s : State) :
    KeepsDithers s (execCellVinStop n k mv s) := by simp [execCellVinStop]

@[simp] theorem execCellVinResume_keepsDithers (n : CluIx) (k : CellIx) (mv vout : Nat) (s : State) :
    KeepsDithers s (execCellVinResume n k mv vout s) := by simp [execCellVinResume]

/-! ### Machine/Sense -/

@[simp] theorem dithers_modLane (n k : Nat) (f : Lane → Lane) (s : State) :
    dithers (State.modLane n k f s).clu = dithers s.clu := by simp [State.modLane]

@[simp] theorem dithers_shadowJudge (n h k : Nat) (s : State) :
    dithers (State.shadowJudge n h k s).clu = dithers s.clu := by simp [State.shadowJudge]

@[simp] theorem dithers_shadowCheck (n h : Nat) (s : State) :
    dithers (State.shadowCheck n h s).clu = dithers s.clu := by simp [State.shadowCheck]

@[simp] theorem dithers_iConfirm (n k : Nat) (s : State) :
    dithers (State.iConfirm n k s).clu = dithers s.clu := by simp [State.iConfirm]

@[simp] theorem dithers_vConfirm (n k : Nat) (s : State) :
    dithers (State.vConfirm n k s).clu = dithers s.clu := by simp [State.vConfirm]

@[simp] theorem dithers_modSense (n : Nat) (f : Sense → Sense) (s : State) :
    dithers (State.modSense n f s).clu = dithers s.clu := by simp [State.modSense]

@[simp] theorem dithers_vinSusp (n : Nat) (s : State) :
    dithers (State.vinSusp n s).clu = dithers s.clu := by simp [State.vinSusp]

@[simp] theorem dithers_markSusp (n ch t0 t1 : Nat) (s : State) :
    dithers (State.markSusp n ch t0 t1 s).clu = dithers s.clu := by
  unfold State.markSusp
  dsimp only
  repeat' split
  all_goals simp

@[simp] theorem dithers_senseClear (n k : Nat) (s : State) :
    dithers (State.senseClear n k s).clu = dithers s.clu := by simp [State.senseClear]

@[simp] theorem dithers_widespread (n t sl : Nat) (inj : Bool) (s : State) :
    dithers (s.widespread n t sl inj).clu = dithers s.clu := by
  have hinj (u : State) (code : Nat) (sc : Scope) (x : Nat) :
      dithers (u.injected inj (State.raise code sc x)).clu = dithers u.clu :=
    dithers_injected (fun v => dithers_raise code sc x v) inj u
  unfold State.widespread
  extract_lets x failed s₁ s₂
  split
  · have h₂ : dithers s₂.clu = dithers s.clu :=
      (dithers_each (fun c u => dithers_markSusp n c _ t u) _ s₁).trans (dithers_modSense n _ s)
    split
    · exact h₂
    · exact (hinj _ _ _ _).trans h₂
  · exact (hinj _ _ _ _).trans (dithers_modSense n _ s)

@[simp] theorem dithers_compare (n ch t : Nat) (c3 : Sec3) (r prev : SRes) (vb : Int) (inj : Bool) (s : State) :
    dithers (s.compare n ch t c3 r prev vb inj).clu = dithers s.clu := by
  unfold State.compare
  split
  · rfl
  extract_lets cmp s₁ x
  have h₁ : dithers s₁.clu = dithers s.clu := dithers_modSense n _ s
  split
  · exact h₁
  split
  · exact (dithers_widespread n t _ inj s₁).trans h₁
  split
  · exact (dithers_injected (fun u => dithers_markSusp n ch _ t u) inj s₁).trans h₁
  · exact h₁

@[simp] theorem dithers_settleVolt (n : Nat) (s : State) :
    dithers (State.settleVolt n s).clu = dithers s.clu := by
  unfold State.settleVolt
  split <;> simp

@[simp] theorem dithers_endVolt (n : Nat) (s : State) :
    dithers (State.endVolt n s).clu = dithers s.clu := by
  unfold State.endVolt
  split <;> simp

@[simp] theorem dithers_guardCheck (n k t : Nat) (code : Int) (s : State) :
    dithers (State.guardCheck n k t code s).clu = dithers s.clu := by
  unfold State.guardCheck
  split
  · simp
  · split <;> simp

@[simp] theorem dithers_frame (n b : Nat) (m : FrameMeas) (s : State) :
    dithers (State.frame n b m s).clu = dithers s.clu := by simp [State.frame]

@[simp] theorem dithers_windowFrame (n : Nat) (s : State) : dithers (s.windowFrame n).clu = dithers s.clu := by
  unfold State.windowFrame
  extract_lets c fresh one
  rw [dithers_modCl, dithers_modCl]
  · exact fun _ => rfl
  · exact fun _ => rfl

@[simp] theorem execSenseFrame_keepsDithers (n : CluIx) (m : FrameMeas) (s : State) :
    KeepsDithers s (execSenseFrame n m s) := by simp [execSenseFrame]

@[simp] theorem execBackgroundCorrection_keepsDithers (n : CluIx) (s : State) :
    KeepsDithers s (execBackgroundCorrection n s) := by
  unfold execBackgroundCorrection
  dsimp only
  split
  · simp
  · split <;> simp

@[simp] theorem dithers_markOpen (n ch t0 t1 : Nat) (s : State) :
    dithers (State.markOpen n ch t0 t1 s).clu = dithers s.clu := by simp [State.markOpen]

@[simp] theorem execOpenWireTest_keepsDithers (n : CluIx) (s : State) :
    KeepsDithers s (execOpenWireTest n s) := by simp [execOpenWireTest]

@[simp] theorem execOpenWirePhase_keepsDithers (n : CluIx) (_value : Int) (s : State) :
    KeepsDithers s (execOpenWirePhase n _value s) := by simp [execOpenWirePhase, -put_clu]

@[simp] theorem dithers_singleShot (n ch : Nat) (s : State) :
    dithers (State.singleShot n ch s).clu = dithers s.clu := by simp [State.singleShot]

@[simp] theorem dithers_queuePop (n : Nat) (s : State) :
    dithers (State.queuePop n s).clu = dithers s.clu := by simp [State.queuePop]

@[simp] theorem dithers_capture (n k : Nat) (s : State) :
    dithers (State.capture n k s).clu = dithers s.clu := by simp [State.capture]

@[simp] theorem dithers_takeRef (s : State) :
    dithers (State.takeRef s).clu = dithers s.clu := by simp [State.takeRef]

@[simp] theorem dithers_pairBad (b st : Nat) (s : State) :
    dithers (State.pairBad b st s).clu = dithers s.clu := by simp [State.pairBad]

@[simp] theorem execBoardSenseReading_keepsDithers (b : Fin 3) (mv : Int) (s : State) :
    KeepsDithers s (execBoardSenseReading b mv s) := by simp [execBoardSenseReading]

@[simp] theorem execBoardSenseCheck_keepsDithers (moved0 moved1 : Int) (s : State) :
    KeepsDithers s (execBoardSenseCheck moved0 moved1 s) := by simp [execBoardSenseCheck]

@[simp] theorem dithers_kickNow (n k vout : Nat) (s : State) :
    dithers (State.kickNow n k vout s).clu = dithers s.clu := by simp [State.kickNow]

@[simp] theorem execKick_keepsDithers (n : CluIx) (k : CellIx) (vout : Nat) (s : State) :
    KeepsDithers s (execKick n k vout s) := by simp [execKick]

@[simp] theorem execCellSelfTest_keepsDithers (n : CluIx) (k : CellIx) (x : CellTest) (lcal : Nat)
    (m : PeriodMeas) (s : State) :
    KeepsDithers s (execCellSelfTest n k x lcal m s) := by simp [execCellSelfTest]

/-! ### Machine/Sharing -/

@[simp] theorem dithers_guardAll (n : Nat) (s : State) :
    dithers (State.guardAll n s).clu = dithers s.clu := by simp [State.guardAll]

@[simp] theorem dithers_clearCmd (d : Nat) (s : State) :
    dithers (State.clearCmd d s).clu = dithers s.clu := by simp [State.clearCmd]

@[simp] theorem execSettleTimeout_keepsDithers (d : DomIx) (s : State) :
    KeepsDithers s (execSettleTimeout d s) := by
  unfold execSettleTimeout
  dsimp only
  split
  · simp
  · split <;> simp

@[simp] theorem dithers_swapNow (n : Nat) (s : State) :
    dithers (State.swapNow n s).clu = dithers s.clu := by simp [State.swapNow]

@[simp] theorem execSwapEffect_keepsDithers (n : CluIx) (s : State) :
    KeepsDithers s (execSwapEffect n s) := by
  unfold execSwapEffect
  split <;> simp

@[simp] theorem execSwapTimeout_keepsDithers (n : CluIx) (s : State) :
    KeepsDithers s (execSwapTimeout n s) := by
  unfold execSwapTimeout
  split <;> simp

@[simp] theorem dithers_confirm (n k cls t0 : Nat) (s : State) :
    dithers (State.confirm n k cls t0 s).clu = dithers s.clu := by
  unfold State.confirm
  split <;> simp

@[simp] theorem dithers_countClass (n start cmN : Nat) (all : List Judged) (j : Judged) (s : State) :
    dithers (State.countClass n start cmN all j s).clu = dithers s.clu := by simp [State.countClass]

@[simp] theorem execContinuityWindow_keepsDithers (n : CluIx) (s : State) :
    KeepsDithers s (execContinuityWindow n s) := by simp [execContinuityWindow]

@[simp] theorem dithers_loseGaffer (n : Nat) (s : State) :
    dithers (State.loseGaffer n s).clu = dithers s.clu := by simp [State.loseGaffer]

@[simp] theorem dithers_missRecord (n k : Nat) (s : State) :
    dithers (State.missRecord n k s).clu = dithers s.clu := by simp [State.missRecord]

@[simp] theorem dithers_oddRecord (n k : Nat) (s : State) :
    dithers (State.oddRecord n k s).clu = dithers s.clu := by simp [State.oddRecord]

@[simp] theorem dithers_missLast (s : State) :
    dithers (State.missLast s).clu = dithers s.clu := by simp [State.missLast]

@[simp] theorem execGafferLoss_keepsDithers (n : CluIx) (s : State) :
    KeepsDithers s (execGafferLoss n s) := by simp [execGafferLoss]

@[simp] theorem dithers_applyRec (n h : Nat) (s : State) :
    dithers (State.applyRec n h s).clu = dithers s.clu := by
  unfold State.applyRec
  split <;> simp

@[simp] theorem dithers_vinRecord (n : Nat) (s : State) :
    dithers (State.vinRecord n s).clu = dithers s.clu := by simp [State.vinRecord]

/-! ### Machine/Thermal -/

@[simp] theorem dithers_modTherm (n : Nat) (f : Therm → Therm) (s : State) :
    dithers (State.modTherm n f s).clu = dithers s.clu := by simp [State.modTherm]

@[simp] theorem dithers_judgeSensor (n : Nat) (t : List Int) (k : Nat) (s : State) :
    dithers (State.judgeSensor n t k s).clu = dithers s.clu := by simp [State.judgeSensor]

@[simp] theorem dithers_limits (n : Nat) (s : State) :
    dithers (State.limits n s).clu = dithers s.clu := by simp [State.limits]

@[simp] theorem dithers_thDemand (d : Nat) (s : State) :
    dithers (State.thDemand d s).clu = dithers s.clu := by
  unfold State.thDemand
  dsimp only
  split <;> simp

@[simp] theorem dithers_thDeliver (n : Nat) (t : List Int) (s : State) :
    dithers (State.thDeliver n t s).clu = dithers s.clu := by
  unfold State.thDeliver
  dsimp only
  split <;> simp

@[simp] theorem execThermalSample_keepsDithers (n : CluIx) (s : State) :
    KeepsDithers s (execThermalSample n s) := by simp [execThermalSample]

@[simp] theorem execThermalSampleDelivered_keepsDithers (n : CluIx) (t : List Int) (s : State) :
    KeepsDithers s (execThermalSampleDelivered n t s) := by
  unfold execThermalSampleDelivered
  split <;> simp

@[simp] theorem execAgeingMeasurement_keepsDithers (n : CluIx) (stressed reference : Nat) (s : State) :
    KeepsDithers s (execAgeingMeasurement n stressed reference s) := by
  unfold execAgeingMeasurement
  dsimp only
  split
  · simp
  · split <;> simp

@[simp] theorem dithers_tripNow (n : Nat) (s : State) : dithers (s.tripNow n).clu = dithers s.clu := by
  simp [State.tripNow, -put_clu]

@[simp] theorem execCriticalTrip_keepsDithers (n : CluIx) (e : Fin 8) (s : State) :
    KeepsDithers s (execCriticalTrip n e s) := by simp [execCriticalTrip]

@[simp] theorem dithers_capOf (n k dv : Nat) (s : State) :
    dithers (State.capOf n k dv s).2.clu = dithers s.clu := by
  unfold State.capOf
  dsimp only
  split <;> simp

@[simp] theorem dithers_capInfo (n : Nat) (s : State) :
    dithers (State.capInfo n s).clu = dithers s.clu := by simp [State.capInfo]

@[simp] theorem execCapacitanceEstimate_keepsDithers (n : CluIx) (est : List (Nat × Nat)) (s : State) :
    KeepsDithers s (execCapacitanceEstimate n est s) := by simp [execCapacitanceEstimate, -modChan_clu]

/-! ### Machine/Slate -/

@[simp] theorem dithers_modSlt (f : Slate → Slate) (s : State) :
    dithers (State.modSlt f s).clu = dithers s.clu := by simp [State.modSlt]

@[simp] theorem dithers_modPort (p : Nat) (f : SPort → SPort) (s : State) :
    dithers (State.modPort p f s).clu = dithers s.clu := by simp [State.modPort]

@[simp] theorem dithers_sendMk (p k : Nat) (pay : BitVec 16) (s : State) :
    dithers (State.sendMk p k pay s).clu = dithers s.clu := by simp [State.sendMk]

@[simp] theorem dithers_sendPair (p k : Nat) (pay : BitVec 16) (s : State) :
    dithers (State.sendPair p k pay s).clu = dithers s.clu := by simp [State.sendPair]

@[simp] theorem dithers_sendDown (k : Nat) (pay : BitVec 16) (s : State) :
    dithers (State.sendDown k pay s).clu = dithers s.clu := by simp [State.sendDown]

@[simp] theorem dithers_ctrlUp (op arg : Nat) (s : State) :
    dithers (State.ctrlUp op arg s).clu = dithers s.clu := by simp [State.ctrlUp]

@[simp] theorem dithers_slateLost (s : State) :
    dithers (State.slateLost s).clu = dithers s.clu := by simp [State.slateLost]

@[simp] theorem dithers_releaseAt (t : Nat) (s : State) :
    dithers (State.releaseAt t s).clu = dithers s.clu := by
  unfold State.releaseAt
  dsimp only
  split <;> simp

@[simp] theorem dithers_releaseNow (s : State) :
    dithers (State.releaseNow s).clu = dithers s.clu := by simp [State.releaseNow]

@[simp] theorem dithers_unjoin (s : State) :
    dithers (State.unjoin s).clu = dithers s.clu := by
  unfold State.unjoin
  dsimp only
  repeat' split
  all_goals simp

@[simp] theorem dithers_detached (s : State) :
    dithers (State.detached s).clu = dithers s.clu := by simp [State.detached]

@[simp] theorem dithers_changeN (d : Int) (s : State) :
    dithers (State.changeN d s).clu = dithers s.clu := by simp [State.changeN]

@[simp] theorem dithers_leaveUp (k : Nat) (s : State) :
    dithers (State.leaveUp k s).clu = dithers s.clu := by simp [State.leaveUp]

@[simp] theorem dithers_joinUp (k : Nat) (s : State) :
    dithers (State.joinUp k s).clu = dithers s.clu := by simp [State.joinUp]

@[simp] theorem dithers_admitPort (p : Nat) (s : State) :
    dithers (State.admitPort p s).clu = dithers s.clu := by
  unfold State.admitPort
  split <;> simp

@[simp] theorem dithers_admitAll (s : State) :
    dithers (State.admitAll s).clu = dithers s.clu := by simp [State.admitAll]

@[simp] theorem dithers_dropPort (p : Nat) (s : State) :
    dithers (State.dropPort p s).clu = dithers s.clu := by simp [State.dropPort]

@[simp] theorem dithers_ownRelease (t : Nat) (s : State) :
    dithers (State.ownRelease t s).clu = dithers s.clu := by
  unfold State.ownRelease
  dsimp only
  split
  · simp
  · split <;> simp

@[simp] theorem dithers_detachPorts (s : State) :
    dithers (State.detachPorts s).clu = dithers s.clu := by simp [State.detachPorts]

@[simp] theorem dithers_reachChanged (s : State) :
    dithers (State.reachChanged s).clu = dithers s.clu := by simp [State.reachChanged]

@[simp] theorem dithers_passRelease (k : Nat) (tr : Int) (s : State) :
    dithers (State.passRelease k tr s).clu = dithers s.clu := by
  unfold State.passRelease
  dsimp only
  repeat' split
  all_goals simp

@[simp] theorem dithers_dissolveNow (s : State) :
    dithers (State.dissolveNow s).clu = dithers s.clu := by simp [State.dissolveNow]

@[simp] theorem dithers_rootRelease (k : Nat) (tr : Int) (s : State) :
    dithers (State.rootRelease k tr s).clu = dithers s.clu := by simp [State.rootRelease]

@[simp] theorem dithers_tryCombine (s : State) :
    dithers (State.tryCombine s).clu = dithers s.clu := by
  unfold State.tryCombine
  dsimp only
  split
  · simp
  · split <;> simp

@[simp] theorem dithers_arrive (ready : Nat) (s : State) :
    dithers (State.arrive ready s).clu = dithers s.clu := by simp [State.arrive]

@[simp] theorem dithers_leaveTree (s : State) :
    dithers (State.leaveTree s).clu = dithers s.clu := by simp [State.leaveTree]

@[simp] theorem dithers_slateCtxLeft (s old : State) : dithers (s.slateCtxLeft old).clu = dithers s.clu := by
  simp [State.slateCtxLeft]

@[simp] theorem dithers_started (s : State) :
    dithers (State.started s).clu = dithers s.clu := by
  unfold State.started
  dsimp only
  split <;> simp

@[simp] theorem dithers_tryAnswer (s : State) :
    dithers (State.tryAnswer s).clu = dithers s.clu := by
  unfold State.tryAnswer
  dsimp only
  repeat' split
  all_goals simp

@[simp] theorem dithers_enumerate (level : Nat) (s : State) :
    dithers (State.enumerate level s).clu = dithers s.clu := by simp [State.enumerate]

@[simp] theorem dithers_slateJoin (slot c : Nat) (s : State) :
    dithers (State.slateJoin slot c s).clu = dithers s.clu := by simp [State.slateJoin]

@[simp] theorem dithers_train (p : Nat) (s : State) :
    dithers (State.train p s).clu = dithers s.clu := by simp [State.train]

@[simp] theorem dithers_linkLost (p : Nat) (s : State) :
    dithers (State.linkLost p s).clu = dithers s.clu := by simp [State.linkLost]

@[simp] theorem execLaneUp_keepsDithers (p : SltPort) (m : LaneTrain) (s : State) :
    KeepsDithers s (execLaneUp p m s) := by simp [execLaneUp]

@[simp] theorem dithers_laneDown (p : Nat) (s : State) :
    dithers (State.laneDown p s).clu = dithers s.clu := by simp [State.laneDown]

@[simp] theorem dithers_mkBad (p : Nat) (s : State) :
    dithers (State.mkBad p s).clu = dithers s.clu := by simp [State.mkBad]

@[simp] theorem dithers_recvMk {act : State → State} (h : ∀ s, dithers (act s).clu = dithers s.clu) (p k : Nat)
    (pay : BitVec 16) (chk : BitVec 8) (up pair : Bool) (s : State) :
    dithers (s.recvMk p k pay chk up pair act).clu = dithers s.clu := by
  simp [State.recvMk, h]

@[simp] theorem dithers_recvCtrl {act : State → State} (h : ∀ s, dithers (act s).clu = dithers s.clu) (p op : Nat)
    (arg : BitVec 12) (chk : BitVec 8) (up : Bool) (s : State) :
    dithers (s.recvCtrl p op arg chk up act).clu = dithers s.clu :=
  dithers_recvMk h p _ _ chk up true s

@[simp] theorem dithers_mkArrive (p : SltPort) (pay : BitVec 16) (chk : BitVec 8) (s : State) :
    dithers (State.mkArrive p pay chk s).clu = dithers s.clu := by simp [State.mkArrive]

@[simp] theorem dithers_mkRelease (p : SltPort) (pay : BitVec 16) (chk : BitVec 8) (s : State) :
    dithers (State.mkRelease p pay chk s).clu = dithers s.clu := by simp [State.mkRelease]

@[simp] theorem dithers_mkAbort (p : SltPort) (pay : BitVec 16) (chk : BitVec 8) (s : State) :
    dithers (State.mkAbort p pay chk s).clu = dithers s.clu := by simp [State.mkAbort]

@[simp] theorem dithers_lockLost (s : State) :
    dithers (State.lockLost s).clu = dithers s.clu := by simp [State.lockLost]

@[simp] theorem dithers_takeTime (pay : BitVec 16) (s : State) :
    dithers (State.takeTime pay s).clu = dithers s.clu := by simp [State.takeTime]

@[simp] theorem dithers_tickMissing (s : State) :
    dithers (State.tickMissing s).clu = dithers s.clu := by simp [State.tickMissing]

@[simp] theorem execTimeTick_keepsDithers (s : State) :
    KeepsDithers s (execTimeTick s) := by simp [execTimeTick]

@[simp] theorem execMkPing_keepsDithers (p : SltPort) (pay : BitVec 16) (chk : BitVec 8) (turn : Nat) (s : State) :
    KeepsDithers s (execMkPing p pay chk turn s) := by simp [execMkPing]

@[simp] theorem execMkEcho_keepsDithers (p : SltPort) (pay : BitVec 16) (chk : BitVec 8) (rtt : Nat) (s : State) :
    KeepsDithers s (execMkEcho p pay chk rtt s) := by
  refine dithers_recvMk (fun u => ?_) p kEcho pay chk false false s
  split
  · rfl
  · split <;> simp

@[simp] theorem execPingInterval_keepsDithers (s : State) :
    KeepsDithers s (execPingInterval s) := by simp [execPingInterval]

@[simp] theorem execPingTimeout_keepsDithers (s : State) :
    KeepsDithers s (execPingTimeout s) := by
  unfold execPingTimeout
  split <;> simp

@[simp] theorem dithers_mkEnum (p : SltPort) (arg : BitVec 12) (chk : BitVec 8) (s : State) :
    dithers (State.mkEnum p arg chk s).clu = dithers s.clu := by simp [State.mkEnum]

@[simp] theorem dithers_mkCount (p : SltPort) (arg : BitVec 12) (chk : BitVec 8) (s : State) :
    dithers (State.mkCount p arg chk s).clu = dithers s.clu := by simp [State.mkCount]

@[simp] theorem dithers_mkCountOver (p : SltPort) (arg : BitVec 12) (chk : BitVec 8) (s : State) :
    dithers (State.mkCountOver p arg chk s).clu = dithers s.clu := by simp [State.mkCountOver]

@[simp] theorem dithers_mkReach (p : SltPort) (arg : BitVec 12) (chk : BitVec 8) (s : State) :
    dithers (State.mkReach p arg chk s).clu = dithers s.clu := by simp [State.mkReach]

@[simp] theorem dithers_mkSize (p : SltPort) (arg : BitVec 12) (chk : BitVec 8) (s : State) :
    dithers (State.mkSize p arg chk s).clu = dithers s.clu := by simp [State.mkSize]

@[simp] theorem dithers_mkStart (p : SltPort) (arg : BitVec 12) (chk : BitVec 8) (s : State) :
    dithers (State.mkStart p arg chk s).clu = dithers s.clu := by simp [State.mkStart]

@[simp] theorem dithers_mkJoin (p : SltPort) (arg : BitVec 12) (chk : BitVec 8) (s : State) :
    dithers (State.mkJoin p arg chk s).clu = dithers s.clu := by simp [State.mkJoin]

@[simp] theorem dithers_mkAdmit (p : SltPort) (arg : BitVec 12) (chk : BitVec 8) (s : State) :
    dithers (State.mkAdmit p arg chk s).clu = dithers s.clu := by
  refine dithers_recvCtrl (fun u => ?_) p 8 arg chk false s
  split <;> simp

@[simp] theorem dithers_mkLeave (p : SltPort) (arg : BitVec 12) (chk : BitVec 8) (s : State) :
    dithers (State.mkLeave p arg chk s).clu = dithers s.clu := by simp [State.mkLeave]

@[simp] theorem dithers_mkDetach (p : SltPort) (arg : BitVec 12) (chk : BitVec 8) (s : State) :
    dithers (State.mkDetach p arg chk s).clu = dithers s.clu := by simp [State.mkDetach]

@[simp] theorem dithers_mkDissolve (p : SltPort) (arg : BitVec 12) (chk : BitVec 8) (s : State) :
    dithers (State.mkDissolve p arg chk s).clu = dithers s.clu := by simp [State.mkDissolve]

@[simp] theorem dithers_arriveSend (s : State) :
    dithers (State.arriveSend s).clu = dithers s.clu := by
  unfold State.arriveSend
  dsimp only
  repeat' split
  all_goals simp

@[simp] theorem execSlateReleaseInstant_keepsDithers (s : State) :
    KeepsDithers s (execSlateReleaseInstant s) := by
  unfold execSlateReleaseInstant
  split <;> simp

@[simp] theorem dithers_slateTimeout (s : State) :
    dithers (State.slateTimeout s).clu = dithers s.clu := by
  unfold State.slateTimeout
  split <;> simp

@[simp] theorem dithers_localTimeout (s : State) :
    dithers (State.localTimeout s).clu = dithers s.clu := by
  unfold State.localTimeout
  split <;> simp

@[simp] theorem dithers_slateDo (c : Instr) (s : State) :
    dithers (State.slateDo c s).clu = dithers s.clu := by
  cases c with
  | laneDown p => exact dithers_laneDown p s
  | tickMissing => exact dithers_tickMissing s
  | mkTime p pay chk => exact dithers_recvMk (fun u => dithers_takeTime pay u) p kTime pay chk false false s
  | mkRelease p pay chk => exact dithers_mkRelease p pay chk s
  | mkAbort p pay chk => exact dithers_mkAbort p pay chk s
  | mkDetach p arg chk => exact dithers_mkDetach p arg chk s
  | mkDissolve p arg chk => exact dithers_mkDissolve p arg chk s
  | mkArrive p pay chk => exact dithers_mkArrive p pay chk s
  | arriveSend => exact dithers_arriveSend s
  | slateTimeout => exact dithers_slateTimeout s
  | localTimeout => exact dithers_localTimeout s
  | mkEnum p arg chk => exact dithers_mkEnum p arg chk s
  | mkCount p arg chk => exact dithers_mkCount p arg chk s
  | mkCountOver p arg chk => exact dithers_mkCountOver p arg chk s
  | mkReach p arg chk => exact dithers_mkReach p arg chk s
  | mkSize p arg chk => exact dithers_mkSize p arg chk s
  | mkStart p arg chk => exact dithers_mkStart p arg chk s
  | mkJoin p arg chk => exact dithers_mkJoin p arg chk s
  | mkAdmit p arg chk => exact dithers_mkAdmit p arg chk s
  | mkLeave p arg chk => exact dithers_mkLeave p arg chk s
  | _ => rfl

@[simp] theorem dithers_slateEvent (c : Instr) (s : State) :
    dithers (State.slateEvent c s).clu = dithers s.clu := by
  unfold State.slateEvent
  split <;> simp

@[simp] theorem execLaneDown_keepsDithers (p : SltPort) (s : State) :
    KeepsDithers s (execLaneDown p s) := by simp [execLaneDown]

@[simp] theorem execTickMissing_keepsDithers (s : State) :
    KeepsDithers s (execTickMissing s) := by simp [execTickMissing]

@[simp] theorem execMkTime_keepsDithers (p : SltPort) (pay : BitVec 16) (chk : BitVec 8) (s : State) :
    KeepsDithers s (execMkTime p pay chk s) := by simp [execMkTime]

@[simp] theorem execMkRelease_keepsDithers (p : SltPort) (pay : BitVec 16) (chk : BitVec 8) (s : State) :
    KeepsDithers s (execMkRelease p pay chk s) := by simp [execMkRelease]

@[simp] theorem execMkAbort_keepsDithers (p : SltPort) (pay : BitVec 16) (chk : BitVec 8) (s : State) :
    KeepsDithers s (execMkAbort p pay chk s) := by simp [execMkAbort]

@[simp] theorem execMkArrive_keepsDithers (p : SltPort) (pay : BitVec 16) (chk : BitVec 8) (s : State) :
    KeepsDithers s (execMkArrive p pay chk s) := by simp [execMkArrive]

@[simp] theorem execMkEnum_keepsDithers (p : SltPort) (arg : BitVec 12) (chk : BitVec 8) (s : State) :
    KeepsDithers s (execMkEnum p arg chk s) := by simp [execMkEnum]

@[simp] theorem execMkCount_keepsDithers (p : SltPort) (arg : BitVec 12) (chk : BitVec 8) (s : State) :
    KeepsDithers s (execMkCount p arg chk s) := by simp [execMkCount]

@[simp] theorem execMkCountOver_keepsDithers (p : SltPort) (arg : BitVec 12) (chk : BitVec 8) (s : State) :
    KeepsDithers s (execMkCountOver p arg chk s) := by simp [execMkCountOver]

@[simp] theorem execMkReach_keepsDithers (p : SltPort) (arg : BitVec 12) (chk : BitVec 8) (s : State) :
    KeepsDithers s (execMkReach p arg chk s) := by simp [execMkReach]

@[simp] theorem execMkSize_keepsDithers (p : SltPort) (arg : BitVec 12) (chk : BitVec 8) (s : State) :
    KeepsDithers s (execMkSize p arg chk s) := by simp [execMkSize]

@[simp] theorem execMkStart_keepsDithers (p : SltPort) (arg : BitVec 12) (chk : BitVec 8) (s : State) :
    KeepsDithers s (execMkStart p arg chk s) := by simp [execMkStart]

@[simp] theorem execMkJoin_keepsDithers (p : SltPort) (arg : BitVec 12) (chk : BitVec 8) (s : State) :
    KeepsDithers s (execMkJoin p arg chk s) := by simp [execMkJoin]

@[simp] theorem execMkAdmit_keepsDithers (p : SltPort) (arg : BitVec 12) (chk : BitVec 8) (s : State) :
    KeepsDithers s (execMkAdmit p arg chk s) := by simp [execMkAdmit]

@[simp] theorem execMkLeave_keepsDithers (p : SltPort) (arg : BitVec 12) (chk : BitVec 8) (s : State) :
    KeepsDithers s (execMkLeave p arg chk s) := by simp [execMkLeave]

@[simp] theorem execMkDetach_keepsDithers (p : SltPort) (arg : BitVec 12) (chk : BitVec 8) (s : State) :
    KeepsDithers s (execMkDetach p arg chk s) := by simp [execMkDetach]

@[simp] theorem execMkDissolve_keepsDithers (p : SltPort) (arg : BitVec 12) (chk : BitVec 8) (s : State) :
    KeepsDithers s (execMkDissolve p arg chk s) := by simp [execMkDissolve]

@[simp] theorem execArriveSend_keepsDithers (s : State) :
    KeepsDithers s (execArriveSend s) := by simp [execArriveSend]

@[simp] theorem execSlateTimeout_keepsDithers (s : State) :
    KeepsDithers s (execSlateTimeout s) := by simp [execSlateTimeout]

@[simp] theorem execLocalTimeout_keepsDithers (s : State) :
    KeepsDithers s (execLocalTimeout s) := by simp [execLocalTimeout]

@[simp] theorem execJoinTimeout_keepsDithers (s : State) :
    KeepsDithers s (execJoinTimeout s) := by
  unfold execJoinTimeout
  split <;> simp

/-! ### Machine/Banks -/

@[simp] theorem dithers_bankLoaded (slot n : Nat) (b : Bank) (bad : Option (Nat × Status)) (s : State) :
    dithers (State.bankLoaded slot n b bad s).clu = dithers s.clu := by
  unfold State.bankLoaded
  split <;> simp

@[simp] theorem dithers_archLoaded (slot n a : Nat) (poison : Bool) (s : State) :
    dithers (State.archLoaded slot n a poison s).clu = dithers s.clu := by simp [State.archLoaded]

@[simp] theorem dithers_archFailed (slot n : Nat) (s : State) :
    dithers (State.archFailed slot n s).clu = dithers s.clu := by simp [State.archFailed]

/-! ### Machine/Channels -/

@[simp] theorem dithers_chRaise (code c detail : Nat) (s : State) :
    dithers (State.chRaise code c detail s).clu = dithers s.clu := by simp [State.chRaise]

@[simp] theorem dithers_offEffects (c : Nat) (jobs : List ChJob) (s : State) :
    dithers (State.offEffects c jobs s).clu = dithers s.clu := by
  unfold State.offEffects
  split
  · extract_lets s₁ s₂ lost host s₃ held host' s₄
    have h₁ : dithers s₁.clu = dithers s.clu := by
      refine dithers_each (fun j u => ?_) jobs s
      split
      · simp
      · rfl
      · rfl
    have h₂ : dithers s₂.clu = dithers s₁.clu := by
      refine dithers_each (fun h u => ?_) _ s₁
      rw [dithers_modHalf, dithers_withdraw]
    have h₄ : dithers s₄.clu = dithers s₂.clu := rfl
    rw [← h₁, ← h₂, ← h₄]
    clear_value s₄
    refine dithers_each (fun e u => ?_) _ s₄
    exact dithers_evLost _ _ u
  · split
    · refine dithers_each (fun k u => ?_) _ s
      split <;> simp
    · exact dithers_each (fun j u => dithers_planRead _ j u) jobs s

@[simp] theorem dithers_goOffline (c : Nat) (vudc : Bool) (s : State) :
    dithers (State.goOffline c vudc s).clu = dithers s.clu := by
  unfold State.goOffline
  split <;> simp

@[simp] theorem dithers_goHalf (c : Nat) (s : State) :
    dithers (State.goHalf c s).clu = dithers s.clu := by simp [State.goHalf]

@[simp] theorem dithers_dqFailed (c lane : Nat) (s : State) :
    dithers (State.dqFailed c lane s).clu = dithers s.clu := by
  unfold State.dqFailed
  dsimp only
  split
  · simp
  · split <;> simp

@[simp] theorem dithers_caFailed (c lane : Nat) (s : State) :
    dithers (State.caFailed c lane s).clu = dithers s.clu := by simp [State.caFailed]

@[simp] theorem dithers_laneFail (c lane : Nat) (s : State) :
    dithers (State.laneFail c lane s).clu = dithers s.clu := by simp [State.laneFail]

@[simp] theorem dithers_ckFail (c b : Nat) (s : State) :
    dithers (State.ckFail c b s).clu = dithers s.clu := by simp [State.ckFail]

@[simp] theorem execChannelTraining_keepsDithers (ch : ChIx) (ok : Bool) (eyes : List LaneEye) (s : State) :
    KeepsDithers s (execChannelTraining ch ok eyes s) := by simp [execChannelTraining, -modChan_clu]

@[simp] theorem dithers_correct (c : Nat) (lanes : List Nat) (s : State) :
    dithers (State.correct c lanes s).clu = dithers s.clu := by simp [State.correct]

@[simp] theorem dithers_profRead (c ctx p : Nat) (bad : Bool) (s : State) :
    dithers (State.profRead c ctx p bad s).clu = dithers s.clu := by
  unfold State.profRead
  dsimp only
  split
  · simp
  · split <;> simp

@[simp] theorem dithers_fillRead (c ctx p : Nat) (bad : Bool) (s : State) :
    dithers (State.fillRead c ctx p bad s).clu = dithers s.clu := by
  unfold State.fillRead
  dsimp only
  repeat' split
  all_goals simp

@[simp] theorem dithers_shotsRead (c ctx line : Nat) (bad : Bool) (s : State) :
    dithers (State.shotsRead c ctx line bad s).clu = dithers s.clu := by simp [State.shotsRead]

@[simp] theorem dithers_archBurst (c slot a : Nat) (bad : Bool) (s : State) :
    dithers (State.archBurst c slot a bad s).clu = dithers s.clu := by simp [State.archBurst]

@[simp] theorem dithers_poisonShots (line : Nat) (s : State) :
    dithers (State.poisonShots line s).clu = dithers s.clu := by simp [State.poisonShots]

@[simp] theorem dithers_poisonLine (c line : Nat) (s : State) :
    dithers (State.poisonLine c line s).clu = dithers s.clu := by simp [State.poisonLine]

@[simp] theorem dithers_poisonJob (c : Nat) (j : ChJob) (s : State) :
    dithers (State.poisonJob c j s).clu = dithers s.clu := by
  unfold State.poisonJob
  split <;> simp

@[simp] theorem execChannelRead_keepsDithers (ch : ChIx) (m : LineMeas) (s : State) :
    KeepsDithers s (execChannelRead ch m s) := by
  unfold execChannelRead
  extract_lets c bad
  split
  · exact rfl
  split
  · exact rfl
  extract_lets arch s₁ beats inj flt s₂ s₃ s₄ s₅ s₆
  have h₂ : dithers s₂.clu = dithers s.clu := by
    change dithers s₁.clu = _
    exact dithers_modChan s _ _
  have h₃ : dithers s₃.clu = dithers s₂.clu := by simp [s₃, -modChan_clu]
  have h₄ : dithers s₄.clu = dithers s₃.clu := by simp [s₄]
  have h₅ : dithers s₅.clu = dithers s₄.clu := by
    unfold s₅
    split <;> simp
  have h₆ : dithers s₆.clu = dithers s₅.clu :=
    (dithers_injected (fun u => dithers_correct c _ u) true _).trans (dithers_correct c _ s₅)
  rw [keepsDithers_next, ← h₂, ← h₃, ← h₄, ← h₅, ← h₆]
  clear_value s₆
  refine dithers_each (fun b u => ?_) _ s₆
  exact dithers_ckFail c b u

@[simp] theorem execRecalibration_keepsDithers (ch : ChIx) (eyes : List LaneEye) (s : State) :
    KeepsDithers s (execRecalibration ch eyes s) := by simp [execRecalibration, -modChan_clu]

@[simp] theorem execScrub_keepsDithers (slice : Fin 65) (corrected poisoned : List Nat) (s : State) :
    KeepsDithers s (execScrub slice corrected poisoned s) := by simp [execScrub, -modChan_clu]

@[simp] theorem execVudcLoss_keepsDithers (s : State) :
    KeepsDithers s (execVudcLoss s) := by simp [execVudcLoss, -modChan_clu]

/-! ### Machine/ShareBus -/

@[simp] theorem dithers_recallBy (d amt : Nat) (ws : List (Nat × Nat)) (s : State) :
    dithers (State.recallBy d amt ws s).clu = dithers s.clu := by simp [State.recallBy]

@[simp] theorem dithers_changePool (d new : Nat) (s : State) :
    dithers (State.changePool d new s).clu = dithers s.clu := by simp [State.changePool]

@[simp] theorem dithers_newFsw (n : Nat) (old new : Sec1) (s : State)
    : dithers (s.newFsw n old new).clu = dithers s.clu := by
  unfold State.newFsw
  dsimp only
  split
  · rfl
  · exact dithers_setCarr (m_carr n s)

@[simp] theorem dithers_slatePorts (s : State) :
    dithers (State.slatePorts s).clu = dithers s.clu := by simp [State.slatePorts]

@[simp] theorem dithers_takeFsw (n : Nat) (old new : Sec1) (s : State)
    : dithers (s.takeFsw n old new).clu = dithers s.clu := by
  unfold State.takeFsw
  split
  · simp
  · exact dithers_setCarr (m_carr n s)

@[simp] theorem dithers_keepS3 (old : Sec3) (s : State) :
    dithers (State.keepS3 old s).clu = dithers s.clu := by simp [State.keepS3]

@[simp] theorem dithers_applySheet (new : CallSheet) (s : State) :
    dithers (State.applySheet new s).clu = dithers s.clu := by simp [State.applySheet]

@[simp] theorem dithers_queueShares (n h : Nat) (s : State) :
    dithers (State.queueShares n h s).clu = dithers s.clu := by simp [State.queueShares]

@[simp] theorem dithers_snapClu (n : Nat) (s : State) :
    dithers (State.snapClu n s).clu = dithers s.clu := by simp [State.snapClu]

@[simp] theorem dithers_capsClu (n : Nat) (s : State) :
    dithers (State.capsClu n s).clu = dithers s.clu := by simp [State.capsClu]

@[simp] theorem dithers_accumulate (s : State) : dithers s.accumulate.clu = dithers s.clu := by
  simp [State.accumulate, -modDm_clu]

@[simp] theorem dithers_snapDom (d : Nat) (s : State) :
    dithers (State.snapDom d s).clu = dithers s.clu := by simp [State.snapDom]

@[simp] theorem dithers_withholdDom (d : Nat) (s : State) : dithers (s.withholdDom d).clu = dithers s.clu := by
  unfold State.withholdDom
  extract_lets hs x star flight debts debt k s₁ short loss caps s₂ y room
  have h₂ : dithers s₂.clu = dithers s.clu := by simp [s₂, s₁]
  rw [← h₂]
  split
  · rfl
  refine dithers_each (fun q u => ?_) _ s₂
  split <;> simp

@[simp] theorem dithers_allotDom (d : Nat) (s : State) :
    dithers (State.allotDom d s).clu = dithers s.clu := by simp [State.allotDom]

@[simp] theorem dithers_applyConfigs (s : State) : dithers s.applyConfigs.clu = dithers s.clu := by
  unfold State.applyConfigs
  dsimp only
  rw [dithers_each fun q u => dithers_complete q _ _ u]
  refine dithers_each (fun d u => ?_) _ s
  split
  · rfl
  · simp

@[simp] theorem dithers_capWaits (s : State) :
    dithers (State.capWaits s).clu = dithers s.clu := by
  unfold State.capWaits
  refine dithers_each (fun x u => ?_) _ _
  split <;> simp

@[simp] theorem dithers_demandsAt (s : State) :
    dithers (State.demandsAt s).clu = dithers s.clu := by
  unfold State.demandsAt
  refine dithers_each (fun x u => ?_) _ _
  dsimp only
  split <;> simp

@[simp] theorem dithers_closePhases (rep : Nat) (s : State) :
    dithers (State.closePhases rep s).clu = dithers s.clu := by simp [State.closePhases]

@[simp] theorem dithers_busReport (s : State) :
    dithers (State.busReport s).clu = dithers s.clu := by simp [State.busReport]

@[simp] theorem dithers_busApply (rep : Nat) (s : State) :
    dithers (State.busApply rep s).clu = dithers s.clu := by
  unfold State.busApply
  extract_lets s₁ pow board s₂ s₃ ds s₄ s₅ s₆
  have h₁ : dithers s₁.clu = dithers s.clu := by
    unfold s₁
    split <;> simp
  clear_value s₁
  have h₂ : dithers s₂.clu = dithers s₁.clu := rfl
  clear_value s₂
  have h₃ : dithers s₃.clu = dithers s₂.clu := by simp [s₃]
  clear_value s₃
  have h₄ : dithers s₄.clu = dithers s₃.clu := by
    refine dithers_each (fun d u => ?_) ds s₃
    exact dithers_modDm _ _ _
  clear_value s₄
  have h₅ : dithers s₅.clu = dithers s₄.clu :=
    dithers_each (fun d u => (dithers_allotDom d _).trans (dithers_withholdDom d u)) _ s₄
  clear_value s₅
  have h₆ : dithers s₆.clu = dithers s₅.clu := (dithers_closePhases rep _).trans (dithers_capWaits s₅)
  clear_value s₆
  rw [dithers_closeFlt, h₆, h₅, h₄, h₃, h₂, h₁]

@[simp] theorem dithers_busSent (s : State) :
    dithers (State.busSent s).clu = dithers s.clu := by
  unfold State.busSent
  split <;> simp

/-! ### Machine/Domains -/

@[simp] theorem execSetpointSettled_keepsDithers (d : DomIx) (s : State) :
    KeepsDithers s (execSetpointSettled d s) := by
  unfold execSetpointSettled
  split
  · simp
  · split <;> simp

@[simp] theorem dithers_modStg (d : Nat) (f : Staging → Staging) (s : State) :
    dithers (State.modStg d f s).clu = dithers s.clu := by simp [State.modStg]

@[simp] theorem dithers_takeStage (d need : Nat) (s : State) :
    dithers (State.takeStage d need s).clu = dithers s.clu := by
  unfold State.takeStage
  dsimp only
  split <;> simp

@[simp] theorem dithers_dropStage (d : Nat) (s : State) :
    dithers (State.dropStage d s).clu = dithers s.clu := by simp [State.dropStage]

@[simp] theorem dithers_liftH (d : Nat) (s : State) :
    dithers (State.liftH d s).2.clu = dithers s.clu := by simp [State.liftH]

@[simp] theorem dithers_fade (n : Nat) (off : Bool) (s : State) :
    dithers (State.fade n off s).clu = dithers s.clu := by simp [State.fade]

@[simp] theorem dithers_unfade (d : Nat) (s : State) :
    dithers (State.unfade d s).clu = dithers s.clu := by
  unfold State.unfade
  split <;> simp

@[simp] theorem dithers_stageB (d prev need c : Nat) (s : State) :
    dithers (State.stageB d prev need c s).clu = dithers s.clu := by simp [State.stageB]

@[simp] theorem dithers_stageForce (d prev : Nat) (peak : List Nat) (s : State) :
    dithers (State.stageForce d prev peak s).clu = dithers s.clu := by simp [State.stageForce]

@[simp] theorem dithers_stageCheck (d prev : Nat) (forced : Bool) (s : State) :
    dithers (State.stageCheck d prev forced s).clu = dithers s.clu := by
  unfold State.stageCheck
  dsimp only
  repeat' split
  all_goals simp

@[simp] theorem dithers_stageNext (d : Nat) (s : State) :
    dithers (State.stageNext d s).clu = dithers s.clu := by simp [State.stageNext]

@[simp] theorem dithers_stageClose (d : Nat) (s : State) :
    dithers (State.stageClose d s).clu = dithers s.clu := by
  unfold State.stageClose
  split <;> simp

@[simp] theorem dithers_stageOpen (d : Nat) (s : State) :
    dithers (State.stageOpen d s).clu = dithers s.clu := by simp [State.stageOpen]

@[simp] theorem execHeaderStage_keepsDithers (d : DomIx) (s : State) :
    KeepsDithers s (execHeaderStage d s) := by
  unfold execHeaderStage
  repeat' split
  all_goals simp

@[simp] theorem execNbWaitExpiry_keepsDithers (d : DomIx) (s : State) :
    KeepsDithers s (execNbWaitExpiry d s) := by
  unfold execNbWaitExpiry
  split
  · simp
  · split <;> simp

@[simp] theorem dithers_pauseStages (s : State) :
    dithers (State.pauseStages s).clu = dithers s.clu := by simp [State.pauseStages]

@[simp] theorem dithers_resumeStages (s : State) :
    dithers (State.resumeStages s).clu = dithers s.clu := by
  unfold State.resumeStages
  refine dithers_each (fun x u => ?_) _ _
  dsimp only
  split <;> simp

@[simp] theorem dithers_startDomain (d : Nat) (cmd : Option Nat) (s : State) :
    dithers (State.startDomain d cmd s).clu = dithers s.clu := by simp [State.startDomain]

@[simp] theorem dithers_forceTarget (d code : Nat) (s : State) :
    dithers (State.forceTarget d code s).clu = dithers s.clu := by simp [State.forceTarget]

@[simp] theorem dithers_wavesDone (s : State) :
    dithers (State.wavesDone s).clu = dithers s.clu := by simp [State.wavesDone]

@[simp] theorem dithers_leaveWave (d : Nat) (s : State) :
    dithers (State.leaveWave d s).clu = dithers s.clu := by simp [State.leaveWave]

@[simp] theorem dithers_foundOn (d : Nat) (s : State) :
    dithers (State.foundOn d s).clu = dithers s.clu := by
  unfold State.foundOn
  split <;> simp

@[simp] theorem dithers_stepSeven (s : State) :
    dithers (State.stepSeven s).clu = dithers s.clu := by
  unfold State.stepSeven
  extract_lets fed b s₁ isFound found off s₂ s₃ rest cold go s₄ s₅ b'
  have h₂ : dithers s₂.clu = dithers s.clu := by
    refine dithers_each (fun d u => ?_) off s₁
    exact rfl
  have h₃ : dithers s₃.clu = dithers s₂.clu := dithers_each (fun d u => dithers_foundOn d u) found s₂
  have h₄ : dithers s₄.clu = dithers s₃.clu := by
    refine dithers_each (fun d u => ?_) cold s₃
    exact dithers_raise _ _ _ _
  have h₅ : dithers s₅.clu = dithers s₄.clu := by
    refine dithers_each (fun d u => ?_) go s₄
    split <;> simp
  exact (dithers_wavesDone _).trans (h₅.trans (h₄.trans (h₃.trans h₂)))

@[simp] theorem execWaveStart_keepsDithers (s : State) :
    KeepsDithers s (execWaveStart s) := by
  unfold execWaveStart
  split <;> simp

@[simp] theorem execWaveSettleExpiry_keepsDithers (d : DomIx) (s : State) :
    KeepsDithers s (execWaveSettleExpiry d s) := by
  unfold execWaveSettleExpiry
  repeat' split
  all_goals simp

@[simp] theorem execDomainOnTimeout_keepsDithers (d : DomIx) (s : State) :
    KeepsDithers s (execDomainOnTimeout d s) := by
  unfold execDomainOnTimeout
  repeat' split
  all_goals simp

@[simp] theorem dithers_revokeHalf (n h : Nat) (s : State) : dithers (s.revokeHalf n h).clu = dithers s.clu := by
  unfold State.revokeHalf
  dsimp only
  rw [dithers_modHalf, dithers_each]
  simp

@[simp] theorem dithers_startOff (d slot : Nat) (s : State) :
    dithers (State.startOff d slot s).clu = dithers s.clu := by
  unfold State.startOff
  split <;> simp

@[simp] theorem execCellsModeOff_keepsDithers (d : DomIx) (s : State) :
    KeepsDithers s (execCellsModeOff d s) := by
  unfold execCellsModeOff
  dsimp only
  repeat' split
  all_goals simp

/-! ### Machine/Vin -/

@[simp] theorem dithers_vinReset (s : State) : dithers s.vinReset.clu = dithers s.clu := by
  unfold State.vinReset
  dsimp only
  rw [dithers_noteParks, dithers_raise]
  exact dithers_parkAll s

@[simp] theorem dithers_vinDip (mv : Nat) (s : State) :
    dithers (State.vinDip mv s).clu = dithers s.clu := by simp [State.vinDip]

@[simp] theorem dithers_vinResume (s : State) :
    dithers (State.vinResume s).clu = dithers s.clu := by simp [State.vinResume]

@[simp] theorem execVinWarning_keepsDithers (mv : Nat) (s : State) :
    KeepsDithers s (execVinWarning mv s) := by simp [execVinWarning]

@[simp] theorem execVinRecovery_keepsDithers (mv : Nat) (s : State) :
    KeepsDithers s (execVinRecovery mv s) := by simp [execVinRecovery, -fire_clu]

@[simp] theorem execLongDip_keepsDithers (s : State) :
    KeepsDithers s (execLongDip s) := by
  unfold execLongDip
  split <;> simp

@[simp] theorem execVcutRestore_keepsDithers (s : State) :
    KeepsDithers s (execVcutRestore s) := by
  unfold execVcutRestore
  split <;> simp

@[simp] theorem execVinReset_keepsDithers (mv : Nat) (s : State) :
    KeepsDithers s (execVinReset mv s) := by simp [execVinReset]

/-! ### Machine/Nv -/

@[simp] theorem dithers_stageNv (kind : Nat) (fault : List Word64) (s : State) :
    dithers (State.stageNv kind fault s).clu = dithers s.clu := by simp [State.stageNv]

@[simp] theorem dithers_nvReadNow (slot : Nat) (s : State) :
    dithers (State.nvReadNow slot s).clu = dithers s.clu := by
  unfold State.nvReadNow
  split <;> simp

@[simp] theorem dithers_nvReads (s : State) :
    dithers (State.nvReads s).clu = dithers s.clu := by simp [State.nvReads]

@[simp] theorem dithers_spiWrite (r : NvRec) (s : State) :
    dithers (State.spiWrite r s).clu = dithers s.clu := by simp [State.spiWrite]

@[simp] theorem dithers_nvProgram (fail : Bool) (s : State) :
    dithers (State.nvProgram fail s).clu = dithers s.clu := by
  unfold State.nvProgram
  split <;> simp

@[simp] theorem execSectorErase_keepsDithers (s : State) :
    KeepsDithers s (execSectorErase s) := by
  unfold execSectorErase
  split
  · simp
  · split <;> simp

@[simp] theorem execSectorEraseDone_keepsDithers (s : State) :
    KeepsDithers s (execSectorEraseDone s) := by simp [execSectorEraseDone]

@[simp] theorem dithers_nvPosition (bytes : Nat) (erase : BitVec 8) (s : State) :
    dithers (State.nvPosition bytes erase s).clu = dithers s.clu := by simp [State.nvPosition]

/-! ### Machine/Images -/

@[simp] theorem dithers_storeReel (l : List Word64) (s : State) :
    dithers (State.storeReel l s).clu = dithers s.clu := by simp [State.storeReel]

/-! ### Machine/CluReset -/

@[simp] theorem dithers_forget (slot : Nat) (s : State) : dithers (s.forget slot).clu = dithers s.clu := by
  unfold State.forget
  extract_lets s₁ s₂ s₃ s₄ s₅
  have h₁ : dithers s₁.clu = dithers s.clu := by simp [s₁]
  have h₂ : dithers s₂.clu = dithers s₁.clu := by simp [s₂, -modDm_clu]
  have h₃ : dithers s₃.clu = dithers s₂.clu := by
    refine dithers_vmap ?_ s₂.clu
    exact fun _ _ => rfl
  have h₄ : dithers s₄.clu = dithers s₃.clu := dithers_endProbe slot s₃
  have h₅ : dithers s₅.clu = dithers s₄.clu := by
    unfold s₅
    split
    · split <;> simp
    · rfl
  exact (((h₅.trans h₄).trans h₃).trans h₂).trans h₁

theorem dithers_assertReset (n : Nat) (cmd : Option Nat) (s : State) :
    dithers (s.assertReset n cmd).clu = dithers s.clu := by
  refine dithers_modCl ?_ n s
  exact fun _ => rfl

@[simp] theorem dithers_resetClu (n : Nat) (cmd : Option Nat) (s : State) :
    dithers (s.resetClu n cmd).clu = dithers s.clu := by
  have htouched (u : State) : dithers (u.endTouched n).clu = dithers u.clu := by
    unfold State.endTouched
    refine dithers_each (fun q v => ?_) _ u
    split <;> simp
  rw [resetClu_eq]
  split
  · rfl
  split
  · refine dithers_modCl ?_ n s
    exact fun _ => rfl
  · rw [dithers_assertReset, dithers_revokeAll, htouched]

@[simp] theorem execClusterResetRelease_keepsDithers (n : CluIx) (s : State) :
    KeepsDithers s (execClusterResetRelease n s) := by
  unfold execClusterResetRelease
  split
  · exact rfl
  split
  · exact rfl
  extract_lets s₁ old s₂ s₃ s₄
  have h₂ : dithers s₂.clu = dithers s.clu := by
    refine (dithers_modCl ?_ n _ :).trans (dithers_advanceTo _ s)
    exact fun _ => rfl
  have h₃ : dithers s₃.clu = dithers s₂.clu := rfl
  have h₄ : dithers s₄.clu = dithers s₃.clu := (dithers_closeUnit _ _ _).trans (dithers_noteParks s₃ old)
  rw [keepsDithers_next, ← h₂, ← h₃, ← h₄]
  clear_value s₄
  split
  · exact rfl
  · exact dithers_modChan _ _ _

@[simp] theorem dithers_setBanks (n : Nat) (b : Bank) (s : State) :
    dithers (State.setBanks n b s).clu = dithers s.clu := by simp [State.setBanks]

@[simp] theorem dithers_takeover (n : Nat) (s : State) : dithers (s.takeover n).clu = dithers s.clu := by
  unfold State.takeover
  extract_lets s₁ s₂ s₃ old s₄
  have h₁ : dithers s₁.clu = dithers s.clu := by simp [s₁]
  have h₂ : dithers s₂.clu = dithers s₁.clu := by simp [s₂]
  have h₃ : dithers s₃.clu = dithers s₂.clu := by simp [s₃]
  rw [← h₁, ← h₂, ← h₃]
  split
  · rfl
  · unfold s₄
    simp

@[simp] theorem dithers_tryTakeover (n : Nat) (s : State) :
    dithers (State.tryTakeover n s).clu = dithers s.clu := by simp [State.tryTakeover]

@[simp] theorem dithers_reload (n : Nat) (s : State) :
    dithers (State.reload n s).clu = dithers s.clu := by
  unfold State.reload
  split <;> simp

@[simp] theorem dithers_rebankDone (n : Nat) (img : List Word64) (poison : Bool) (s : State) :
    dithers (State.rebankDone n img poison s).clu = dithers s.clu := by simp [State.rebankDone]

@[simp] theorem dithers_repredDone (n h : Nat) (img : List Word64) (poison : Bool) (s : State) :
    dithers (State.repredDone n h img poison s).clu = dithers s.clu := by simp [State.repredDone]

@[simp] theorem execQuietEnd_keepsDithers (n : CluIx) (s : State) :
    KeepsDithers s (execQuietEnd n s) := by
  unfold execQuietEnd
  split <;> simp

/-! ### Machine/Faults -/

@[simp] theorem dithers_formRecord (r : Raise) (rep : Nat) (s : State) :
    dithers (State.formRecord r rep s).clu = dithers s.clu := by simp [State.formRecord]

@[simp] theorem dithers_fireRaise (r : Raise) (s : State) :
    dithers (State.fireRaise r s).clu = dithers s.clu := by
  unfold State.fireRaise
  dsimp only
  split <;> simp

@[simp] theorem execFaultRecord_keepsDithers (s : State) :
    KeepsDithers s (execFaultRecord s) := by
  unfold execFaultRecord
  dsimp only
  repeat' split
  all_goals simp

@[simp] theorem execMergeExpiry_keepsDithers (code : Nat) (sc : Scope) (s : State) :
    KeepsDithers s (execMergeExpiry code sc s) := by
  unfold execMergeExpiry
  split <;> simp

@[simp] theorem execCorrectedFaultClose_keepsDithers (code : Nat) (sc : Scope) (s : State) :
    KeepsDithers s (execCorrectedFaultClose code sc s) := by
  unfold execCorrectedFaultClose
  split <;> simp

@[simp] theorem dithers_memCorrected (mem n : Nat) (s : State) :
    dithers (State.memCorrected mem n s).clu = dithers s.clu := by
  unfold State.memCorrected
  split <;> simp

@[simp] theorem dithers_retLost (s : State) :
    dithers (State.retLost s).clu = dithers s.clu := by
  unfold State.retLost
  split <;> simp

@[simp] theorem dithers_ledgerError (n addr master : Nat) (inj : Bool) (s : State) :
    dithers (State.ledgerError n addr master inj s).clu = dithers s.clu := by simp [State.ledgerError]

@[simp] theorem dithers_memBad (mem n addr master acc_ : Nat) (inj : Bool) (s : State) :
    dithers (State.memBad mem n addr master acc_ inj s).clu = dithers s.clu := by
  unfold State.memBad
  split <;> simp

@[simp] theorem dithers_memRead (mem n : Nat) (addr : Option Nat) (s : State) :
    dithers (State.memRead mem n addr s).clu = dithers s.clu := by
  unfold State.memRead
  dsimp only
  repeat' split
  all_goals simp

/-! ### Machine/Bringup -/

@[simp] theorem dithers_haltBoot (s : State) :
    dithers (State.haltBoot s).clu = dithers s.clu := by simp [State.haltBoot]

@[simp] theorem dithers_toStep (k : Nat) (s : State) :
    dithers (State.toStep k s).clu = dithers s.clu := by simp [State.toStep]

@[simp] theorem execBringupVinReady_keepsDithers (marchFail : List Nat) (s : State) :
    KeepsDithers s (execBringupVinReady marchFail s) := by simp [execBringupVinReady]

@[simp] theorem execNvReplay_keepsDithers (r : NvDiscovery) (s : State) :
    KeepsDithers s (execNvReplay r s) := by
  unfold execNvReplay
  split
  · simp
  · split <;> simp

@[simp] theorem dithers_distribute (p : SecStore) (s : State) :
    dithers (State.distribute p s).clu = dithers s.clu := by simp [State.distribute]

@[simp] theorem execSecurePageFill_keepsDithers (st : SecStore) (sramFail : Bool) (s : State) :
    KeepsDithers s (execSecurePageFill st sramFail s) := by
  unfold execSecurePageFill
  dsimp only
  repeat' split
  all_goals simp

@[simp] theorem dithers_avsStart (s : State) :
    dithers (State.avsStart s).clu = dithers s.clu := by simp [State.avsStart]

@[simp] theorem dithers_acceptSheet (cs : CallSheet) (s : State) :
    dithers (State.acceptSheet cs s).clu = dithers s.clu := by simp [State.acceptSheet, -modChan_clu]

@[simp] theorem execCallSheetAccepted_keepsDithers (s : State) :
    KeepsDithers s (execCallSheetAccepted s) := by
  unfold execCallSheetAccepted
  split
  · simp
  · split <;> simp

@[simp] theorem dithers_cluMarchFailed (n mem words : Nat) (s : State) :
    dithers (State.cluMarchFailed n mem words s).clu = dithers s.clu := by simp [State.cluMarchFailed]

@[simp] theorem execClusterWakeReport_keepsDithers (n : CluIx) (m : WakeMeas) (s : State) :
    KeepsDithers s (execClusterWakeReport n m s) := by
  unfold execClusterWakeReport
  split <;> simp

@[simp] theorem dithers_assembleDom (d : Nat) (s : State) :
    dithers (State.assembleDom d s).clu = dithers s.clu := by
  unfold State.assembleDom
  split <;> simp

@[simp] theorem execTreeAssembly_keepsDithers (s : State) :
    KeepsDithers s (execTreeAssembly s) := by simp [execTreeAssembly]

@[simp] theorem dithers_archFill (n i : Nat) (w : List Word64) (poison : Bool) (s : State) :
    dithers (State.archFill n i w poison s).clu = dithers s.clu := by simp [State.archFill]

@[simp] theorem execUpperDieClear_keepsDithers (slice : Fin 65) (s : State) :
    KeepsDithers s (execUpperDieClear slice s) := by simp [execUpperDieClear]

@[simp] theorem execReady_keepsDithers (s : State) :
    KeepsDithers s (execReady s) := by simp [execReady]

/-! ### Machine/Resets -/

@[simp] theorem execBlockReset_keepsDithers (s : State) :
    KeepsDithers s (execBlockReset s) := by
  unfold execBlockReset
  split
  · exact rfl
  · exact dithers_vmap (fun _ c => blockReset_m _ c) s.clu

@[simp] theorem execBlockResetRelease_keepsDithers (tripCool : Bool) (s : State) :
    KeepsDithers s (execBlockResetRelease tripCool s) := by simp [execBlockResetRelease]

@[simp] theorem dithers_wipePage (s : State) :
    dithers (State.wipePage s).clu = dithers s.clu := by simp [State.wipePage]

@[simp] theorem execTamper_keepsDithers (ns : Nat) (s : State) :
    KeepsDithers s (execTamper ns s) := by simp [execTamper]

/-! ### Machine/Access -/

@[simp] theorem dithers_violation (id kind : Nat) (s : State) :
    dithers (State.violation id kind s).clu = dithers s.clu := by simp [State.violation]

@[simp] theorem dithers_wakeReg (r : Reg) (s : State) :
    dithers (State.wakeReg r s).clu = dithers s.clu := by
  unfold State.wakeReg
  split
  · simp
  · split <;> simp

@[simp] theorem dithers_stall (row : Instr) (r : Reg) (s : State) :
    dithers (State.stall row r s).clu = dithers s.clu := by simp [State.stall]

@[simp] theorem dithers_regWrite {f : Reg → State → State} (h : ∀ r s, dithers (f r s).clu = dithers s.clu)
    (row : Instr)
    (id off : Nat) (s : State) : dithers (s.regWrite row id off f).clu = dithers s.clu := by
  unfold State.regWrite
  split
  · rfl
  split
  · rfl
  split
  · simp
  split
  · rfl
  split
  · rfl
  split
  · simp
  split
  · simp
  split <;> simp [h]

@[simp] theorem dithers_regReadDo {f : Reg → State → Nat × State} (h : ∀ r s, dithers (f r s).2.clu = dithers s.clu)
    (row : Instr)
    (id off : Nat) (s : State) : dithers (s.regReadDo row id off f).clu = dithers s.clu := by
  unfold State.regReadDo
  dsimp only
  split
  · rfl
  split
  · rfl
  split
  · simp
  split
  · simp
  split
  · simp
  split
  · simp
  split
  · simp
  split <;> simp [h]

/-! ### Machine/HostPort -/

@[simp] theorem dithers_ringOff (k : Nat) (s : State) :
    dithers (State.ringOff k s).clu = dithers s.clu := by simp [State.ringOff]

@[simp] theorem dithers_settleRings (s : State) :
    dithers (State.settleRings s).clu = dithers s.clu := by simp [State.settleRings]

@[simp] theorem dithers_settleReset (s : State) :
    dithers (State.settleReset s).clu = dithers s.clu := by simp [State.settleReset]

@[simp] theorem dithers_settleHost (s : State) :
    dithers (State.settleHost s).clu = dithers s.clu := by simp [State.settleHost]

@[simp] theorem dithers_dbRefuse (s : State) :
    dithers (State.dbRefuse s).clu = dithers s.clu := by simp [State.dbRefuse]

@[simp] theorem execDoorbell_keepsDithers (off : BitVec 12) (data : Word64) (be : BitVec 8) (s : State) :
    KeepsDithers s (execDoorbell off data be s) := by simp [execDoorbell, -wakeGaf_clu]

@[simp] theorem execDescriptorFetch_keepsDithers (s : State) :
    KeepsDithers s (execDescriptorFetch s) := by
  unfold execDescriptorFetch
  split
  · simp
  · split <;> simp

@[simp] theorem dithers_noSlot (f : Fetched) (st : Status) (s : State) :
    dithers (State.noSlot f st s).clu = dithers s.clu := by simp [State.noSlot]

@[simp] theorem execDescriptorDecode_keepsDithers (s : State) :
    KeepsDithers s (execDescriptorDecode s) := by
  unfold execDescriptorDecode
  split
  · simp
  · split <;> simp

@[simp] theorem dithers_outOfScope (slot kind : Nat) (c : Cmd) (s : State) :
    dithers (State.outOfScope slot kind c s).clu = dithers s.clu := by simp [State.outOfScope]

@[simp] theorem dithers_opRow {go : Cmd → State → State} (h : ∀ c s, dithers (go c s).clu = dithers s.clu)
    (slot opc : Nat)
    (limits : Cmd → Bool) (check : Cmd → State → Option (Status × Nat)) (s : State) :
    dithers (s.opRow slot opc limits check go).clu = dithers s.clu := by
  unfold State.opRow
  split
  · rfl
  split
  · rfl
  split
  · dsimp only
    split
    · simp
    split
    · simp
    split <;> simp
  · simp [h]
  · rfl

@[simp] theorem execCommandDispatch_keepsDithers (slot : Slot) (s : State) :
    KeepsDithers s (execCommandDispatch slot s) := by
  unfold execCommandDispatch
  split <;> simp

@[simp] theorem execCompletionRecord_keepsDithers (q : Fin 16) (s : State) :
    KeepsDithers s (execCompletionRecord q s) := by
  unfold execCompletionRecord
  dsimp only
  split
  · simp
  · split <;> simp

@[simp] theorem execEventRecordWrite_keepsDithers (j : Fin 4) (s : State) :
    KeepsDithers s (execEventRecordWrite j s) := by
  unfold execEventRecordWrite
  split <;> simp

@[simp] theorem dithers_ackRing (k : Nat) (s : State) :
    dithers (State.ackRing k s).clu = dithers s.clu := by simp [State.ackRing]

@[simp] theorem dithers_freeSlot (slot : Nat) (s : State) :
    dithers (State.freeSlot slot s).clu = dithers s.clu := by simp [State.freeSlot]

@[simp] theorem dithers_writeDone (use : WrUse) (s : State) :
    dithers (State.writeDone use s).clu = dithers s.clu := by
  unfold State.writeDone
  repeat' split
  all_goals simp

@[simp] theorem execWriteAcknowledge_keepsDithers (pid : PortId) (err : Bool) (s : State) :
    KeepsDithers s (execWriteAcknowledge pid err s) := by
  unfold execWriteAcknowledge
  repeat' split
  all_goals simp

@[simp] theorem execWriteReissue_keepsDithers (pid : PortId) (s : State) :
    KeepsDithers s (execWriteReissue pid s) := by
  unfold execWriteReissue
  split
  · simp
  · split <;> simp

@[simp] theorem dithers_ringArm (k : Nat) (s : State) :
    dithers (State.ringArm k s).clu = dithers s.clu := by simp [State.ringArm]

@[simp] theorem dithers_ringDown (k : Nat) (s : State) :
    dithers (State.ringDown k s).clu = dithers s.clu := by
  unfold State.ringDown
  dsimp only
  repeat' split
  all_goals simp

@[simp] theorem dithers_ringsArm (lo n v : Nat) (s : State) :
    dithers (State.ringsArm lo n v s).clu = dithers s.clu := by simp [State.ringsArm]

@[simp] theorem dithers_ringsDown (lo n v : Nat) (s : State) :
    dithers (State.ringsDown lo n v s).clu = dithers s.clu := by simp [State.ringsDown]

@[simp] theorem execRingEnable_keepsDithers (id : AccId) (v : Word32) (be : BitVec 4) (s : State) :
    KeepsDithers s (execRingEnable id v be s) := by simp [execRingEnable]

@[simp] theorem execRingDisable_keepsDithers (id : AccId) (v : Word32) (be : BitVec 4) (s : State) :
    KeepsDithers s (execRingDisable id v be s) := by simp [execRingDisable]

@[simp] theorem execEventRingEnable_keepsDithers (id : AccId) (v : Word32) (be : BitVec 4) (s : State) :
    KeepsDithers s (execEventRingEnable id v be s) := by simp [execEventRingEnable]

@[simp] theorem execEventRingDisable_keepsDithers (id : AccId) (v : Word32) (be : BitVec 4) (s : State) :
    KeepsDithers s (execEventRingDisable id v be s) := by simp [execEventRingDisable]

@[simp] theorem dithers_ringEntered (k : Nat) (w : List Word64) (poison : Bool) (s : State) :
    dithers (State.ringEntered k w poison s).clu = dithers s.clu := by
  unfold State.ringEntered
  split <;> simp

/-! ### Machine/CmdUnits -/

@[simp] theorem execNop_keepsDithers (slot : Slot) (s : State) :
    KeepsDithers s (execNop slot s) := by simp [execNop]

@[simp] theorem execFence_keepsDithers (slot : Slot) (s : State) :
    KeepsDithers s (execFence slot s) := by simp [execFence]

@[simp] theorem dithers_wakeDom (d : Nat) (s : State) :
    dithers (State.wakeDom d s).clu = dithers s.clu := by simp [State.wakeDom]

@[simp] theorem dithers_perDomain {f : Nat → State → State} (h : ∀ d s, dithers (f d s).clu = dithers s.clu)
    (slot : Nat)
    (ds : List Nat) (s : State) : dithers (s.perDomain slot ds f).clu = dithers s.clu := by
  simp [State.perDomain, h]

@[simp] theorem dithers_setPoint (slot code rate : Nat) (c : Cmd) (s : State) :
    dithers (s.setPoint slot code rate c).clu = dithers s.clu :=
  dithers_perDomain (fun d u => dithers_placeDom d _ u) slot _ s

@[simp] theorem execSetTarget_keepsDithers (slot : Slot) (s : State) :
    KeepsDithers s (execSetTarget slot s) := by simp [execSetTarget]

@[simp] theorem execRamp_keepsDithers (slot : Slot) (s : State) :
    KeepsDithers s (execRamp slot s) := by simp [execRamp]

@[simp] theorem execDomainOn_keepsDithers (slot : Slot) (s : State) :
    KeepsDithers s (execDomainOn slot s) := by
  unfold execDomainOn
  refine dithers_opRow (fun c u => ?_) _ _ _ _ s
  split <;> simp

@[simp] theorem execDomainOff_keepsDithers (slot : Slot) (s : State) :
    KeepsDithers s (execDomainOff slot s) := by
  unfold execDomainOff
  refine dithers_opRow (fun c u => ?_) _ _ _ _ s
  split <;> simp

@[simp] theorem dithers_loadBegin (n : Nat) (s : State) :
    dithers (State.loadBegin n s).clu = dithers s.clu := by simp [State.loadBegin]

@[simp] theorem dithers_loadBank (slot : Nat) (c : Cmd) (s : State) :
    dithers (State.loadBank slot c s).clu = dithers s.clu := by
  unfold State.loadBank
  dsimp only
  repeat' split
  all_goals simp

@[simp] theorem execLoadBank_keepsDithers (slot : Slot) (s : State) :
    KeepsDithers s (execLoadBank slot s) := by simp [execLoadBank]

@[simp] theorem execSwapBank_keepsDithers (slot : Slot) (s : State) :
    KeepsDithers s (execSwapBank slot s) := by
  unfold execSwapBank
  refine dithers_opRow (fun c u => ?_) _ _ _ _ s
  dsimp only
  split <;> simp

@[simp] theorem execCreditConfig_keepsDithers (slot : Slot) (s : State) :
    KeepsDithers s (execCreditConfig slot s) := by simp [execCreditConfig, -modDm_clu]

@[simp] theorem execCapSet_keepsDithers (slot : Slot) (s : State) :
    KeepsDithers s (execCapSet slot s) := by
  unfold execCapSet
  refine dithers_opRow (fun c u => ?_) _ _ _ _ s
  dsimp only
  split
  · refine (dithers_each (fun d v => ?_) _ _).trans (dithers_modCmd _ _ u)
    exact dithers_modDm _ _ _
  · split <;> simp [-modCmd_clu]

@[simp] theorem dithers_stopBanks (n slot : Nat) (s : State) :
    dithers (State.stopBanks n slot s).clu = dithers s.clu := by simp [State.stopBanks]

@[simp] theorem dithers_disableCell (n k : Nat) (s : State) :
    dithers (State.disableCell n k s).clu = dithers s.clu := by simp [State.disableCell]

@[simp] theorem dithers_disableDom (d slot : Nat) (s : State) :
    dithers (State.disableDom d slot s).clu = dithers s.clu := by
  unfold State.disableDom
  repeat' split
  all_goals simp

@[simp] theorem execUnitDisable_keepsDithers (slot : Slot) (s : State) :
    KeepsDithers s (execUnitDisable slot s) := by simp [execUnitDisable]

@[simp] theorem dithers_enableDom (d : Nat) (s : State) :
    dithers (State.enableDom d s).clu = dithers s.clu := by simp [State.enableDom]

@[simp] theorem dithers_enableCell (n k : Nat) (s : State) :
    dithers (State.enableCell n k s).clu = dithers s.clu := by simp [State.enableCell]

@[simp] theorem execUnitEnable_keepsDithers (slot : Slot) (s : State) :
    KeepsDithers s (execUnitEnable slot s) := by simp [execUnitEnable, -modCmd_clu]

@[simp] theorem execTelemetryRead_keepsDithers (slot : Slot) (s : State) :
    KeepsDithers s (execTelemetryRead slot s) := by simp [execTelemetryRead, -modCmd_clu]

/-! ### Machine/CmdPlan -/

@[simp] theorem dithers_restartCtx (c : Nat) (s : State) :
    dithers (State.restartCtx c s).clu = dithers s.clu := by simp [State.restartCtx]

@[simp] theorem execContextOpen_keepsDithers (slot : Slot) (s : State) :
    KeepsDithers s (execContextOpen slot s) := by simp [execContextOpen]

@[simp] theorem dithers_openCtx (slot : Nat) (c : Cmd) (r : CtxRec) (imgs : List (List Word64)) (s : State) :
    dithers (State.openCtx slot c r imgs s).clu = dithers s.clu := by simp [State.openCtx]

@[simp] theorem dithers_nextPred (slot : Nat) (s : State) :
    dithers (State.nextPred slot s).clu = dithers s.clu := by
  unfold State.nextPred
  dsimp only
  split
  · simp
  · split <;> simp

@[simp] theorem dithers_ctxRead (slot : Nat) (w : List Word64) (poison : Bool) (s : State) :
    dithers (State.ctxRead slot w poison s).clu = dithers s.clu := by
  unfold State.ctxRead
  split <;> simp

@[simp] theorem dithers_predRead (slot : Nat) (w : List Word64) (poison : Bool) (s : State) :
    dithers (State.predRead slot w poison s).clu = dithers s.clu := by simp [State.predRead]

@[simp] theorem dithers_dropLoads (slot c : Nat) (s : State) :
    dithers (State.dropLoads slot c s).clu = dithers s.clu := by simp [State.dropLoads]

@[simp] theorem execContextClose_keepsDithers (slot : Slot) (s : State) :
    KeepsDithers s (execContextClose slot s) := by simp [execContextClose, -modCx_clu]

@[simp] theorem execReelLoad_keepsDithers (slot : Slot) (s : State) :
    KeepsDithers s (execReelLoad slot s) := by simp [execReelLoad, -modCx_clu]

@[simp] theorem dithers_loadFailed (slot c k : Nat) (st : Status) (s : State) :
    dithers (State.loadFailed slot c k st s).clu = dithers s.clu := by simp [State.loadFailed]

@[simp] theorem dithers_reelRead (slot : Nat) (w : List Word64) (poison : Bool) (s : State) :
    dithers (State.reelRead slot w poison s).clu = dithers s.clu := by
  unfold State.reelRead
  dsimp only
  repeat' split
  all_goals simp

@[simp] theorem execPlanArm_keepsDithers (slot : Slot) (s : State) :
    KeepsDithers s (execPlanArm slot s) := by
  unfold execPlanArm
  refine dithers_opRow (fun c u => ?_) _ _ _ _ s
  dsimp only
  split <;> simp

@[simp] theorem execPlanDisarm_keepsDithers (slot : Slot) (s : State) :
    KeepsDithers s (execPlanDisarm slot s) := by simp [execPlanDisarm, -modCx_clu]

@[simp] theorem execSlateJoin_keepsDithers (slot : Slot) (s : State) :
    KeepsDithers s (execSlateJoin slot s) := by simp [execSlateJoin]

@[simp] theorem execSlateLeave_keepsDithers (slot : Slot) (s : State) :
    KeepsDithers s (execSlateLeave slot s) := by simp [execSlateLeave]

/-! ### Machine/CmdMisc -/

@[simp] theorem execCallSheetLoad_keepsDithers (slot : Slot) (s : State) :
    KeepsDithers s (execCallSheetLoad slot s) := by simp [execCallSheetLoad]

@[simp] theorem dithers_cshFailed (slot k : Nat) (s : State) :
    dithers (State.cshFailed slot k s).clu = dithers s.clu := by simp [State.cshFailed]

@[simp] theorem dithers_cshNext (slot : Nat) (s : State) :
    dithers (State.cshNext slot s).clu = dithers s.clu := by
  unfold State.cshNext
  dsimp only
  repeat' split
  all_goals simp

@[simp] theorem dithers_cshRead (slot : Nat) (w : List Word64) (poison : Bool) (s : State) :
    dithers (State.cshRead slot w poison s).clu = dithers s.clu := by
  unfold State.cshRead
  split <;> simp

@[simp] theorem dithers_cshBankRead (slot : Nat) (w : List Word64) (poison : Bool) (s : State) :
    dithers (State.cshBankRead slot w poison s).clu = dithers s.clu := by simp [State.cshBankRead]

@[simp] theorem execMarginProbe_keepsDithers (slot : Slot) (s : State) :
    KeepsDithers s (execMarginProbe slot s) := by
  unfold execMarginProbe
  refine dithers_opRow (fun c u => ?_) _ _ _ _ s
  dsimp only
  repeat' split
  all_goals simp

@[simp] theorem execSelfTest_keepsDithers (slot : Slot) (s : State) :
    KeepsDithers s (execSelfTest slot s) := by
  unfold execSelfTest
  refine dithers_opRow (fun c u => ?_) _ _ _ _ s
  split <;> simp

@[simp] theorem dithers_selfSample (mism : BitVec 16) (seed i nops : Nat) (s : State) :
    dithers (State.selfSample mism seed i nops s).2.clu = dithers s.clu := by
  unfold State.selfSample
  refine dithers_foldl_snd (fun acc k => ?_) _ _
  split <;> rfl

@[simp] theorem dithers_selfPairs (fuel : Nat) (s : State) : dithers (State.selfPairs fuel s).clu = dithers s.clu := by
  induction fuel generalizing s with
  | zero => rfl
  | succ fuel ih =>
    unfold State.selfPairs
    split
    · rfl
    split
    · simp [ih]
    · rfl

@[simp] theorem dithers_selfStep (n : Nat) (mism : BitVec 16) (s : State) :
    dithers (State.selfStep n mism s).clu = dithers s.clu := by
  unfold State.selfStep
  split <;> simp

@[simp] theorem dithers_marchZero (mem n : Nat) (s : State) :
    dithers (State.marchZero mem n s).clu = dithers s.clu := by
  unfold State.marchZero
  split <;> simp

@[simp] theorem execMarch_keepsDithers (slot : Slot) (s : State) :
    KeepsDithers s (execMarch slot s) := by simp [execMarch]

@[simp] theorem dithers_marchSlots (failing : Nat) (s : State) :
    dithers (State.marchSlots failing s).clu = dithers s.clu := by simp [State.marchSlots]

@[simp] theorem dithers_marchBad (mem n failing : Nat) (s : State) :
    dithers (State.marchBad mem n failing s).clu = dithers s.clu := by simp [State.marchBad]

@[simp] theorem dithers_pageAgain (mem : Nat) (keep : Bool) (s : State) :
    dithers (State.pageAgain mem keep s).clu = dithers s.clu := by
  unfold State.pageAgain
  split
  · simp
  · split <;> simp

@[simp] theorem execMarchComplete_keepsDithers (slot : Slot) (failing : Nat) (s : State) :
    KeepsDithers s (execMarchComplete slot failing s) := by
  unfold execMarchComplete
  split <;> simp

@[simp] theorem execNvRead_keepsDithers (slot : Slot) (s : State) :
    KeepsDithers s (execNvRead slot s) := by simp [execNvRead, -modCmd_clu]

@[simp] theorem execStampConfig_keepsDithers (slot : Slot) (s : State) :
    KeepsDithers s (execStampConfig slot s) := by simp [execStampConfig]

@[simp] theorem dithers_stampBoundary (s : State) :
    dithers (State.stampBoundary s).clu = dithers s.clu := by
  unfold State.stampBoundary
  refine dithers_each (fun x u => ?_) _ _
  split <;> simp

/-! ### Machine/Reads -/

@[simp] theorem dithers_bootBanks (s : State) :
    dithers (State.bootBanks s).clu = dithers s.clu := by
  unfold State.bootBanks
  repeat' split
  all_goals simp

@[simp] theorem dithers_bootCsh (w : List Word64) (poison : Bool) (s : State) :
    dithers (State.bootCsh w poison s).clu = dithers s.clu := by
  unfold State.bootCsh
  split <;> simp

@[simp] theorem dithers_bootBank (w : List Word64) (poison : Bool) (s : State) :
    dithers (State.bootBank w poison s).clu = dithers s.clu := by simp [State.bootBank]

@[simp] theorem dithers_descRead (k : Nat) (idx : BitVec 32) (n age : Nat) (w : List Word64) (bads : List Nat)
    (s : State) :
    dithers (State.descRead k idx n age w bads s).clu = dithers s.clu := by simp [State.descRead]

@[simp] theorem dithers_bankRead (slot : Nat) (w : List Word64) (poison : Bool) (s : State) :
    dithers (State.bankRead slot w poison s).clu = dithers s.clu := by
  unfold State.bankRead
  split <;> simp

@[simp] theorem dithers_deliver (r : RdReq) (s : State) :
    dithers (State.deliver r s).clu = dithers s.clu := by
  unfold State.deliver
  split <;> simp

@[simp] theorem execReadData_keepsDithers (pid : PortId) (beats : List Beat) (bad : Bool) (s : State) :
    KeepsDithers s (execReadData pid beats bad s) := by
  unfold execReadData
  split
  · simp
  · split <;> simp

@[simp] theorem dithers_cshGo (v : Nat) (s : State) :
    dithers (State.cshGo v s).clu = dithers s.clu := by simp [State.cshGo]

@[simp] theorem execCallSheetGo_keepsDithers (id : AccId) (v : Word32) (be : BitVec 4) (s : State) :
    KeepsDithers s (execCallSheetGo id v be s) := by simp [execCallSheetGo]

/-! ### Machine/HostReset -/

@[simp] theorem dithers_abortReset (slot : Nat) (s : State) :
    dithers (State.abortReset slot s).clu = dithers s.clu := by
  unfold State.abortReset
  split <;> simp

@[simp] theorem dithers_resetCtx (c : Nat) (s : State) :
    dithers (State.resetCtx c s).clu = dithers s.clu := by simp [State.resetCtx]

@[simp] theorem dithers_resetRamp (d : Nat) (s : State) :
    dithers (State.resetRamp d s).clu = dithers s.clu := by
  unfold State.resetRamp
  repeat' split
  all_goals simp

@[simp] theorem execHostFunctionalReset_keepsDithers (s : State) :
    KeepsDithers s (execHostFunctionalReset s) := by simp [execHostFunctionalReset, -irqDo_clu]

@[simp] theorem execHostResetRelease_keepsDithers (s : State) :
    KeepsDithers s (execHostResetRelease s) := by simp [execHostResetRelease]

/-! ### Machine/IrqRows -/

@[simp] theorem dithers_vecTake (p : Nat) (fast : Bool) (s : State) :
    dithers (State.vecTake p fast s).2.clu = dithers s.clu := by
  unfold State.vecTake
  split <;> simp

@[simp] theorem execIrqVecRead_keepsDithers (id : AccId) (p : ProcIx) (s : State) :
    KeepsDithers s (execIrqVecRead id p s) := by simp [execIrqVecRead]

@[simp] theorem execIrqFvecRead_keepsDithers (id : AccId) (p : ProcIx) (s : State) :
    KeepsDithers s (execIrqFvecRead id p s) := by simp [execIrqFvecRead]

@[simp] theorem execIrqAck_keepsDithers (id : AccId) (p : ProcIx) (v : Word32) (be : BitVec 4) (s : State) :
    KeepsDithers s (execIrqAck id p v be s) := by simp [execIrqAck, -irqDo_clu]

@[simp] theorem execIrqFack_keepsDithers (id : AccId) (p : ProcIx) (v : Word32) (be : BitVec 4) (s : State) :
    KeepsDithers s (execIrqFack id p v be s) := by simp [execIrqFack, -irqDo_clu]

@[simp] theorem execIrqPendSet_keepsDithers (id : AccId) (w : Fin 8) (v : Word32) (be : BitVec 4) (s : State) :
    KeepsDithers s (execIrqPendSet id w v be s) := by simp [execIrqPendSet, -fire_clu]

@[simp] theorem execIrqPendClr_keepsDithers (id : AccId) (w : Fin 8) (v : Word32) (be : BitVec 4) (s : State) :
    KeepsDithers s (execIrqPendClr id w v be s) := by simp [execIrqPendClr, -irqDo_clu]

@[simp] theorem execIrqMaskSet_keepsDithers (id : AccId) (w : Fin 8) (v : Word32) (be : BitVec 4) (s : State) :
    KeepsDithers s (execIrqMaskSet id w v be s) := by simp [execIrqMaskSet, -irqDo_clu]

@[simp] theorem execIrqMaskClr_keepsDithers (id : AccId) (w : Fin 8) (v : Word32) (be : BitVec 4) (s : State) :
    KeepsDithers s (execIrqMaskClr id w v be s) := by simp [execIrqMaskClr, -irqDo_clu]

@[simp] theorem execModerationTimer_keepsDithers (p : ProcIx) (s : State) :
    KeepsDithers s (execModerationTimer p s) := by
  unfold execModerationTimer
  dsimp only
  split <;> simp

@[simp] theorem execProcessorIdle_keepsDithers (p : ProcIx) (pri : BitVec 5) (s : State) :
    KeepsDithers s (execProcessorIdle p pri s) := by simp [execProcessorIdle, -irqDo_clu]

/-! ### Machine/RegValues -/

@[simp] theorem dithers_pairRead (id key v : Nat) (hi : Bool) (s : State) :
    dithers (State.pairRead id key v hi s).2.clu = dithers s.clu := by
  unfold State.pairRead
  split <;> simp

@[simp] theorem dithers_regRead (id : Nat) (r : Reg) (s : State) :
    dithers (State.regRead id r s).2.clu = dithers s.clu := by
  unfold State.regRead
  split <;> simp

@[simp] theorem execPairLoRead_keepsDithers (id : AccId) (off : BitVec 20) (s : State) :
    KeepsDithers s (execPairLoRead id off s) := by simp [execPairLoRead]

@[simp] theorem execQueueHeadRead_keepsDithers (id : AccId) (n : CluIx) (s : State) :
    KeepsDithers s (execQueueHeadRead id n s) := by simp [execQueueHeadRead]

@[simp] theorem execLegacyDataRead_keepsDithers (id : AccId) (s : State) :
    KeepsDithers s (execLegacyDataRead id s) := by simp [execLegacyDataRead]

/-! ### Machine/RegWrites -/

@[simp] theorem dithers_injectActs (code unit : Nat) (s : State) :
    dithers (State.injectActs code unit s).clu = dithers s.clu := by
  unfold State.injectActs
  repeat' split
  all_goals simp

@[simp] theorem dithers_injectRaise (code unit cls : Nat) (s : State) :
    dithers (s.injectRaise code unit cls).clu = dithers s.clu := by
  unfold State.injectRaise
  split
  · rfl
  extract_lets c s₁ s₂
  split
  · exact dithers_injected (fun u => dithers_tripNow _ u) true s
  have h₁ : dithers s₁.clu = dithers s.clu := by
    unfold s₁
    split
    · split
      · simp
      · rfl
    · rfl
  have h₂ : dithers s₂.clu = dithers s₁.clu := by simp [s₂]
  dsimp only
  rw [dithers_collect, ← h₁, ← h₂]
  split <;> simp

@[simp] theorem dithers_injectCmp (unit which : Nat) (s : State) :
    dithers (State.injectCmp unit which s).clu = dithers s.clu := by
  unfold State.injectCmp
  split <;> simp

@[simp] theorem dithers_injectNow (s : State) :
    dithers (State.injectNow s).clu = dithers s.clu := by simp [State.injectNow]

@[simp] theorem dithers_wInj (v : Word32) (be : BitVec 4) (s : State) :
    dithers (State.wInj v be s).clu = dithers s.clu := by simp [State.wInj]

@[simp] theorem dithers_wLcReq (id : Nat) (v : Word32) (be : BitVec 4) (s : State) :
    dithers (State.wLcReq id v be s).clu = dithers s.clu := by simp [State.wLcReq]

@[simp] theorem dithers_wEpoch (id : Nat) (hi : Bool) (v : Word32) (be : BitVec 4) (s : State) :
    dithers (State.wEpoch id hi v be s).clu = dithers s.clu := by simp [State.wEpoch]

@[simp] theorem dithers_wCfg (n : Nat) (f : CluCfg → CluCfg) (s : State) :
    dithers (State.wCfg n f s).clu = dithers s.clu := by simp [State.wCfg]

@[simp] theorem dithers_wUrg (n : Nat) (v : Word32) (be : BitVec 4) (s : State) :
    dithers (State.wUrg n v be s).clu = dithers s.clu := by simp [State.wUrg]

@[simp] theorem dithers_wSltStat (x : Nat) (s : State) :
    dithers (State.wSltStat x s).clu = dithers s.clu := by simp [State.wSltStat]

@[simp] theorem dithers_gafClear (r : Reg) (x : Nat) (s : State) : dithers (r.gafClear x s).clu = dithers s.clu := by
  unfold Reg.gafClear
  dsimp only
  split <;> simp [-modCx_clu, -modChan_clu, -irqDo_clu, -fire_clu]

@[simp] theorem cluClear_m (r : Reg) (x : Nat) (c : Cluster) : (r.cluClear x c).carrier.m = c.carrier.m := by
  unfold Reg.cluClear
  dsimp only
  split
  · rfl
  · rfl
  · split <;> rfl
  · split <;> rfl
  · split <;> rfl
  · split <;> rfl
  · rfl
  · split <;> rfl
  · split <;> rfl
  · split <;> rfl
  · rfl

@[simp] theorem dithers_regStore (id : Nat) (v : Word32) (be : BitVec 4) (r : Reg) (s : State) :
    dithers (s.regStore id v be r).clu = dithers s.clu := by
  unfold State.regStore
  extract_lets m x
  split
  case h_23 =>
    split
    · exact dithers_modCl (fun c => cluClear_m r x c) _ s
    · exact dithers_gafClear r x s
  all_goals simp [-irqDo_clu]

@[simp] theorem execRegisterWrite_keepsDithers (id : AccId) (off : BitVec 20) (v : Word32) (be : BitVec 4) (s : State) :
    KeepsDithers s (execRegisterWrite id off v be s) := by simp [execRegisterWrite]

@[simp] theorem execEpochWrite_keepsDithers (id : AccId) (v : Word32) (be : BitVec 4) (s : State) :
    KeepsDithers s (execEpochWrite id v be s) := by simp [execEpochWrite]

@[simp] theorem execBootLock_keepsDithers (id : AccId) (v : Word32) (be : BitVec 4) (s : State) :
    KeepsDithers s (execBootLock id v be s) := by simp [execBootLock]

@[simp] theorem execLcRequest_keepsDithers (id : AccId) (v : Word32) (be : BitVec 4) (s : State) :
    KeepsDithers s (execLcRequest id v be s) := by simp [execLcRequest]

@[simp] theorem execFirstErrorClear_keepsDithers (id : AccId) (v : Word32) (be : BitVec 4) (s : State) :
    KeepsDithers s (execFirstErrorClear id v be s) := by simp [execFirstErrorClear]

@[simp] theorem execFaultInjection_keepsDithers (id : AccId) (v : Word32) (be : BitVec 4) (s : State) :
    KeepsDithers s (execFaultInjection id v be s) := by simp [execFaultInjection]

@[simp] theorem execSingleShot_keepsDithers (id : AccId) (n : CluIx) (v : Word32) (be : BitVec 4) (s : State) :
    KeepsDithers s (execSingleShot id n v be s) := by simp [execSingleShot]

@[simp] theorem execLegacySelectWrite_keepsDithers (id : AccId) (v : Word32) (be : BitVec 4) (s : State) :
    KeepsDithers s (execLegacySelectWrite id v be s) := by simp [execLegacySelectWrite]

/-! ### Machine/Sleep -/

@[simp] theorem dithers_watchIdle (n : Nat) (s : State) :
    dithers (State.watchIdle n s).clu = dithers s.clu := by simp [State.watchIdle]

@[simp] theorem dithers_watchGaf (s : State) :
    dithers (State.watchGaf s).clu = dithers s.clu := by simp [State.watchGaf]

@[simp] theorem dithers_sleepClu (n : Nat) (s : State) :
    dithers (State.sleepClu n s).clu = dithers s.clu := by
  unfold State.sleepClu
  simp

@[simp] theorem execClusterSleep_keepsDithers (n : CluIx) (s : State) :
    KeepsDithers s (execClusterSleep n s) := by
  unfold execClusterSleep
  split <;> simp

@[simp] theorem execGafferSleep_keepsDithers (s : State) :
    KeepsDithers s (execGafferSleep s) := by
  unfold execGafferSleep
  split <;> simp

@[simp] theorem execWake_keepsDithers (x : SleepDom) (s : State) :
    KeepsDithers s (execWake x s) := by
  unfold execWake
  split <;> simp

@[simp] theorem dithers_serveAcc (i : Instr) (s : State) : dithers (s.serveAcc i).clu = dithers s.clu := by
  unfold State.serveAcc
  extract_lets o
  have ho : KeepsDithers s o := by
    unfold o
    split <;> simp
  clear_value o
  cases o with
  | next t => exact ho
  | fault => rfl
  | refused => rfl

@[simp] theorem dithers_serveStalled (s : State) :
    dithers (State.serveStalled s).clu = dithers s.clu := by simp [State.serveStalled]

@[simp] theorem dithers_cluRuns (n : Nat) (s : State) :
    dithers (State.cluRuns n s).clu = dithers s.clu := by simp [State.cluRuns]

@[simp] theorem dithers_gafRuns (s : State) :
    dithers (State.gafRuns s).clu = dithers s.clu := by simp [State.gafRuns]

@[simp] theorem execClockRunning_keepsDithers (x : SleepDom) (s : State) :
    KeepsDithers s (execClockRunning x s) := by
  unfold execClockRunning
  split <;> simp

@[simp] theorem execWakeFailure_keepsDithers (n : CluIx) (s : State) :
    KeepsDithers s (execWakeFailure n s) := by simp [execWakeFailure]

/-! ### Machine/Sample -/

@[simp] theorem dithers_atBoundary (s : State) :
    dithers (State.atBoundary s).clu = dithers s.clu := by simp [State.atBoundary]

@[simp] theorem dithers_busOff (n : Nat) (s : State) :
    dithers (State.busOff n s).clu = dithers s.clu := by simp [State.busOff]

@[simp] theorem dithers_cfgIn (n : Nat) (s : State) :
    dithers (State.cfgIn n s).clu = dithers s.clu := by simp [State.cfgIn]

@[simp] theorem dithers_sampleStep (n : Nat) (mism : BitVec 16) (s : State) :
    dithers (State.sampleStep n mism s).clu = dithers s.clu := by simp [State.sampleStep]

@[simp] theorem dithers_sendDue (s : State) : dithers s.sendDue.clu = dithers s.clu := by
  unfold State.sendDue
  split
  · rfl
  extract_lets t
  have ht : dithers t.clu = dithers s.clu := dithers_busSent s
  split
  · exact ht
  rw [dithers_watchGaf, dithers_memRead]
  refine (dithers_each (fun d u => ?_) _ t).trans ht
  split
  · rfl
  · split <;> simp

@[simp] theorem execShareBusBroadcast_keepsDithers (s : State) :
    KeepsDithers s (execShareBusBroadcast s) := by simp [execShareBusBroadcast]

@[simp] theorem dithers_recordIn (n : Nat) (seq : BitVec 8) (s : State) :
    dithers (State.recordIn n seq s).clu = dithers s.clu := by simp [State.recordIn]

@[simp] theorem execNvProgram_keepsDithers (fail : Bool) (s : State) :
    KeepsDithers s (execNvProgram fail s) := by simp [execNvProgram]

/-! ### Machine/LedgerRows -/

@[simp] theorem dithers_ledgerDo (c : Instr) (s : State) :
    dithers (State.ledgerDo c s).clu = dithers s.clu := by
  unfold State.ledgerDo
  split <;> simp

@[simp] theorem dithers_ledgerEvent (c : Instr) (s : State) :
    dithers (State.ledgerEvent c s).clu = dithers s.clu := by
  unfold State.ledgerEvent
  dsimp only
  repeat' split
  all_goals simp

@[simp] theorem execControlSample_keepsDithers (n : CluIx) (mism : BitVec 16) (s : State) :
    KeepsDithers s (execControlSample n mism s) := by simp [execControlSample]

@[simp] theorem execReturnW_keepsDithers (n : CluIx) (w : Word64) (s : State) :
    KeepsDithers s (execReturnW n w s) := by simp [execReturnW]

@[simp] theorem execGive_keepsDithers (w : Word64) (s : State) :
    KeepsDithers s (execGive w s) := by simp [execGive]

@[simp] theorem execCall_keepsDithers (w : Word64) (s : State) :
    KeepsDithers s (execCall w s) := by simp [execCall]

@[simp] theorem execRecall_keepsDithers (w : Word64) (s : State) :
    KeepsDithers s (execRecall w s) := by simp [execRecall]

@[simp] theorem execShareBusRecord_keepsDithers (n : CluIx) (seq : BitVec 8) (s : State) :
    KeepsDithers s (execShareBusRecord n seq s) := by simp [execShareBusRecord]

@[simp] theorem execPreparationStart_keepsDithers (n : CluIx) (h : HalfIx) (s : State) :
    KeepsDithers s (execPreparationStart n h s) := by simp [execPreparationStart]

@[simp] theorem execStepWinExpiry_keepsDithers (n : CluIx) (h : HalfIx) (s : State) :
    KeepsDithers s (execStepWinExpiry n h s) := by simp [execStepWinExpiry]

@[simp] theorem execBrollRelease_keepsDithers (n : CluIx) (h : HalfIx) (s : State) :
    KeepsDithers s (execBrollRelease n h s) := by simp [execBrollRelease]

@[simp] theorem execAdmissionRound_keepsDithers (n : CluIx) (s : State) :
    KeepsDithers s (execAdmissionRound n s) := by simp [execAdmissionRound]

/-! ### Machine/Ports -/

@[simp] theorem execLcProgramDone_keepsDithers (ok : Bool) (s : State) :
    KeepsDithers s (execLcProgramDone ok s) := by
  unfold execLcProgramDone
  split <;> simp

@[simp] theorem execSecureWordRefill_keepsDithers (w : Fin 2048) (ok : Bool) (val : Word64) (s : State) :
    KeepsDithers s (execSecureWordRefill w ok val s) := by
  unfold execSecureWordRefill
  split <;> simp

@[simp] theorem execAvsStatusPoll_keepsDithers (st : List (BitVec 16)) (s : State) :
    KeepsDithers s (execAvsStatusPoll st s) := by simp [execAvsStatusPoll, -put_clu]

@[simp] theorem execAvsCurrentPoll_keepsDithers (cur : BitVec 16) (s : State) :
    KeepsDithers s (execAvsCurrentPoll cur s) := by simp [execAvsCurrentPoll, -put_clu]

@[simp] theorem execPmbusPoll_keepsDithers (r : PmbusPoll) (s : State) :
    KeepsDithers s (execPmbusPoll r s) := by simp [execPmbusPoll, -put_clu]

@[simp] theorem execStampRequest_keepsDithers (g : Fin 64) (s : State) :
    KeepsDithers s (execStampRequest g s) := by simp [execStampRequest, -put_clu]

/-! ### Machine/Tick -/

@[simp] theorem dithers_tick (s : State) :
    dithers (State.tick s).clu = dithers s.clu := by simp [State.tick]

/-! ### One step -/

/-- A row that is no power row and no step of the dither keeps every dither counter. -/
theorem exec_keepsDithers {c : Instr} (s : State) (hstep : ∀ n, c ≠ .ditherStep n) (hup : ∀ v, c ≠ .powerUp v)
    (hloss : ∀ v, c ≠ .powerLoss v) : KeepsDithers s (exec c s) := by
  cases c with
  | ditherStep n => exact absurd rfl (hstep n)
  | powerUp v => exact absurd rfl (hup v)
  | powerLoss v => exact absurd rfl (hloss v)
  | _ => simp [exec]

/-- A carrier whose dither counter is no less than its cluster's. -/
theorem dithers_setCarr_le {k : Nat} {c : Carrier} {s : State} (h : (s.cl k).carrier.m ≤ c.m) (n : Nat) :
    dithers s.clu n ≤ dithers (s.setCarr k c).clu n := by
  change (vget s.clu n).carrier.m ≤ (vget (vmod s.clu k fun x => { x with carrier := c }) n).carrier.m
  by_cases hk : k < 64
  · by_cases hkn : k = n
    · subst hkn
      rw [vget_vmod_same _ _ _ hk]
      exact h
    · rw [vget_vmod_ne _ _ _ _ hkn]
  · rw [vget_vmod_ge _ _ _ _ hk]

/-- A step of the dither raises the counter of its own cluster by one, or leaves it (03 R74). -/
theorem ditherStep_dithers_le (k : CluIx) (s : State) :
    ∃ t, exec (.ditherStep k) s = .next t ∧ ∀ n, dithers s.clu n ≤ dithers t.clu n := by
  refine ⟨_, rfl, fun n => ?_⟩
  dsimp only
  split
  · exact le_rfl
  · refine dithers_setCarr_le ?_ n
    rw [← m_carr]
    split <;> exact Nat.le_succ _

/-- The dither counters never fall, but in the power rows (03 R75). -/
theorem step_dithers_le {s t : State} (hstep : step s = .next t)
    (hp : ∀ v : Bool, s.pending.head? ≠ some (.powerUp v) ∧ s.pending.head? ≠ some (.powerLoss v)) (n : Nat) :
    dithers s.clu n ≤ dithers t.clu n := by
  unfold step at hstep
  split at hstep
  case h_1 =>
    cases hstep
    rw [dithers_tick]
  case h_2 c rest hpend =>
    rw [hpend] at hp
    by_cases hc : ∃ k, c = .ditherStep k
    · obtain ⟨k, rfl⟩ := hc
      obtain ⟨u, hu, hle⟩ := ditherStep_dithers_le k { s with pending := rest }
      cases hu.symm.trans hstep
      exact hle n
    · have hkeep : KeepsDithers { s with pending := rest } (exec c { s with pending := rest }) :=
        exec_keepsDithers _ (fun k hk => hc ⟨k, hk⟩) (fun v hv => (hp v).1 (congrArg some hv))
          (fun v hv => (hp v).2 (congrArg some hv))
      rw [hstep] at hkeep
      exact (congrFun hkeep n).ge

/-- Settles O3: the power rows aside, only a step of the dither writes the counter (`exec_keepsDithers`), and it raises
it. -/
theorem ditherCounterReturnsToZeroOnlyAtPowerOff : Obligations.DitherCounterReturnsToZeroOnlyAtPowerOff := by
  unfold Obligations.DitherCounterReturnsToZeroOnlyAtPowerOff
  refine ⟨fun n s => ?_, fun n s t hstep hp => step_dithers_le hstep hp n, fun n s => ⟨_, rfl, ?_⟩⟩
  · exact ⟨_, rfl, congrFun (execBlockReset_keepsDithers s) n⟩
  · exact congrArg (fun c : Cluster => c.carrier.m) (vget_vrep 64 {} n.val n.isLt)
end Sys2Proof.Machine
end

section
/-! PROOFS. The frame of a dispatch fails on a table of commands that holds a slot twice (13 R411). -/

namespace Sys2Proof.Machine
open Sys2Proof

/-- An NV_READ of the whole chip at a stage. -/
def nvReadAt (st : Stage) : Cmd := { (default : Cmd) with opc := 0x16, stage := st }

/-- A table of commands out of its form: slot 1 stands in it twice, and the NOP that is found there hides an NV_READ that
waits for the store. -/
def slotTwice : State := { State.reset with host := { State.reset.host with
  cmds := [(0, nvReadAt .selected), (1, default), (1, nvReadAt .dispatched)] } }

theorem chosen_slotTwice : Chosen slotTwice 0 0x16 (nvReadAt .selected) := ⟨⟨rfl, rfl, rfl⟩, rfl, rfl, rfl⟩

/-- The dispatch of the NV_READ in slot 0 ends the NOP in slot 1. -/
theorem nvReads_slotTwice : (slotTwice.nvStart 0).nvReads.cmd? 1 = some { (default : Cmd) with stage := .complete } := by
  decide +kernel

/-- Refutes O59: nothing in it asks for a table of commands in its form (13 R411: a slot holds one command). In a table in
which slot 1 stands twice, the dispatch of an NV_READ answers the NV_READ hidden behind a NOP in slot 1 and ends the NOP, which
is no NV_READ. In a table in its form the clause holds: `nvRead_keeps_slots_of_wf`. -/
theorem not_dispatchLeavesOtherUnitsAlone : ¬ Obligations.DispatchLeavesOtherUnitsAlone := by
  intro h
  obtain ⟨-, -, -, -, -, -, -, -, -, -, -, -, -, -, -, -, -, -, hnv, -⟩ := h 0 (nvReadAt .selected) slotTwice _
  obtain ⟨-, -, hslots⟩ := hnv chosen_slotTwice (exec_nvRead_of_chosen chosen_slotTwice)
  have hfound : slotTwice.cmd? 1 = some default := rfl
  have hmine : ¬((1 : Slot) = 0 ∨ ∃ x, slotTwice.cmd? (1 : Slot) = some x ∧ x.opc = 0x16) := by
    rintro (h | ⟨x, hx, hopc⟩)
    · exact absurd h (by decide)
    · cases hx.symm.trans hfound
      exact absurd hopc (by decide)
  have hkept := hslots 1 hmine
  exact absurd (nvReads_slotTwice.symm.trans (hkept.trans hfound)) (by decide)

/-! ## What the clause of NV_READ rests on: the table of commands in its form -/

theorem Tab.le_of_mem_wfFrom {α : Type} {t : Tab α} {lo i : Nat} {x : α} (hwf : Tab.wfFrom lo t = true) (h : (i, x) ∈ t) :
    lo ≤ i := by
  induction t generalizing lo with
  | nil => cases h
  | cons p t ih =>
    obtain ⟨k, y⟩ := p
    simp only [Tab.wfFrom, Bool.and_eq_true, decide_eq_true_eq] at hwf
    obtain ⟨hk, hrest⟩ := hwf
    obtain heq | hmem := List.mem_cons.1 h
    · cases heq
      exact hk
    · exact (hk.trans k.le_succ).trans (ih hrest hmem)

/-- In a table in its form every entry is the one that its key finds. -/
theorem Tab.get?_of_mem {α : Type} {t : Tab α} {lo i : Nat} {x : α} (hwf : Tab.wfFrom lo t = true) (h : (i, x) ∈ t) :
    Tab.get? t i = some x := by
  induction t generalizing lo with
  | nil => cases h
  | cons p t ih =>
    obtain ⟨k, y⟩ := p
    simp only [Tab.wfFrom, Bool.and_eq_true, decide_eq_true_eq] at hwf
    obtain ⟨-, hrest⟩ := hwf
    obtain heq | hmem := List.mem_cons.1 h
    · cases heq
      simp [Tab.get?]
    · have hne : k ≠ i := (Nat.lt_of_succ_le (Tab.le_of_mem_wfFrom hrest hmem)).ne
      simp [Tab.get?, hne, ih hrest hmem]

/-- With the table in its form, the readings that go on leave a slot without an NV_READ as it was. -/
theorem cmd?_nvReads_of_wf {s : State} {j : Nat} (hwf : Tab.wf s.host.cmds = true)
    (hj : ¬ ∃ x, s.cmd? j = some x ∧ x.opc = 0x16) : s.nvReads.cmd? j = s.cmd? j := by
  unfold State.nvReads
  split
  · rfl
  · refine each_keeps_of_mem (P := fun u => u.cmd? j = s.cmd? j) (fun k hk u hu => ?_) rfl
    have hne : k ≠ j := by
      rintro rfl
      obtain ⟨⟨k, x⟩, hmem, rfl⟩ := List.mem_map.1 hk
      obtain ⟨hin, hx⟩ := List.mem_filter.1 hmem
      simp only [Bool.and_eq_true, beq_iff_eq] at hx
      obtain ⟨⟨hopc, -⟩, -⟩ := hx
      exact hj ⟨x, Tab.get?_of_mem hwf hin, hopc⟩
    exact (cmd?_nvReadNow_ne hne).trans hu

/-- With the table in its form, the dispatch of an NV_READ leaves the commands in the slots that hold none: the clause of
O59 that fails without it. -/
theorem nvRead_keeps_slots_of_wf {s t : State} {slot j : Slot} {c : Cmd} (hwf : Tab.wf s.host.cmds = true)
    (h : Chosen s slot 0x16 c) (ht : exec (.nvRead slot) s = .next t)
    (hj : ¬(j = slot ∨ ∃ x, s.cmd? j = some x ∧ x.opc = 0x16)) : t.cmd? j = s.cmd? j := by
  cases (exec_nvRead_of_chosen h).symm.trans ht
  obtain ⟨hslot, hother⟩ := not_or.1 hj
  have hne : slot.val ≠ j.val := fun he => hslot (Fin.ext he).symm
  have hstart : (s.nvStart slot).cmd? j = s.cmd? j := by
    rw [State.nvStart, cmd?_modCmd_ne hne, State.dispatched, cmd?_modCmd_ne hne]
  rw [cmd?_nvReads_of_wf (Tab.wf_mod _ _ _ (Tab.wf_mod _ _ _ hwf)) (by rwa [hstart]), hstart]

end Sys2Proof.Machine
end

section
/-! PROOFS. Stage 6 of a lane, bank swaps, settling time-outs and continuity windows (04 R123 to R140, 05 R163). -/

namespace Sys2Proof.Machine
open Sys2Proof

section Limits
variable {s : State} {n k : Nat} {o : LaneOut} {sh : Int}

/-- The limiter clamps the rounded duty between DMIN and the ceiling, which is never below DMIN (R123, R124). -/
theorem limiter_clamps (th : Thresh) (ceil : Option Nat) (d : Int) : (((limiter th ceil d).1 : Nat) : Int) =
    max (4 * (th.dmin : Int)) (min (4 * ((max th.dmin (min th.dmax (ceil.getD th.dmax)) : Nat) : Int)) (rshift 22 d)) := by
  unfold limiter
  dsimp only
  split
  · push_cast
    omega
  · split
    · push_cast at *
      omega
    · push_cast at *
      omega

/-- Stage 6 of a lane whose cell does not start gives it the limiter's duty (R123). -/
theorem lane6_duty (hst : (s.cell n k).st ≠ .start) (hsoft : (s.cell n k).softStart = false) :
    (s.lane6 n k o sh false).duty = (limiter (s.cellTh n k) (s.half n (s.sheet.cellHalf n k)).dutyCeil
      ((if (s.lane n k).shadow then sh else o.duty5) + s.dither n k * 4194304)).1 := by
  have hslow : ((s.cell n k).st == .start || (s.cell n k).softStart) = false := by simp [hst, hsoft]
  unfold State.lane6
  simp only [hslow, Bool.false_eq_true, if_false]
  rfl

theorem lane6_duty_of_mism : (s.lane6 n k o sh true).duty = (s.lane n k).duty := rfl

end Limits

section Swaps
variable {n : CluIx} {m q t0 : Nat} {s : State}

theorem exec_swapEffect_of_swap (h : (s.cl n).ctl.swap = some (q, t0)) : exec (.swapEffect n) s = .next
    (if (s.swapMates q).all (fun m => s.swapReady m && s.samples m) && s.samples n then
      each (s.swapMates q) (fun m s => (s.swapNow m).endPart q m .done) (s.advanceTo (s.cl n).ctl.sampleAt)
    else s) := by
  show execSwapEffect n s = _
  rw [execSwapEffect, h]

/-- One cluster of a command whose swap times out (R139). -/
def State.swapDrop (q m : Nat) (s : State) : State :=
  (s.modCl m (fun c => { c with ctl := { c.ctl with swap := none } })).endPart q m .timeout

/-- Time leaves the clusters in which a swap is deferred as they are. -/
theorem swapMates_advanceTo (t q : Nat) (s : State) : (s.advanceTo t).swapMates q = s.swapMates q := by
  unfold State.swapMates State.sheet State.cl
  rw [advanceTo_clu, advanceTo_csh]

theorem exec_swapTimeout_of_swap (h : (s.cl n).ctl.swap = some (q, t0)) :
    exec (.swapTimeout n) s = .next (each (s.swapMates q) (State.swapDrop q) (s.advanceTo t0)) := by
  rw [← swapMates_advanceTo t0]
  show execSwapTimeout n s = _
  rw [execSwapTimeout, h]
  rfl

theorem endPart_cl (q d : Nat) (st : Status) (m : Nat) (s : State) : (s.endPart q d st).cl m = s.cl m :=
  (endPart_keeps q d st m s).1

/-- A swap puts the other bank in force (R140). -/
theorem swapNow_ctl (n : CluIx) (s : State) :
    ((s.swapNow n).cl n).ctl.activeB = !(s.cl n).ctl.activeB ∧ ((s.swapNow n).cl n).ctl.swap = none := by
  unfold State.swapNow
  rw [cl_modCl _ _ _ n.isLt]
  exact ⟨rfl, rfl⟩

theorem swapDrop_same (n : CluIx) (q : Nat) (s : State) : ((s.swapDrop q n).cl n).ctl.swap = none := by
  rw [State.swapDrop, endPart_cl, cl_modCl _ _ _ n.isLt]

/-- A swap that times out puts no bank in force, and brings no swap about. -/
theorem swapDrop_keeps (q m i : Nat) (s : State) : ((s.swapDrop q i).cl m).ctl.activeB = (s.cl m).ctl.activeB ∧
    ((s.cl m).ctl.swap = none → ((s.swapDrop q i).cl m).ctl.swap = none) := by
  rw [State.swapDrop, endPart_cl]
  refine modCl_keeps (P := fun c => c.ctl.activeB = (s.cl m).ctl.activeB ∧ ((s.cl m).ctl.swap = none → c.ctl.swap = none))
    ?_ ⟨rfl, id⟩ i
  rintro c ⟨hb, -⟩
  exact ⟨hb, fun _ => rfl⟩

/-- A swap that waits for no other cluster takes effect at the sample boundary (R139). -/
theorem swapEffect_swaps (h : (s.cl n).ctl.swap = some (q, t0)) (hmates : s.swapMates q = [n.val]) (hready : s.swapReady n = true)
    (hsamp : s.samples n = true) :
    ∃ t, exec (.swapEffect n) s = .next t ∧ (t.cl n).ctl.activeB = !(s.cl n).ctl.activeB ∧ (t.cl n).ctl.swap = none ∧
      t.elapsed = max s.elapsed (s.cl n).ctl.sampleAt := by
  have hrow := exec_swapEffect_of_swap h
  rw [hmates] at hrow
  simp only [List.all_cons, List.all_nil, hready, hsamp, Bool.and_true, if_true] at hrow
  obtain ⟨hb, hswap⟩ := swapNow_ctl n (s.advanceTo (s.cl n).ctl.sampleAt)
  refine ⟨_, hrow, ?_, ?_, ?_⟩
  · show (((State.swapNow n (s.advanceTo _)).endPart q n .done).cl n).ctl.activeB = _
    rw [endPart_cl, hb, State.cl, advanceTo_clu]
    rfl
  · show (((State.swapNow n (s.advanceTo _)).endPart q n .done).cl n).ctl.swap = _
    rw [endPart_cl, hswap]
  · show ((State.swapNow n (s.advanceTo _)).endPart q n .done).elapsed = _
    obtain ⟨host, hend⟩ := endPart_hostOnly (State.swapNow n (s.advanceTo (s.cl n).ctl.sampleAt)) q n .done
    rw [hend]
    exact advanceTo_elapsed _ s

/-- While a cluster of its command is not ready a swap waits (R139). -/
theorem swapEffect_waits (h : (s.cl n).ctl.swap = some (q, t0)) (hno : (s.swapMates q).all (fun m => s.swapReady m) = false) :
    exec (.swapEffect n) s = .next s := by
  have hall : (s.swapMates q).all (fun m => s.swapReady m && s.samples m) = false := by
    rw [List.all_eq_false] at hno ⊢
    obtain ⟨m, hm, hready⟩ := hno
    exact ⟨m, hm, by simp [hready]⟩
  rw [exec_swapEffect_of_swap h, hall, Bool.false_and, if_neg Bool.false_ne_true]

/-- At SWAP_TO no cluster of the command swaps any more (R139). -/
theorem swapTimeout_drops (h : (s.cl n).ctl.swap = some (q, t0)) :
    ∃ t, exec (.swapTimeout n) s = .next t ∧ t.elapsed = max s.elapsed t0 ∧
      ∀ m : CluIx, (m.val ∈ s.swapMates q → (t.cl m).ctl.swap = none) ∧ (t.cl m).ctl.activeB = (s.cl m).ctl.activeB := by
  refine ⟨_, exec_swapTimeout_of_swap h, ?_, fun m => ⟨fun hm => ?_, ?_⟩⟩
  · refine each_keeps (P := fun u => u.elapsed = max s.elapsed t0) (fun i u hu => ?_) _ (advanceTo_elapsed _ s)
    rw [← hu]
    exact elapsed_of_calm ((State.endPart_calm _ _ _ _).trans (State.modCl_calm u i _))
  · exact each_reaches (P := fun _ => True) (Q := fun u => (u.cl m).ctl.swap = none) (fun _ _ _ _ => trivial)
      (fun u _ => swapDrop_same m q u) (fun i u hu => (swapDrop_keeps q m i u).2 hu) hm trivial
  · refine each_keeps (P := fun u => (u.cl m).ctl.activeB = (s.cl m).ctl.activeB)
      (fun i u hu => (swapDrop_keeps q m i u).1.trans hu) _ ?_
    rw [State.cl, advanceTo_clu]
    rfl

end Swaps

section Settle
variable {d : DomIx} {s : State}

/-- No half awaits a domain's command any longer. -/
theorem clearCmd_cmd (d : DomIx) (s : State) : ((s.clearCmd d).dm d).cmd = none := by
  unfold State.clearCmd
  refine each_keeps (P := fun u => (u.dm d).cmd = none) ?_ _ ?_
  · exact fun p u hu => hu
  · rw [dm_modDm _ _ _ d.isLt]

/-- SETTLE_TO after r reached the target in the one cluster of a domain, its set-point command is over (R131). -/
theorem settleTimeout_ends {q a : Nat} {p : Nat × Nat} (hhalves : s.sheet.domHalves d = [p])
    (hdone : (s.half p.1 p.2).ramp.done = false) (hchg : (s.half p.1 p.2).ramp.chg = [])
    (hat : (s.half p.1 p.2).ramp.reachedAt = some a) (hcmd : (s.dm d).cmd = some q) :
    ∃ t, exec (.settleTimeout d) s = .next t ∧ (t.dm d).cmd = none ∧
      t.elapsed = max s.elapsed (a + 1000 * s.sheet.s2.settleTo) := by
  have hrow : exec (.settleTimeout d) s =
      .next (((s.advanceTo (a + 1000 * s.sheet.s2.settleTo)).endPart q d .timeout).clearCmd d) := by
    have hcmd' : ((s.advanceTo (a + 1000 * s.sheet.s2.settleTo)).dm d).cmd = some q := by
      rw [State.dm, advanceTo_dom]
      exact hcmd
    show execSettleTimeout d s = _
    simp only [execSettleTimeout, hhalves, List.filterMap_cons, List.filterMap_nil, hdone, hchg, hat, List.isEmpty_nil,
      Bool.not_true, Bool.or_self, Bool.false_eq_true, if_false, List.foldl_nil, hcmd']
  refine ⟨_, hrow, clearCmd_cmd d _, ?_⟩
  rw [elapsed_of_calm ((State.clearCmd_calm _ _).trans (State.endPart_calm _ _ _ _)), advanceTo_elapsed]

end Settle

section Window
variable {n : CluIx} {s : State}

/-- The window of a cluster's continuity monitor starts again, and its sums are as before a sample (05 R163). -/
def Cluster.WindowAtStart (c : Cluster) : Prop :=
  c.winAt = 0 ∧ ∀ k : CellIx,
    (vget c.ctl.lanes k).winN = 0 ∧ (vget c.ctl.lanes k).winBad = false ∧ (vget c.ctl.lanes k).sumV = 0

/-- What a window leaves behind for the next one to compare with lies outside its sums. -/
theorem windowAtStart_modLane (n i k : Nat) {f : Lane → Lane}
    (hf : ∀ l, (f l).winN = l.winN ∧ (f l).winBad = l.winBad ∧ (f l).sumV = l.sumV) {s : State}
    (h : (s.cl n).WindowAtStart) : ((s.modLane i k f).cl n).WindowAtStart := by
  refine modCl_keeps (P := Cluster.WindowAtStart) ?_ h i
  rintro c ⟨hat, hl⟩
  refine ⟨hat, fun j => ?_⟩
  have hsame := vget_vmod_congr (fun l : Lane => (l.winN, l.winBad, l.sumV)) c.ctl.lanes k f
    (by obtain ⟨h1, h2, h3⟩ := hf (vget c.ctl.lanes k); simp [h1, h2, h3]) j
  simp only [Prod.mk.injEq] at hsame
  obtain ⟨h1, h2, h3⟩ := hsame
  obtain ⟨g1, g2, g3⟩ := hl j
  exact ⟨h1.trans g1, h2.trans g2, h3.trans g3⟩

/-- A window starts again from 0. -/
def State.restartWindow (n : Nat) (s : State) : State :=
  s.modCl n (fun c => { c with winAt := 0, ctl := { c.ctl with
    lanes := vmap (fun _ l => { l with sumV := 0, sumI := 0, sumD := 0, winN := 0, winBad := false }) c.ctl.lanes } })

theorem windowAtStart_restartWindow (n : CluIx) (s : State) : ((s.restartWindow n).cl n).WindowAtStart := by
  rw [State.restartWindow, cl_modCl _ _ _ n.isLt]
  refine ⟨rfl, fun k => ?_⟩
  dsimp only
  rw [vget_vmap _ _ _ k.isLt]
  exact ⟨rfl, rfl, rfl⟩

/-- What lane `k` keeps of the window of `s` to compare the next one with (R164). -/
def State.keptWindow (s : State) (n h k : Nat) (l : Lane) : Lane :=
  let o := (s.contrib n h).filter (fun j => j != k && (s.lane n j).winN == winLen)
  { l with olderSum := l.prevSum, olderCnt := l.prevCnt
           prevSum := sumI (o.map (fun j => (s.lane n j).sumI)), prevCnt := o.length }

/-- The end of a window judges its lanes, starts the next one and keeps what that will be compared with. -/
theorem exec_continuityWindow_of_end (hat : (s.cl n).winAt = winLen) (hsamp : s.samples n = true) :
    ∃ u, exec (.continuityWindow n) s = .next (each (s.hs n) (fun h v => each (s.sheet.cells n h)
      (fun k v => v.modLane n k (s.keptWindow n h k)) v) (State.restartWindow n u)) := by
  have hcond : ((s.cl n).winAt != winLen || !s.samples n) = false := by simp [hat, hsamp]
  show ∃ u, execContinuityWindow n s = _
  rw [execContinuityWindow, hcond, if_neg Bool.false_ne_true]
  exact ⟨_, rfl⟩

/-- The window that ends starts again from 0 (05 R163). -/
theorem continuityWindow_restarts (hat : (s.cl n).winAt = winLen) (hsamp : s.samples n = true) :
    ∃ t, exec (.continuityWindow n) s = .next t ∧ (t.cl n).winAt = 0 ∧
      ∀ k : CellIx, (t.lane n k).winN = 0 ∧ (t.lane n k).winBad = false ∧ (t.lane n k).sumV = 0 := by
  obtain ⟨u, hrow⟩ := exec_continuityWindow_of_end hat hsamp
  refine ⟨_, hrow, each_keeps (P := fun v => (v.cl n).WindowAtStart) (fun h v hv => ?_) _ (windowAtStart_restartWindow n u)⟩
  refine each_keeps (P := fun v => (v.cl n).WindowAtStart) (fun k w hw => windowAtStart_modLane n n k ?_ hw) _ hv
  exact fun l => ⟨rfl, rfl, rfl⟩

end Window

/-- Settles O41: stage 6 is the limiter's clamp, a swap and its time-out are turns of the clusters of its command, and the end
of a window restarts the sums of every lane and then writes only what the next window is compared with. -/
theorem loopTimersComplete : Obligations.LoopTimersComplete := by
  unfold Obligations.LoopTimersComplete
  intro n d s
  refine ⟨fun _ _ => swapEffect_swaps, fun _ _ => swapEffect_waits, fun _ _ => swapTimeout_drops,
    fun _ _ _ => settleTimeout_ends, continuityWindow_restarts, ?_⟩
  rintro k o sh u th hi rfl - hst hsoft rfl rfl
  rw [lane6_duty hst hsoft, limiter_clamps]
  exact ⟨rfl, lane6_duty_of_mism⟩

end Sys2Proof.Machine
end

section
/-! PROOFS. Settling, header stages, waves and mode-off of a domain (04 R131, 11 R353 to R361). -/

namespace Sys2Proof.Machine
open Sys2Proof

/-! ## What the staging of a domain leaves as it was -/

/-- What the check of a stage leaves: the stages that each domain has closed, whether it is being switched, and bring-up. -/
structure StageView where
  stages : Nat → Nat
  staged : Nat → Bool
  boot : Boot

def State.stageView (s : State) : StageView := ⟨fun e => (s.dm e).stages, fun e => (s.dm e).stg.isSome, s.boot⟩

section View
variable {α β : Type}

/-- What changes neither a domain nor bring-up. -/
theorem stageView_of_parts {s t : State} (hdom : t.dom = s.dom) (hboot : t.boot = s.boot) : t.stageView = s.stageView := by
  unfold State.stageView State.dm
  rw [hdom, hboot]

@[simp] theorem stageView_modCl (n : Nat) (f : Cluster → Cluster) (s : State) : (s.modCl n f).stageView = s.stageView :=
  stageView_of_parts rfl rfl

@[simp] theorem stageView_modHalf (n h : Nat) (f : Half → Half) (s : State) : (s.modHalf n h f).stageView = s.stageView :=
  stageView_of_parts rfl rfl

@[simp] theorem stageView_modDm {f : Domain → Domain} (hst : ∀ x, (f x).stages = x.stages)
    (hsg : ∀ x, (f x).stg.isSome = x.stg.isSome) (d : Nat) (s : State) : (s.modDm d f).stageView = s.stageView := by
  have h1 := funext (vget_vmod_congr Domain.stages s.dom d f (hst _))
  have h2 := funext (vget_vmod_congr (fun x : Domain => x.stg.isSome) s.dom d f (hsg _))
  exact congrArg₂ (fun a b => (⟨a, b, s.boot⟩ : StageView)) h1 h2

@[simp] theorem stageView_modStg (d : Nat) (f : Staging → Staging) (s : State) :
    (s.modStg d f).stageView = s.stageView := by
  simp [State.modStg]

@[simp] theorem stageView_each {f : α → State → State} (hf : ∀ x u, (f x u).stageView = u.stageView) (l : List α)
    (s : State) : (each l f s).stageView = s.stageView :=
  each_keeps (P := fun u => u.stageView = s.stageView) (fun x u hu => (hf x u).trans hu) l rfl

@[simp] theorem stageView_foldl_snd {f : β × State → α → β × State} (hf : ∀ b x, (f b x).2.stageView = b.2.stageView)
    (l : List α) (b : β × State) : (l.foldl f b).2.stageView = b.2.stageView := by
  induction l generalizing b with
  | nil => rfl
  | cons x l ih => exact (ih (f b x)).trans (hf b x)

@[simp] theorem stageView_raise (code : Nat) (sc : Scope) (detail : Nat) (s : State) :
    (s.raise code sc detail).stageView = s.stageView :=
  stageView_of_parts (congrArg Rest.dom (State.raise_rest code sc detail s))
    (congrArg Rest.boot (State.raise_rest code sc detail s))

@[simp] theorem stageView_send (m : LMsg) (s : State) : (s.send m).stageView = s.stageView := by
  unfold State.send
  split <;> rfl

@[simp] theorem stageView_borrow (n h : Nat) (s : State) : (s.borrow n h).stageView = s.stageView := by
  unfold State.borrow
  split
  · rfl
  · exact (apply_ite State.stageView _ _ _).trans (by simp)

@[simp] theorem stageView_accrue (n : Nat) (s : State) : (s.accrue n).stageView = s.stageView := by
  simp [State.accrue]

@[simp] theorem stageView_fade (n : Nat) (off : Bool) (s : State) : (s.fade n off).stageView = s.stageView := by
  simp [State.fade]

@[simp] theorem stageView_unfade (d : Nat) (s : State) : (s.unfade d).stageView = s.stageView := by
  unfold State.unfade
  split <;> simp

@[simp] theorem stageView_dropStage (d : Nat) (s : State) : (s.dropStage d).stageView = s.stageView := by
  simp [State.dropStage]

@[simp] theorem stageView_takeStage (d need : Nat) (s : State) : (s.takeStage d need).stageView = s.stageView := by
  unfold State.takeStage
  dsimp only
  split <;> simp

@[simp] theorem stageView_liftH (d : Nat) (s : State) : (s.liftH d).2.stageView = s.stageView := by
  simp [State.liftH]

@[simp] theorem stageView_stageB (d prev need c : Nat) (s : State) : (s.stageB d prev need c).stageView = s.stageView := by
  simp [State.stageB]

@[simp] theorem stageView_stageForce (d prev : Nat) (peak : List Nat) (s : State) :
    (s.stageForce d prev peak).stageView = s.stageView := by
  simp [State.stageForce]

@[simp] theorem stageView_stageCheck (d prev : Nat) (forced : Bool) (s : State) :
    (s.stageCheck d prev forced).stageView = s.stageView := by
  unfold State.stageCheck
  dsimp only
  split_ifs
  · simp
  · simp
  · simp
  · split <;> simp
  · simp

@[simp] theorem stageView_stageNext (d : Nat) (s : State) : (s.stageNext d).stageView = s.stageView := by
  unfold State.stageNext
  split_ifs <;> simp

end View

/-! ## Settling (04 R131) -/

section Settled
variable {d : DomIx} {s : State} {q : Nat} {c : Cmd}

/-- The end of a command's only part is the end of the command, now. -/
theorem endPart_ends (hq : s.cmd? q = some c) (hparts : c.parts = [d.val]) (hends : c.ends = [])
    (hstage : c.stage = .dispatched) :
    ∃ r ∈ (s.endPart q d .done).host.cpls, r.slot = some q ∧ r.status = .done ∧ r.time = s.elapsed := by
  have hsort : sortBy (fun a b : Nat × Status => decide (a.1 < b.1)) (c.ends ++ [(d.val, Status.done)]) = [(d.val, .done)] := by
    rw [hends]
    rfl
  have hlast : ∃ res, s.endPart q d .done =
      (s.modCmd q (fun x => { x with parts := [], ends := [(d.val, .done)] })).complete q .done res := by
    unfold State.endPart
    simp only [hq, hsort]
    simp only [hparts]
    simp
    exact ⟨_, rfl⟩
  obtain ⟨res, hlast⟩ := hlast
  have hcmd : (s.modCmd q (fun x => { x with parts := [], ends := [(d.val, .done)] })).cmd? q =
      some { c with parts := [], ends := [(d.val, .done)] } := cmd?_modCmd_same hq _
  rw [hlast]
  unfold State.complete State.completeAfter
  simp only [hcmd, hstage]
  exact ⟨_, List.mem_append_right _ (List.mem_singleton.2 rfl), rfl, rfl, rfl⟩

@[simp] theorem clearCmd_host (d : Nat) (s : State) : (s.clearCmd d).host = s.host := by
  unfold State.clearCmd
  refine each_keeps (P := fun u => u.host = s.host) ?_ _ rfl
  exact fun p u hu => hu

/-- Once every half of a domain has settled its command's part is done (R131). -/
theorem setpointSettled_ends (hset : s.domSettled d = true) (hcmd : (s.dm d).cmd = some q) (hq : s.cmd? q = some c)
    (hparts : c.parts = [d.val]) (hends : c.ends = []) (hstage : c.stage = .dispatched) :
    ∃ t, exec (.setpointSettled d) s = .next t ∧ (t.dm d).cmd = none ∧
      ∃ r ∈ t.host.cpls, r.slot = some q ∧ r.status = .done ∧ r.time = s.elapsed := by
  have hrow : exec (.setpointSettled d) s = .next ((s.endPart q d .done).clearCmd d) := by
    show execSetpointSettled d s = _
    simp [execSetpointSettled, hset, hcmd]
  refine ⟨_, hrow, clearCmd_cmd d _, ?_⟩
  rw [clearCmd_host]
  exact endPart_ends hq hparts hends hstage

end Settled

/-! ## Header stages (11 R358 to R361) -/

section Stages
variable {d : DomIx} {s : State} {g : Staging} {t0 : Nat}

theorem stages_of_view {s t : State} (h : t.stageView = s.stageView) (e : Nat) : (t.dm e).stages = (s.dm e).stages :=
  congrFun (congrArg StageView.stages h) e

theorem staged_of_view {s t : State} (h : t.stageView = s.stageView) (e : Nat) :
    (t.dm e).stg.isSome = (s.dm e).stg.isSome := congrFun (congrArg StageView.staged h) e

/-- A stage that closes is one more, up to all eight. -/
theorem stageClose_stages (h : (s.dm d).stg = some g) : ((s.stageClose d).dm d).stages = min 8 ((s.dm d).stages + 1) := by
  have hone (b : Bool) : (((s.dropStage d).modDm d (fun x => { x with stages := min 8 (x.stages + 1), stretched := b })).dm
      d).stages = min 8 ((s.dm d).stages + 1) := by
    rw [dm_modDm _ _ _ d.isLt]
    show min 8 (((s.dropStage d).dm d).stages + 1) = _
    rw [stages_of_view (stageView_dropStage d s)]
  unfold State.stageClose
  simp only [h]
  rw [stages_of_view (stageView_stageNext d _)]
  split
  · refine (stages_of_view (stageView_each (fun p u => ?_) _ _) d).trans (hone _)
    exact stageView_modHalf _ _ _ u
  · exact hone _

/-- While the VIN reason is not set a stage that opens is one less, down to none. -/
theorem stageOpen_stages (hdip : s.vin.dip = false) : ((s.stageOpen d).dm d).stages = (s.dm d).stages - 1 := by
  unfold State.stageOpen
  split
  case isTrue h =>
    have hzero : (s.dm d).stages = 0 := by simpa using h
    rw [stages_of_view (stageView_modStg _ _ _), hzero]
  case isFalse =>
    rw [hdip, if_neg Bool.false_ne_true]
    dsimp only
    split <;> rw [stages_of_view (stageView_modStg _ _ _), dm_modDm _ _ _ d.isLt]

theorem exec_headerStage_of_due (h : (s.dm d).stg = some g) (htrip : s.trip = false) (hrun : g.waitRun = false)
    (hat : g.nextAt = some t0) : exec (.headerStage d) s =
      .next (if g.closing then (s.advanceTo t0).stageClose d else (s.advanceTo t0).stageOpen d) := by
  show execHeaderStage d s = _
  simp [execHeaderStage, h, htrip, hrun, hat]

/-- A stage interval that has run closes a stage. -/
theorem headerStage_closes (h : (s.dm d).stg = some g) (htrip : s.trip = false) (hrun : g.waitRun = false)
    (hat : g.nextAt = some t0) (hclosing : g.closing = true) :
    ∃ t, exec (.headerStage d) s = .next t ∧ (t.dm d).stages = min 8 ((s.dm d).stages + 1) ∧
      t.elapsed = max s.elapsed t0 := by
  refine ⟨_, (exec_headerStage_of_due h htrip hrun hat).trans (by rw [if_pos hclosing]), ?_, ?_⟩
  · rw [stageClose_stages (g := g) (by rw [advanceTo_dm, h]), advanceTo_dm]
  · rw [elapsed_of_calm (State.stageClose_calm _ _), advanceTo_elapsed]

/-- A stage interval that has run opens a stage, while the VIN reason is not set. -/
theorem headerStage_opens (h : (s.dm d).stg = some g) (htrip : s.trip = false) (hrun : g.waitRun = false)
    (hat : g.nextAt = some t0) (hopening : g.closing = false) (hdip : s.vin.dip = false) :
    ∃ t, exec (.headerStage d) s = .next t ∧ (t.dm d).stages = (s.dm d).stages - 1 ∧ t.elapsed = max s.elapsed t0 := by
  refine ⟨_, (exec_headerStage_of_due h htrip hrun hat).trans (by rw [if_neg (by simp [hopening])]), ?_, ?_⟩
  · rw [stageOpen_stages (by rw [advanceTo_vin, hdip]), advanceTo_dm]
  · rw [elapsed_of_calm (State.stageOpen_calm _ _), advanceTo_elapsed]

/-- A stage interval that begins has its end and waits for no neighbour (R359). -/
theorem stageB_starts (prev need c : Nat) (h : (s.dm d).stg.isSome = true) :
    ((s.stageB d prev need c).dm d).nbWait = false ∧
      ∃ g', ((s.stageB d prev need c).dm d).stg = some g' ∧ g'.nextAt.isSome = true ∧ g'.waitBy = none := by
  have hlift : ((s.takeStage d need).liftH d).2.stageView = s.stageView := by simp
  have hstg := (staged_of_view hlift d).trans h
  obtain ⟨g, hg⟩ := Option.isSome_iff_exists.1 hstg
  unfold State.stageB State.modStg
  dsimp only
  rw [dm_modDm _ _ _ d.isLt, dm_modDm _ _ _ d.isLt]
  exact ⟨rfl, _, congrArg (Option.map _) hg, rfl, rfl⟩

/-- At the end of NB_WAIT the stage begins with the credits there are (R359). -/
theorem stageCheck_forced (prev : Nat) (h : (s.dm d).stg.isSome = true) :
    ((s.stageCheck d prev true).dm d).nbWait = false ∧
      ∃ g', ((s.stageCheck d prev true).dm d).stg = some g' ∧ g'.nextAt.isSome = true ∧ g'.waitBy = none := by
  have hforce : s.stageCheck d prev true = (s.unfade d).stageForce d prev
      (((s.unfade d).sheet.neighbours d).filter (s.unfade d).atPeak) := by
    simp [State.stageCheck]
  rw [hforce, State.stageForce]
  rw [raise_dm]
  refine stageB_starts _ _ _ ?_
  rw [staged_of_view (t := State.modStg _ _ _) (s := s) (by simp), h]

/-- A stage held for its neighbours goes on when its wait ends (R359). -/
theorem nbWaitExpiry_goes_on (h : (s.dm d).stg = some g) (hwait : g.waitBy = some t0) (htrip : s.trip = false)
    (hpaused : g.paused = false) :
    ∃ t, exec (.nbWaitExpiry d) s = .next t ∧ t.elapsed = max s.elapsed t0 ∧ (t.dm d).nbWait = false ∧
      ∃ g', (t.dm d).stg = some g' ∧ g'.nextAt.isSome = true ∧ g'.waitBy = none := by
  have hrow : exec (.nbWaitExpiry d) s = .next ((s.advanceTo t0).stageCheck d g.prevAt true) := by
    show execNbWaitExpiry d s = _
    simp [execNbWaitExpiry, h, hwait, htrip, hpaused]
  refine ⟨_, hrow, ?_, stageCheck_forced _ (by rw [advanceTo_dm, h]; rfl)⟩
  rw [elapsed_of_calm (State.stageCheck_calm _ _ _ _), advanceTo_elapsed]

end Stages

/-! ## Waves and time-outs (11 R353, R357) -/

section Waves
variable {d : DomIx} {s : State} {g : Staging} {t0 : Nat}

/-- A wave starts once the one before it has ended and the cells of its domains run (R353). -/
theorem waveStart_starts {w : List Nat} {rest : List (List Nat)} (hwaves : s.boot.waves = w :: rest)
    (hstep : s.boot.step = 7) (hvin : s.boot.waitVin = false) (hin : s.boot.inWave = []) (htrip : s.trip = false)
    (hrun : w.all s.allRun = true) :
    ∃ t, exec .waveStart s = .next t ∧ t.boot.wave = s.boot.wave + 1 ∧ t.boot.inWave = w ∧ t.boot.waves = rest := by
  have hrow : exec .waveStart s = .next (each w (fun d u => (u.modStg d (fun g => { g with waitRun := false })).stageNext d)
      { s with boot := { s.boot with waves := rest, inWave := w, wave := s.boot.wave + 1 } }) := by
    show execWaveStart s = _
    simp only [execWaveStart, hwaves, hstep, hvin, hin, htrip, hrun]
    rfl
  have hview (d : Nat) (u : State) :
      ((u.modStg d (fun g => { g with waitRun := false })).stageNext d).stageView = u.stageView := by simp
  have hboot := congrArg StageView.boot (stageView_each hview w
    { s with boot := { s.boot with waves := rest, inWave := w, wave := s.boot.wave + 1 } })
  refine ⟨_, hrow, ?_, ?_, ?_⟩
  · exact congrArg Boot.wave hboot
  · exact congrArg Boot.inWave hboot
  · exact congrArg Boot.waves hboot

/-- A domain leaves its wave: bring-up alone changes. -/
theorem leaveWave_eq (d : Nat) (s : State) : ∃ b, s.leaveWave d = { s with boot := b } ∧
    b.inWave = s.boot.inWave.filter (fun x => x != d) := by
  unfold State.leaveWave State.wavesDone
  split <;> exact ⟨_, rfl, rfl⟩

theorem exec_waveSettleExpiry_of_due (h : (s.dm d).stg = some g) (hat : g.settleBy = some t0) (hclosing : g.closing = true) :
    exec (.waveSettleExpiry d) s = .next (match g.cmd with
      | some q => ((s.advanceTo t0).modDm d (fun x => { x with stg := none })).endPart q d .done
      | none => ((s.advanceTo t0).modDm d (fun x => { x with stg := none })).leaveWave d) := by
  show execWaveSettleExpiry d s = _
  simp only [execWaveSettleExpiry, h, hat, hclosing, Bool.not_true, Bool.false_eq_true, if_false] <;> rfl

/-- WAVE_SETTLE after its last stage the switching of a domain is over (R353). -/
theorem waveSettleExpiry_ends (h : (s.dm d).stg = some g) (hat : g.settleBy = some t0) (hclosing : g.closing = true) :
    ∃ t, exec (.waveSettleExpiry d) s = .next t ∧ (t.dm d).stg = none ∧ t.elapsed = max s.elapsed t0 ∧
      (g.cmd = none → t.boot.inWave = s.boot.inWave.filter (fun x => x != d.val)) := by
  have hstg : ∀ u : State, ((u.modDm d (fun x => { x with stg := none })).dm d).stg = none := fun u => by
    rw [dm_modDm _ _ _ d.isLt]
  refine ⟨_, exec_waveSettleExpiry_of_due h hat hclosing, ?_⟩
  cases g.cmd with
  | some q =>
    obtain ⟨host, hend⟩ := endPart_hostOnly ((s.advanceTo t0).modDm d (fun x => { x with stg := none })) q d .done
    dsimp only
    rw [hend]
    exact ⟨hstg _, advanceTo_elapsed _ s, fun hno => by cases hno⟩
  | none =>
    obtain ⟨b, hleave, hin⟩ := leaveWave_eq d ((s.advanceTo t0).modDm d (fun x => { x with stg := none }))
    dsimp only
    rw [hleave]
    refine ⟨hstg _, advanceTo_elapsed _ s, fun _ => hin.trans ?_⟩
    rw [modDm_boot, advanceTo_boot]

theorem exec_domainOnTimeout_of_late (h : (s.dm d).stg = some g) (hwait : g.waitRun = true) (hclosing : g.closing = true)
    (hrun : s.allRun d = false) : exec (.domainOnTimeout d) s = .next (match g.cmd with
      | some q => ((s.advanceTo g.runBy).modDm d (fun x => { x with stg := none })).endPart q d .timeout
      | none => ((((s.advanceTo g.runBy).modDm d (fun x => { x with stg := none })).modDm d
          (fun x => { x with heldOff := true })).raise 0x014 (.unit (uDom d)) 0).leaveWave d) := by
  show execDomainOnTimeout d s = _
  simp only [execDomainOnTimeout, h, hwait, hclosing, hrun, Bool.not_true, Bool.false_eq_true, if_false, Bool.or_self] <;> rfl

/-- A domain whose cells do not all run in time is no longer being switched on, and one without a command is held off
(R353, R357). -/
theorem domainOnTimeout_ends (h : (s.dm d).stg = some g) (hwait : g.waitRun = true) (hclosing : g.closing = true)
    (hrun : s.allRun d = false) :
    ∃ t, exec (.domainOnTimeout d) s = .next t ∧ (t.dm d).stg = none ∧ t.elapsed = max s.elapsed g.runBy ∧
      (g.cmd = none → (t.dm d).heldOff = true) := by
  refine ⟨_, exec_domainOnTimeout_of_late h hwait hclosing hrun, ?_⟩
  cases g.cmd with
  | some q =>
    obtain ⟨host, hend⟩ := endPart_hostOnly ((s.advanceTo g.runBy).modDm d (fun x => { x with stg := none })) q d .timeout
    dsimp only
    rw [hend]
    refine ⟨?_, advanceTo_elapsed _ s, fun hno => by cases hno⟩
    show ((State.modDm _ _ _).dm d).stg = none
    rw [dm_modDm _ _ _ d.isLt]
  | none =>
    dsimp only
    have hdm (u : State) : (((((u.modDm d (fun x => { x with stg := none })).modDm d (fun x => { x with heldOff := true })).raise
        0x014 (.unit (uDom d)) 0).leaveWave d).dm d) = { u.dm d with stg := none, heldOff := true } := by
      obtain ⟨b, hleave, -⟩ := leaveWave_eq d (((u.modDm d (fun x => { x with stg := none })).modDm d
        (fun x => { x with heldOff := true })).raise 0x014 (.unit (uDom d)) 0)
      rw [hleave]
      exact (raise_dm _ _ _ _ d).trans (by rw [dm_modDm _ _ _ d.isLt, dm_modDm _ _ _ d.isLt])
    rw [hdm]
    refine ⟨rfl, ?_, fun _ => rfl⟩
    rw [elapsed_of_calm (State.leaveWave_calm _ _), elapsed_of_calm (State.raise_calm _ _ _ _)]
    exact advanceTo_elapsed _ s

end Waves

/-! ## Cells to mode off (11 R361) -/

section ModeOff
variable {d : DomIx} {s : State} {g : Staging} {t0 : Nat}

/-- A cell that has received MODE OFF: it no longer switches and keeps no safe set-point. -/
def Cell.modedOff (now : Nat) (c : Cell) : Cell :=
  let c := { c with safeValid := false, mode := .off }
  if c.st.switching then c.toIdle now else c

/-- What MODE OFF leaves of a cell. -/
def Cell.IsOff (c : Cell) : Prop := c.mode = .off ∧ c.st.switching = false ∧ c.safeValid = false

theorem modedOff_isOff (now : Nat) (c : Cell) : (c.modedOff now).IsOff := by
  unfold Cell.modedOff
  dsimp only
  split
  case isTrue => exact ⟨rfl, rfl, rfl⟩
  case isFalse h => exact ⟨rfl, by simpa using h, rfl⟩

/-- MODE OFF sent to one cell. -/
def State.modeCellOff (p : Nat × Nat) (s : State) : State := s.modCell p.1 p.2 (Cell.modedOff s.elapsed)

/-- MODE OFF sent to the cells of a domain. -/
def State.modeCellsOff (d : Nat) (s : State) : State := each (s.sheet.domCells d) State.modeCellOff s

/-- The target of a domain forced back to VBOOT, where the call sheet has a record of it. -/
def State.targetToBoot (d : Nat) (s : State) : State :=
  match s.sheet.domRec d with
  | some r => s.forceTarget d r.vboot
  | none => s

/-- The end of switching off: the domain is off, its cells are off and its target is VBOOT. -/
def State.domainModedOff (d : Nat) (s : State) : State :=
  (((s.modeCellsOff d).noteParks s).modDm d (fun x => { x with on := false, modeOff := true, stg := none, heldOff := false
    })).targetToBoot d

theorem exec_cellsModeOff_of_due (h : (s.dm d).stg = some g) (hat : g.settleBy = some t0) (hopening : g.closing = false) :
    exec (.cellsModeOff d) s = .next (match g.cmd with
      | some q => ((s.advanceTo t0).domainModedOff d).endPart q d .done
      | none => (s.advanceTo t0).domainModedOff d) := by
  show execCellsModeOff d s = _
  unfold execCellsModeOff
  rw [h]
  dsimp only
  rw [hat]
  dsimp only
  rw [hopening, if_neg Bool.false_ne_true]
  unfold State.domainModedOff
  generalize hu : (((s.advanceTo t0).modeCellsOff d).noteParks (s.advanceTo t0)).modDm d _ = u
  generalize hv : State.modDm (State.noteParks _ _) _ _ = v
  have hsame : v = u := hv.symm.trans hu
  subst hsame
  cases g.cmd <;> rfl

theorem modeCellOff_isOff (n : CluIx) (k : CellIx) (s : State) : ((s.modeCellOff (n.val, k.val)).cell n k).IsOff := by
  unfold State.modeCellOff
  rw [cell_modCell_ix]
  exact modedOff_isOff _ _

theorem modeCellOff_keeps_isOff {n : CluIx} {k : CellIx} (p : Nat × Nat) (h : (s.cell n k).IsOff) :
    ((s.modeCellOff p).cell n k).IsOff := by
  by_cases hp : p = (n.val, k.val)
  · subst hp
    exact modeCellOff_isOff n k s
  · unfold State.modeCellOff
    rw [cell_modCell_ne]
    · exact h
    · by_contra hsame
      push Not at hsame
      exact hp (Prod.ext hsame.1 hsame.2)

theorem modeCellsOff_isOff {n : CluIx} {k : CellIx} (h : (n.val, k.val) ∈ s.sheet.domCells d) :
    ((s.modeCellsOff d).cell n k).IsOff :=
  each_reaches (P := fun _ => True) (Q := fun u => (u.cell n k).IsOff) (fun _ _ _ _ => trivial)
    (fun u _ => modeCellOff_isOff n k u) (fun p _ => modeCellOff_keeps_isOff p) h trivial

theorem modeCellsOff_calm (d : Nat) (s : State) : (s.modeCellsOff d).calm = s.calm :=
  each_calm _ State.modeCellOff (fun p u => State.modCell_calm u p.1 p.2 _) s

/-- The target forced back leaves every cell, what is not the target or its command in the domain, and the time. -/
theorem targetToBoot_keeps (d : DomIx) (s : State) : (s.targetToBoot d).cells = s.cells ∧
    (∃ code cmd, (s.targetToBoot d).dm d = { s.dm d with tgt := code, cmd := cmd }) ∧
    (s.targetToBoot d).elapsed = s.elapsed := by
  unfold State.targetToBoot
  split
  case h_1 r _ =>
    have hkept : (s.forceTarget d r.vboot).cells = s.cells ∧
        (s.forceTarget d r.vboot).dm d = { s.dm d with tgt := r.vboot, cmd := none } := by
      unfold State.forceTarget
      refine each_keeps (P := fun u => u.cells = s.cells ∧ u.dm d = { s.dm d with tgt := r.vboot, cmd := none }) ?_ _
        ⟨rfl, dm_modDm _ _ _ d.isLt⟩
      rintro p u ⟨hcells, hdm⟩
      exact ⟨(State.modHalf_cells u _ _ _).trans hcells, hdm⟩
    exact ⟨hkept.1, ⟨_, _, hkept.2⟩, elapsed_of_calm (State.forceTarget_calm _ _ _)⟩
  case h_2 => exact ⟨rfl, ⟨_, _, rfl⟩, rfl⟩

theorem domainModedOff_off (d : DomIx) (s : State) : ((s.domainModedOff d).dm d).on = false ∧
    ((s.domainModedOff d).dm d).modeOff = true ∧ ((s.domainModedOff d).dm d).stg = none ∧
    (s.domainModedOff d).elapsed = s.elapsed ∧
    ∀ (n : CluIx) (k : CellIx), (n.val, k.val) ∈ s.sheet.domCells d → ((s.domainModedOff d).cell n k).IsOff := by
  obtain ⟨hcells, ⟨code, cmd, hdm⟩, helapsed⟩ := targetToBoot_keeps d (((s.modeCellsOff d).noteParks s).modDm d
    (fun x => { x with on := false, modeOff := true, stg := none, heldOff := false }))
  rw [dm_modDm _ _ _ d.isLt] at hdm
  unfold State.domainModedOff
  rw [hdm]
  refine ⟨rfl, rfl, rfl, ?_, fun n k h => ?_⟩
  · rw [helapsed, modDm_elapsed]
    exact elapsed_of_calm ((State.noteParks_calm _ _).trans (modeCellsOff_calm d s))
  · rw [State.cell_eq_of_cells hcells, modDm_cell, State.cell_eq_of_cells (State.noteParks_cells _ _)]
    exact modeCellsOff_isOff h

/-- 1 us after stage 1 has opened the domain and its cells are off (R361). -/
theorem cellsModeOff_ends (h : (s.dm d).stg = some g) (hat : g.settleBy = some t0) (hopening : g.closing = false) :
    ∃ t, exec (.cellsModeOff d) s = .next t ∧ (t.dm d).on = false ∧ (t.dm d).modeOff = true ∧ (t.dm d).stg = none ∧
      t.elapsed = max s.elapsed t0 ∧ ∀ (n : CluIx) (k : CellIx), (n.val, k.val) ∈ s.sheet.domCells d →
        (t.cell n k).mode = .off ∧ (t.cell n k).st.switching = false ∧ (t.cell n k).safeValid = false := by
  have hoff := domainModedOff_off d (s.advanceTo t0)
  rw [advanceTo_sheet, advanceTo_elapsed] at hoff
  refine ⟨_, exec_cellsModeOff_of_due h hat hopening, ?_⟩
  generalize (s.advanceTo t0).domainModedOff d = u at hoff ⊢
  cases g.cmd with
  | none => exact hoff
  | some q =>
    obtain ⟨host, hend⟩ := endPart_hostOnly u q d .done
    dsimp only
    rw [hend]
    exact hoff

end ModeOff

/-- Settles O50: each row is reduced to its effect under the clause's premises, and what the effect leaves of the domain,
of bring-up, of the cells and of the time is read off the operations it is made of. -/
theorem domainStagesComplete : Obligations.DomainStagesComplete := by
  unfold Obligations.DomainStagesComplete
  refine fun d s => ⟨?_, ?_, ?_, ?_, ?_, ?_, ?_⟩
  · exact fun q c hset hcmd hq hparts hends hstage => setpointSettled_ends hset hcmd hq hparts hends hstage
  · exact fun g t0 h htrip hrun hat => ⟨headerStage_closes h htrip hrun hat, headerStage_opens h htrip hrun hat⟩
  · exact fun g t0 h hwait htrip hpaused => nbWaitExpiry_goes_on h hwait htrip hpaused
  · exact fun w rest hwaves hstep hvin hin htrip hrun => waveStart_starts hwaves hstep hvin hin htrip hrun
  · exact fun g t0 h hat hclosing => waveSettleExpiry_ends h hat hclosing
  · exact fun g h hwait hclosing hrun => domainOnTimeout_ends h hwait hclosing hrun
  · exact fun g t0 h hat hopening => cellsModeOff_ends h hat hopening

end Sys2Proof.Machine
end

section
/-! PROOFS. NOP, FENCE, set-points, domain switching, credits and caps at their dispatch (13 R414, 04 R126, 11 R357, R361). -/

namespace Sys2Proof.Machine
open Sys2Proof

/-! ## The halves and the domains that a command reaches (02 R514) -/

section Reach
variable {cs : CallSheet} {d e : Nat} {p : Nat × Nat}

theorem mem_domHalves : p ∈ cs.domHalves d ↔ p.1 < 64 ∧ (p.2, d) ∈ cs.cluHalves p.1 := by
  obtain ⟨n, h⟩ := p
  simp only [CallSheet.domHalves, List.mem_flatMap, List.mem_range, List.mem_map, List.mem_filter, beq_iff_eq,
    Prod.mk.injEq]
  constructor
  · rintro ⟨m, hm, ⟨q, x⟩, ⟨hq, rfl⟩, rfl, rfl⟩
    exact ⟨hm, hq⟩
  · rintro ⟨hn, hq⟩
    exact ⟨n, hn, (h, d), ⟨hq, rfl⟩, rfl, rfl⟩

/-- A cluster has half 0 with one domain, or halves 0 and 1 with a domain each. -/
theorem cluHalves_cases (cs : CallSheet) (n : Nat) :
    cs.cluHalves n = [] ∨ (∃ a, cs.cluHalves n = [(0, a)]) ∨ ∃ a b, cs.cluHalves n = [(0, a), (1, b)] := by
  unfold CallSheet.cluHalves CluRec.halves
  split
  · split
    · exact .inr (.inr ⟨_, _, rfl⟩)
    · exact .inr (.inl ⟨_, rfl⟩)
  · exact .inl rfl

theorem cluHalves_nodup (cs : CallSheet) (n : Nat) : (cs.cluHalves n).Nodup := by
  obtain h | ⟨a, h⟩ | ⟨a, b, h⟩ := cluHalves_cases cs n <;> simp [h]

/-- A half of a cluster serves one domain. -/
theorem halfDom_unique {n h : Nat} (hd : (h, d) ∈ cs.cluHalves n) (he : (h, e) ∈ cs.cluHalves n) : d = e ∧ h < 2 := by
  obtain hn | ⟨a, hn⟩ | ⟨a, b, hn⟩ := cluHalves_cases cs n <;> rw [hn] at hd he <;> simp at hd he <;> omega

theorem domHalves_lt (h : p ∈ cs.domHalves d) : p.1 < 64 ∧ p.2 < 2 := by
  obtain ⟨hn, hp⟩ := mem_domHalves.1 h
  exact ⟨hn, (halfDom_unique hp hp).2⟩

theorem domHalves_disjoint (h : p ∈ cs.domHalves d) (hne : e ≠ d) : p ∉ cs.domHalves e := fun he =>
  hne (halfDom_unique (mem_domHalves.1 he).2 (mem_domHalves.1 h).2).1

theorem domHalves_nodup (cs : CallSheet) (d : Nat) : (cs.domHalves d).Nodup := by
  unfold CallSheet.domHalves
  rw [List.nodup_flatMap]
  refine ⟨fun n _ => ?_, ?_⟩
  · refine List.Nodup.map_on ?_ ((cluHalves_nodup cs n).filter _)
    rintro ⟨h, x⟩ hx ⟨g, y⟩ hy heq
    simp at hx hy heq
    exact Prod.ext heq (hx.2.trans hy.2.symm)
  · refine List.Pairwise.imp ?_ List.nodup_range
    intro m n hmn q hq hq'
    obtain ⟨_, _, rfl⟩ := List.mem_map.1 hq
    obtain ⟨_, _, heq⟩ := List.mem_map.1 hq'
    exact hmn (congrArg Prod.fst heq).symm

theorem reach_nodup (cs : CallSheet) (u : Nat) : (cs.reach u).Nodup := by
  unfold CallSheet.reach
  split
  · split <;> simp
  · split
    · exact ((List.nodup_range.filter _).filter _).filter _
    · exact List.nodup_nil
  · exact List.nodup_nil

theorem domain_lt_of_uKind {u : Nat} (h : uKind u = .domain d) : d < 128 := by
  unfold uKind at h
  split_ifs at h
  rw [UKind.domain.injEq] at h
  omega

theorem reach_lt {u : Nat} (h : d ∈ cs.reach u) : d < 128 := by
  unfold CallSheet.reach at h
  split at h
  case h_1 x hx =>
    have hlt := domain_lt_of_uKind hx
    split at h
    · rwa [List.mem_singleton.1 h]
    · simp at h
  case h_2 =>
    split at h
    · simp only [CallSheet.grpDoms, CallSheet.domIxs, List.mem_filter, List.mem_range] at h
      obtain ⟨⟨⟨hlt, -⟩, -⟩, -⟩ := h
      exact hlt
    · simp at h
  case h_3 => simp at h

end Reach

/-! ## What the turn of another domain leaves of a domain -/

/-- What an operation sent to one domain leaves of another and of what that rests on: the domain, each cluster's reset,
thresholds and sense codes, the time, the call sheet, VIN and the secure page. -/
structure TurnView where
  dm : Domain
  clus : Nat → Option Nat × Sec1 × Sense
  elapsed : Nat
  csh : Option CallSheet
  vin : Vin
  sec : Secure

def State.turnView (d : Nat) (s : State) : TurnView :=
  ⟨s.dm d, fun m => ((s.cl m).inReset, (s.cl m).s1, (s.cl m).sense), s.elapsed, s.csh, s.vin, s.sec⟩

section View
variable {α : Type} {d x : Nat}

theorem turnView_of_parts {s t : State} (hdom : t.dom = s.dom) (hclu : t.clu = s.clu) (helapsed : t.elapsed = s.elapsed)
    (hcsh : t.csh = s.csh) (hvin : t.vin = s.vin) (hsec : t.sec = s.sec) (d : Nat) : t.turnView d = s.turnView d := by
  unfold State.turnView State.dm State.cl
  rw [hdom, hclu, helapsed, hcsh, hvin, hsec]

/-- The host interface lies outside the view. -/
theorem turnView_host (host : HostIf) (d : Nat) (s : State) : ({ s with host := host } : State).turnView d = s.turnView d :=
  turnView_of_parts rfl rfl rfl rfl rfl rfl d

@[simp] theorem turnView_modCl {f : Cluster → Cluster}
    (hf : ∀ c, ((f c).inReset, (f c).s1, (f c).sense) = (c.inReset, c.s1, c.sense)) (n : Nat) (s : State) :
    (s.modCl n f).turnView d = s.turnView d := by
  have h := funext (vget_vmod_congr (fun c : Cluster => (c.inReset, c.s1, c.sense)) s.clu n f (hf _))
  exact congrArg (fun c => (⟨s.dm d, c, s.elapsed, s.csh, s.vin, s.sec⟩ : TurnView)) h

@[simp] theorem turnView_modHalf (n h : Nat) (f : Half → Half) (s : State) :
    (s.modHalf n h f).turnView d = s.turnView d := by
  unfold State.modHalf
  exact turnView_modCl (by exact fun _ => rfl) n s

@[simp] theorem turnView_modDm_ne (h : x ≠ d) (f : Domain → Domain) (s : State) :
    (s.modDm x f).turnView d = s.turnView d :=
  congrArg (fun y => (⟨y, fun m => ((s.cl m).inReset, (s.cl m).s1, (s.cl m).sense), s.elapsed, s.csh, s.vin, s.sec⟩ :
    TurnView)) (dm_modDm_ne s x d f h)

@[simp] theorem turnView_put (o : Out) (s : State) : (s.put o).turnView d = s.turnView d :=
  turnView_of_parts rfl rfl rfl rfl rfl rfl d

@[simp] theorem turnView_each {f : α → State → State} (hf : ∀ a u, (f a u).turnView d = u.turnView d) (l : List α)
    (s : State) : (each l f s).turnView d = s.turnView d :=
  each_keeps (P := fun u => u.turnView d = s.turnView d) (fun a u hu => (hf a u).trans hu) l rfl

@[simp] theorem turnView_endPart (slot e : Nat) (st : Status) (s : State) :
    (s.endPart slot e st).turnView d = s.turnView d := by
  obtain ⟨host, h⟩ := endPart_hostOnly s slot e st
  rw [h, turnView_host]

@[simp] theorem turnView_supersedes (q : Nat) (new : Option Nat) (s : State) :
    (s.supersedes q new).turnView d = s.turnView d := by
  obtain ⟨host, h⟩ := supersedes_hostOnly s q new
  rw [h, turnView_host]

@[simp] theorem turnView_modCmd (slot : Nat) (f : Cmd → Cmd) (s : State) : (s.modCmd slot f).turnView d = s.turnView d :=
  turnView_of_parts rfl rfl rfl rfl rfl rfl d

@[simp] theorem turnView_dispatched (slot : Nat) (s : State) : (s.dispatched slot).turnView d = s.turnView d :=
  turnView_modCmd _ _ s

@[simp] theorem turnView_wakeClu (n : Nat) (s : State) : (s.wakeClu n).turnView d = s.turnView d := by
  unfold State.wakeClu
  split
  · refine (turnView_of_parts rfl rfl rfl rfl rfl rfl d).trans (turnView_modCl (n := n) (s := s) ?_)
    exact fun _ => rfl
  · exact turnView_modCl (by exact fun _ => rfl) n s

@[simp] theorem turnView_wakeDom (e : Nat) (s : State) : (s.wakeDom e).turnView d = s.turnView d := by
  simp [State.wakeDom]

@[simp] theorem turnView_placeDom (e : Nat) (ch : Change) (s : State) : (s.placeDom e ch).turnView d = s.turnView d := by
  simp [State.placeDom, State.placeChange]

@[simp] theorem turnView_startDomain_ne (h : x ≠ d) (cmd : Option Nat) (s : State) :
    (s.startDomain x cmd).turnView d = s.turnView d := turnView_modDm_ne h _ s

@[simp] theorem turnView_clearCmd_ne (h : x ≠ d) (s : State) : (s.clearCmd x).turnView d = s.turnView d := by
  simp [State.clearCmd, h]

@[simp] theorem turnView_accrue (n : Nat) (s : State) : (s.accrue n).turnView d = s.turnView d := by
  simp [State.accrue]

@[simp] theorem turnView_withdraw (n h : Nat) (s : State) : (s.withdraw n h).turnView d = s.turnView d := by
  simp [State.withdraw]

@[simp] theorem turnView_revokeHalf (n h : Nat) (s : State) : (s.revokeHalf n h).turnView d = s.turnView d := by
  simp [State.revokeHalf]

@[simp] theorem turnView_fillZero (n h : Nat) (s : State) : (s.fillZero n h).turnView d = s.turnView d := by
  simp [State.fillZero]

@[simp] theorem turnView_stageOpen_ne (h : x ≠ d) (s : State) : (s.stageOpen x).turnView d = s.turnView d := by
  unfold State.stageOpen State.modStg
  dsimp only
  split_ifs <;> simp [h]

end View

section OfView
variable {s t : State} {d : Nat}

theorem dm_of_view (h : t.turnView d = s.turnView d) : t.dm d = s.dm d := congrArg TurnView.dm h

theorem elapsed_of_view (h : t.turnView d = s.turnView d) : t.elapsed = s.elapsed := congrArg TurnView.elapsed h

theorem vin_of_view (h : t.turnView d = s.turnView d) : t.vin = s.vin := congrArg TurnView.vin h

theorem sheet_of_view (h : t.turnView d = s.turnView d) : t.sheet = s.sheet :=
  congrArg (fun cs : Option CallSheet => cs.getD {}) (congrArg TurnView.csh h)

theorem domInReset_of_view (h : t.turnView d = s.turnView d) (e : Nat) : t.domInReset e = s.domInReset e := by
  have hreset (m : Nat) : (t.cl m).inReset = (s.cl m).inReset := congrArg Prod.fst (congrFun (congrArg TurnView.clus h) m)
  simp only [State.domInReset, sheet_of_view h, hreset]

theorem startNs_of_view (h : t.turnView d = s.turnView d) : t.startNs d = s.startNs d := by
  have hsec : t.sec = s.sec := congrArg TurnView.sec h
  have hs1 (m : Nat) : (t.cl m).s1 = (s.cl m).s1 :=
    congrArg (fun q => q.2.1) (congrFun (congrArg TurnView.clus h) m)
  have hsense (m : Nat) : (t.cl m).sense = (s.cl m).sense :=
    congrArg (fun q => q.2.2) (congrFun (congrArg TurnView.clus h) m)
  simp only [State.startNs, State.cellTh, State.tgtInForce, State.soaCeil, State.vfCeiling, State.code, sheet_of_view h,
    dm_of_view h, hsec, hs1, hsense]

end OfView

/-! ## A command with a part for each domain (13 R414, 11 R368) -/

section Parts
variable {s : State} {d slot : Nat} {ds : List Nat} {f : Nat → State → State}

/-- The part of a command in one domain: it ends at once where a cluster is in reset. -/
def State.partOf (slot : Nat) (f : Nat → State → State) (d : Nat) (s : State) : State :=
  if s.domInReset d then s.endPart slot d .abortedReset else f d (s.wakeDom d)

theorem perDomain_of_mem (hd : d ∈ ds) :
    s.perDomain slot ds f = each ds (State.partOf slot f) (s.modCmd slot (fun c => { c with parts := ds })) := by
  unfold State.perDomain
  rw [if_neg (by simp [List.ne_nil_of_mem hd])]
  rfl

/-- The part of another domain leaves a domain's view, where the operation sent to it does. -/
theorem partOf_view_ne (hother : ∀ x, x ≠ d → ∀ u, (f x u).turnView d = u.turnView d) {x : Nat} (hx : x ≠ d) (u : State) :
    (u.partOf slot f x).turnView d = u.turnView d := by
  unfold State.partOf
  split
  · exact turnView_endPart _ _ _ u
  · rw [hother x hx, turnView_wakeDom]

theorem partOf_eq (hreset : s.domInReset d = false) : s.partOf slot f d = f d (s.wakeDom d) := by
  rw [State.partOf, hreset, if_neg Bool.false_ne_true]

/-- What the operation sent to a domain makes of it in the state it was in holds of the domain at the end. -/
theorem perDomain_dm {Q : Domain → Prop} (hd : d ∈ ds) (hnodup : ds.Nodup) (hreset : s.domInReset d = false)
    (hother : ∀ x, x ≠ d → ∀ u, (f x u).turnView d = u.turnView d)
    (hown : ∀ u, u.turnView d = s.turnView d → Q ((f d u).dm d)) : Q ((s.perDomain slot ds f).dm d) := by
  rw [perDomain_of_mem hd]
  refine each_turn (P := fun u => u.turnView d = s.turnView d) (Q := fun u => Q (u.dm d)) ?_ ?_ ?_ hd hnodup
    (turnView_modCmd _ _ s)
  · exact fun x hx u hu => (partOf_view_ne hother hx u).trans hu
  · intro u hu
    rw [partOf_eq ((domInReset_of_view hu d).trans hreset)]
    exact hown _ ((turnView_wakeDom d u).trans hu)
  · intro x hx u hu
    rwa [dm_of_view (partOf_view_ne hother hx u)]

end Parts

/-! ## The halves that a set-point reaches (04 R126, R128) -/

section Halves
variable {s : State} {d n h : Nat} {p : Nat × Nat}

theorem half_modHalf_ne (hp : p ≠ (n, h)) (f : Half → Half) (s : State) :
    (s.modHalf p.1 p.2 f).half n h = s.half n h := by
  by_cases hh : p.2 = h
  · have hn : p.1 ≠ n := fun hn => hp (Prod.ext hn hh)
    unfold State.half State.modHalf
    rw [cl_modCl_ne _ _ _ _ hn]
  · refine modCl_keeps (P := fun c => vget c.halves h = s.half n h) ?_ rfl p.1
    exact fun c hc => (vget_vmod_ne _ _ _ _ hh).trans hc

theorem half_wakeClu (m n h : Nat) (s : State) : (s.wakeClu m).half n h = s.half n h := by
  unfold State.wakeClu
  split
  · refine modCl_keeps (P := fun c => vget c.halves h = s.half n h) ?_ rfl m
    exact fun c hc => hc
  · refine modCl_keeps (P := fun c => vget c.halves h = s.half n h) ?_ rfl m
    exact fun c hc => hc

theorem half_wakeDom (d n h : Nat) (s : State) : (s.wakeDom d).half n h = s.half n h := by
  unfold State.wakeDom
  refine each_keeps (P := fun u => u.half n h = s.half n h) (fun p u hu => ?_) _ rfl
  exact (half_wakeClu p.1 n h u).trans hu

theorem half_endPart (slot d : Nat) (st : Status) (n h : Nat) (s : State) : (s.endPart slot d st).half n h = s.half n h := by
  obtain ⟨host, heq⟩ := endPart_hostOnly s slot d st
  rw [heq]
  rfl

theorem half_placeDom_of_notMem (hp : (n, h) ∉ s.sheet.domHalves d) (ch : Change) :
    (s.placeDom d ch).half n h = s.half n h := by
  unfold State.placeDom
  refine each_keeps_of_mem (P := fun u => u.half n h = s.half n h) (fun q hq u hu => ?_) rfl
  exact (half_modHalf_ne (fun heq => hp (heq ▸ hq)) _ u).trans hu

/-- A change placed in a domain comes behind those that wait in each of its halves. -/
theorem placeDom_chg (hp : p ∈ s.sheet.domHalves d) (ch : Change) :
    ((s.placeDom d ch).half p.1 p.2).ramp.chg = (s.half p.1 p.2).ramp.chg ++ [ch] := by
  obtain ⟨hn, hh⟩ := domHalves_lt hp
  refine each_turn (P := fun u => u.half p.1 p.2 = s.half p.1 p.2)
    (Q := fun u => (u.half p.1 p.2).ramp.chg = (s.half p.1 p.2).ramp.chg ++ [ch]) ?_ ?_ ?_ hp (domHalves_nodup _ _) rfl
  · exact fun q hq u hu => (half_modHalf_ne hq _ u).trans hu
  · intro u hu
    show ((u.modHalf p.1 p.2 _).half p.1 p.2).ramp.chg = _
    rw [half_modHalf _ _ _ _ hn hh, hu]
  · intro q hq u hu
    show ((u.modHalf q.1 q.2 _).half p.1 p.2).ramp.chg = _
    rw [half_modHalf_ne hq]
    exact hu

end Halves

section SetPoints
variable {s : State} {d slot code rate : Nat} {c : Cmd} {p : Nat × Nat}

/-- The part of a set-point in another domain leaves the halves of a domain as they are. -/
theorem half_partOf_ne {x : Nat} (hx : x ≠ d) (hp : p ∈ s.sheet.domHalves d) (ch : Change) :
    (s.partOf slot (fun e u => u.placeDom e ch) x).half p.1 p.2 = s.half p.1 p.2 := by
  unfold State.partOf
  split
  · exact half_endPart _ _ _ _ _ s
  · rw [half_placeDom_of_notMem, half_wakeDom]
    rw [sheet_of_view (turnView_wakeDom (d := x) x s)]
    exact domHalves_disjoint hp hx

/-- Each half of a domain that a set-point command reaches has the change behind those that wait there. -/
theorem setPoint_chg (hd : d ∈ s.sheet.reach c.unit) (hreset : s.domInReset d = false) (hp : p ∈ s.sheet.domHalves d) :
    ((s.setPoint slot code rate c).half p.1 p.2).ramp.chg = (s.half p.1 p.2).ramp.chg ++
      [{ tgt := code, rate, cmd := some slot, shot := false }] := by
  have hother (x : Nat) (_ : x ≠ d) (u : State) :
      (u.placeDom x { tgt := code, rate, cmd := some slot, shot := false }).turnView d = u.turnView d :=
    turnView_placeDom _ _ u
  unfold State.setPoint
  rw [perDomain_of_mem hd]
  refine (each_turn (P := fun u => u.turnView d = s.turnView d ∧ u.half p.1 p.2 = s.half p.1 p.2)
    (Q := fun u => u.turnView d = s.turnView d ∧ (u.half p.1 p.2).ramp.chg = (s.half p.1 p.2).ramp.chg ++
      [{ tgt := code, rate, cmd := some slot, shot := false }]) ?_ ?_ ?_ hd (reach_nodup _ _)
    ⟨turnView_modCmd _ _ s, rfl⟩).2
  · rintro x hx u ⟨hview, hhalf⟩
    have hp' : p ∈ u.sheet.domHalves d := by rwa [sheet_of_view hview]
    exact ⟨(partOf_view_ne hother hx u).trans hview, (half_partOf_ne hx hp' _).trans hhalf⟩
  · rintro u ⟨hview, hhalf⟩
    have hwake : (u.wakeDom d).turnView d = s.turnView d := (turnView_wakeDom d u).trans hview
    rw [partOf_eq ((domInReset_of_view hview d).trans hreset)]
    refine ⟨(turnView_placeDom _ _ _).trans hwake, ?_⟩
    rw [placeDom_chg (by rwa [sheet_of_view hwake]), half_wakeDom, hhalf]
  · rintro x hx u ⟨hview, hchg⟩
    have hp' : p ∈ u.sheet.domHalves d := by rwa [sheet_of_view hview]
    exact ⟨(partOf_view_ne hother hx u).trans hview, by rw [half_partOf_ne hx hp', hchg]⟩

theorem exec_setTarget_of_chosen {slot : Slot} (h : Chosen s slot 0x02 c) : exec (.setTarget slot) s =
    .next ((s.dispatched slot).setPoint slot (c.opnd 2 0 12) s.sheet.s2.slewDef c) :=
  congrArg Host.Outcome.next (opRow_of_chosen h _ _ _)

theorem exec_ramp_of_chosen {slot : Slot} (h : Chosen s slot 0x03 c) : exec (.ramp slot) s =
    .next ((s.dispatched slot).setPoint slot (c.opnd 2 0 12) (c.opnd 2 12 8) c) :=
  congrArg Host.Outcome.next (opRow_of_chosen h _ _ _)

/-- A chosen command with a part for each domain is over at once when it reaches none. -/
theorem perDomain_completed {slot : Slot} {opc : Nat} (h : Chosen s slot opc c) {ds : List Nat} (hds : ds = [])
    (f : Nat → State → State) : Completed s ((s.dispatched slot).perDomain slot ds f) slot .done 0 := by
  subst hds
  exact completed_dispatched h _ _

end SetPoints

/-! ## Switching domains on and off (11 R357, R361) -/

section On
variable {s : State} {d : Nat} {slot : Slot} {c : Cmd}

theorem exec_domainOn_of_refused (h : Chosen s slot 0x04 c) {st : Status} {res : Nat} (hcheck : onCheck c s = some (st, res)) :
    exec (.domainOn slot) s = .next ((s.dispatched slot).complete slot st res) := by
  have hcheck' : onCheck c (s.dispatched slot) = some (st, res) := hcheck
  refine congrArg Host.Outcome.next ((opRow_of_chosen h _ _ _).trans ?_)
  rw [hcheck']

theorem exec_domainOn_of_passed (h : Chosen s slot 0x04 c) (hcheck : onCheck c s = none) : exec (.domainOn slot) s =
    .next ((s.dispatched slot).perDomain slot (s.sheet.reach c.unit) (fun d s => s.startDomain d (some slot))) := by
  have hcheck' : onCheck c (s.dispatched slot) = none := hcheck
  refine congrArg Host.Outcome.next ((opRow_of_chosen h _ _ _).trans ?_)
  rw [hcheck']
  rfl

/-- A domain on its way on for the command in a slot: its cells have until `runBy` to run (R357). -/
def Domain.SwitchingOn (slot stages runBy : Nat) (y : Domain) : Prop :=
  y.on = true ∧ y.modeOff = false ∧ y.stages = stages ∧
    ∃ g, y.stg = some g ∧ g.closing = true ∧ g.cmd = some slot ∧ g.waitRun = true ∧ g.runBy = runBy

theorem startDomain_switchingOn (hd : d < 128) (slot : Nat) (s : State) :
    ((s.startDomain d (some slot)).dm d).SwitchingOn slot (s.dm d).stages (s.elapsed + s.startNs d) := by
  unfold State.startDomain
  rw [dm_modDm _ _ _ hd]
  exact ⟨rfl, rfl, rfl, _, rfl, rfl, rfl, rfl, rfl⟩

theorem perDomain_startDomain (hd : d ∈ s.sheet.reach c.unit) (hreset : s.domInReset d = false) :
    ((s.perDomain slot (s.sheet.reach c.unit) (fun d s => s.startDomain d (some slot.val))).dm d).SwitchingOn slot
      (s.dm d).stages (s.elapsed + s.startNs d) := by
  refine perDomain_dm (Q := Domain.SwitchingOn slot (s.dm d).stages (s.elapsed + s.startNs d)) hd (reach_nodup _ _) hreset
    (fun x hx u => turnView_startDomain_ne hx _ u) fun u hu => ?_
  rw [← elapsed_of_view hu, ← startNs_of_view hu, ← dm_of_view hu]
  exact startDomain_switchingOn (reach_lt hd) slot u

end On

section Off
variable {s : State} {d q : Nat} {slot : Slot} {c : Cmd}

/-- DOMAIN_OFF ends the set-point command that a domain awaits (R369). -/
def State.offAwaited (d slot : Nat) (s : State) : State :=
  match (s.dm d).cmd with
  | some q => ((s.supersedes q (some slot)).endPart q d .abortedDisabled).clearCmd d
  | none => s

/-- DOMAIN_OFF ends the set-point commands that wait for their boundary, and takes the domain's grants and filler back. -/
def State.offPlaced (d slot : Nat) (s : State) : State :=
  let qs := ((s.sheet.domHalves d).flatMap (fun p => (s.half p.1 p.2).ramp.chg.filterMap (fun (c : Change) => c.cmd))).eraseDups
  let s := each qs (fun q s => (s.supersedes q (some slot)).endPart q d .abortedDisabled) s
  let s := each (s.sheet.domHalves d) (fun p s => s.modHalf p.1 p.2 (fun x => { x with ramp := { x.ramp with
    chg := x.ramp.chg.filter (fun (c : Change) => c.cmd.isNone) } })) s
  each (s.sheet.domHalves d) (fun p s => ((s.withdraw p.1 p.2).revokeHalf p.1 p.2).fillZero p.1 p.2) s

/-- The sequence of a domain whose stages are to open. -/
def State.offStage (d slot : Nat) (s : State) : State :=
  s.modDm d (fun x => { x with
    nbWait := false
    stg := some { closing := false, cmd := some slot, waitRun := false, runBy := 0, nextAt := none, waitBy := none
                  settleBy := none, case_ := 0, paused := false, froze := [] } })

theorem startOff_eq (d slot : Nat) (s : State) :
    s.startOff d slot = (((s.offAwaited d slot).offPlaced d slot).offStage d slot).stageOpen d := rfl

theorem turnView_offPlaced (e : Nat) (d slot : Nat) (s : State) : (s.offPlaced d slot).turnView e = s.turnView e := by
  simp [State.offPlaced]

theorem turnView_offAwaited_ne {x : Nat} (h : x ≠ d) (slot : Nat) (s : State) :
    (s.offAwaited x slot).turnView d = s.turnView d := by
  unfold State.offAwaited
  split <;> simp [h]

theorem turnView_startOff_ne {x : Nat} (h : x ≠ d) (slot : Nat) (s : State) :
    (s.startOff x slot).turnView d = s.turnView d := by
  rw [startOff_eq, turnView_stageOpen_ne h, State.offStage, turnView_modDm_ne h, turnView_offPlaced, turnView_offAwaited_ne h]

/-- The set-point command of a domain is over; nothing else of the domain changes. -/
theorem clearCmd_dm (hd : d < 128) (s : State) : (s.clearCmd d).dm d = { s.dm d with cmd := none } := by
  unfold State.clearCmd
  refine each_keeps (P := fun u => u.dm d = { s.dm d with cmd := none }) ?_ _ (dm_modDm _ _ _ hd)
  exact fun p u hu => hu

/-- No set-point command awaits the domain any more, and its stages are as they were. -/
theorem offAwaited_dm (hd : d < 128) (slot : Nat) (s : State) :
    ((s.offAwaited d slot).dm d).cmd = none ∧ ((s.offAwaited d slot).dm d).stages = (s.dm d).stages := by
  unfold State.offAwaited
  split
  case h_1 q _ =>
    have hview : ((s.supersedes q (some slot)).endPart q d .abortedDisabled).turnView d = s.turnView d := by simp
    rw [clearCmd_dm hd, dm_of_view hview]
    exact ⟨rfl, rfl⟩
  case h_2 h => exact ⟨h, rfl⟩

/-- What DOMAIN_OFF takes back leaves the time, the call sheet and VIN, which another domain's view shows. -/
theorem offPlaced_time (d slot : Nat) (s : State) : ((s.offAwaited d slot).offPlaced d slot).elapsed = s.elapsed ∧
    ((s.offAwaited d slot).offPlaced d slot).sheet = s.sheet ∧ ((s.offAwaited d slot).offPlaced d slot).vin = s.vin := by
  have hview : ((s.offAwaited d slot).offPlaced d slot).turnView (d + 1) = s.turnView (d + 1) := by
    rw [turnView_offPlaced, turnView_offAwaited_ne (Nat.succ_ne_self d).symm]
  exact ⟨elapsed_of_view hview, sheet_of_view hview, vin_of_view hview⟩

/-- A domain on its way off for the command in a slot: stage 8 opens at once, or waits while the VIN reason is set (R361). -/
def Domain.SwitchingOff (slot : Nat) (dip : Bool) (nextAt : Nat) (y : Domain) : Prop :=
  y.stages = (if dip then 8 else 7) ∧ y.cmd = none ∧
    ∃ g, y.stg = some g ∧ g.closing = false ∧ g.cmd = some slot ∧
      g.nextAt = (if dip then none else some nextAt) ∧ g.paused = dip

theorem stageOpen_switchingOff (hd : d < 128) (slot : Nat) (hstages : (s.dm d).stages = 8) (hcmd : (s.dm d).cmd = none) :
    (((s.offStage d slot).stageOpen d).dm d).SwitchingOff slot s.vin.dip (s.elapsed + s.sheet.stageT d) := by
  have hdm : ((s.offStage d slot).dm d) = { s.dm d with
    nbWait := false
    stg := some { closing := false, cmd := some slot, waitRun := false, runBy := 0, nextAt := none, waitBy := none
                  settleBy := none, case_ := 0, paused := false, froze := [] } } := dm_modDm _ _ _ hd
  have hst : ((s.offStage d slot).dm d).stages = 8 := by rw [hdm]; exact hstages
  have hvin : (s.offStage d slot).vin = s.vin := rfl
  unfold State.stageOpen State.modStg
  simp only [hst, hvin]
  cases hdip : s.vin.dip
  · simp [dm_modDm _ _ _ hd, hdm, Domain.SwitchingOff, hcmd]
    rfl
  · simp [dm_modDm _ _ _ hd, hdm, Domain.SwitchingOff, hstages, hcmd]

theorem startOff_switchingOff (hd : d < 128) (slot : Nat) (hstages : (s.dm d).stages = 8) :
    ((s.startOff d slot).dm d).SwitchingOff slot s.vin.dip (s.elapsed + s.sheet.stageT d) := by
  obtain ⟨hcmd, hkept⟩ := offAwaited_dm hd slot s
  obtain ⟨helapsed, hsheet, hvin⟩ := offPlaced_time d slot s
  have hdm := dm_of_view (turnView_offPlaced d d slot (s.offAwaited d slot))
  rw [startOff_eq, ← helapsed, ← hsheet, ← hvin]
  exact stageOpen_switchingOff hd slot (by rw [hdm, hkept, hstages]) (by rw [hdm, hcmd])

theorem perDomain_startOff (hd : d ∈ s.sheet.reach c.unit) (hreset : s.domInReset d = false)
    (hstages : (s.dm d).stages = 8) :
    ((s.perDomain slot (s.sheet.reach c.unit) (fun d s => s.startOff d slot)).dm d).SwitchingOff slot s.vin.dip
      (s.elapsed + s.sheet.stageT d) := by
  refine perDomain_dm (Q := Domain.SwitchingOff slot s.vin.dip (s.elapsed + s.sheet.stageT d)) hd (reach_nodup _ _) hreset
    (fun x hx u => turnView_startOff_ne hx _ u) fun u hu => ?_
  rw [← elapsed_of_view hu, ← vin_of_view hu, ← sheet_of_view hu]
  exact startOff_switchingOff (reach_lt hd) slot (by rw [dm_of_view hu, hstages])

/-- DOMAIN_OFF passes its check only where every domain it reaches is on. -/
theorem stages_of_offCheck (hcheck : offCheck c s = none) (hd : d ∈ s.sheet.reach c.unit) : (s.dm d).stages = 8 := by
  unfold offCheck State.dgCheck at hcheck
  split at hcheck
  · cases hcheck
  · have hone := List.findSome?_eq_none_iff.1 hcheck d hd
    by_contra hst
    have hoff : s.isOn d = false := by simp [State.isOn, hst]
    simp [hoff, badState] at hone

theorem exec_domainOff_of_refused (h : Chosen s slot 0x05 c) {st : Status} {res : Nat}
    (hcheck : offCheck c s = some (st, res)) : exec (.domainOff slot) s = .next ((s.dispatched slot).complete slot st res) := by
  have hcheck' : offCheck c (s.dispatched slot) = some (st, res) := hcheck
  refine congrArg Host.Outcome.next ((opRow_of_chosen h _ _ _).trans ?_)
  rw [hcheck']

theorem exec_domainOff_of_passed (h : Chosen s slot 0x05 c) (hcheck : offCheck c s = none) : exec (.domainOff slot) s =
    .next ((s.dispatched slot).perDomain slot (s.sheet.reach c.unit) (fun d s => s.startOff d slot)) := by
  have hcheck' : offCheck c (s.dispatched slot) = none := hcheck
  refine congrArg Host.Outcome.next ((opRow_of_chosen h _ _ _).trans ?_)
  rw [hcheck']
  rfl

end Off

/-! ## NOP, FENCE, credits and caps (13 R414, R419, 07 R245, 10 R331) -/

section NoParts
variable {s : State} {d : Nat} {slot : Slot} {c : Cmd} {ds : List Nat} {f : Domain → Domain}

/-- NOP is DONE when it is validated (R419): it names no unit and no context, so its ring's scope is never left. -/
theorem nop_completed (h : Arrived s slot 0x00 c) : ∃ t, exec (.nop slot) s = .next t ∧ Completed s t slot .done 0 := by
  have hrefused := h
  obtain ⟨⟨_, hcmd, hopc, hstage⟩, _⟩ := h
  have hscope : s.inScope c = true := by simp [State.inScope, Cmd.cls, opClass, hopc]
  exact ⟨_, congrArg Host.Outcome.next (opRow_of_refused hrefused hscope rfl rfl _),
    complete_completed hcmd (by simp [hstage]) _ _⟩

/-- FENCE is DONE when it is dispatched (R414). -/
theorem fence_completed (h : Chosen s slot 0x01 c) : ∃ t, exec (.fence slot) s = .next t ∧ Completed s t slot .done 0 :=
  ⟨_, congrArg Host.Outcome.next (opRow_of_chosen h _ _ _), completed_dispatched h _ _⟩

/-- One change made to each of some domains touches the domains alone. -/
theorem each_modDm_domOnly (ds : List Nat) (f : Domain → Domain) (s : State) :
    ∃ dom, each ds (fun d s => s.modDm d f) s = { s with dom := dom } := by
  refine each_keeps (P := fun u => ∃ dom, u = { s with dom := dom }) ?_ ds ⟨_, rfl⟩
  rintro d _ ⟨dom, rfl⟩
  exact ⟨_, rfl⟩

/-- One change made to each of some domains reaches each of them once. -/
theorem dm_each_modDm (hd : d ∈ ds) (hnodup : ds.Nodup) (hlt : d < 128) (f : Domain → Domain) (s : State) :
    (each ds (fun d s => s.modDm d f) s).dm d = f (s.dm d) := by
  refine each_turn (P := fun u => u.dm d = s.dm d) (Q := fun u => u.dm d = f (s.dm d)) ?_ ?_ ?_ hd hnodup rfl
  · exact fun x hx u hu => (dm_modDm_ne u x d f hx).trans hu
  · exact fun u hu => (dm_modDm u d f hlt).trans (congrArg f hu)
  · exact fun x hx u hu => (dm_modDm_ne u x d f hx).trans hu

/-- The ILIM and SLOPE of a CREDIT_CONFIG left in a domain for the next broadcast (R245). -/
def Domain.awaitConfig (slot : Nat) (c : Cmd) (x : Domain) : Domain :=
  { x with cfgWait := some (slot, c.opnd 2 0 16, c.opnd 2 16 16) }

theorem exec_creditConfig_of_chosen (h : Chosen s slot 0x0E c) : exec (.creditConfig slot) s =
    .next (if (s.sheet.reach c.unit).isEmpty then (s.dispatched slot).complete slot .done 0
      else each (s.sheet.reach c.unit) (fun d s => s.modDm d (Domain.awaitConfig slot c)) (s.dispatched slot)) :=
  congrArg Host.Outcome.next (opRow_of_chosen h _ _ _)

theorem creditConfig_awaits (h : Chosen s slot 0x0E c) :
    ∃ t, exec (.creditConfig slot) s = .next t ∧ (s.sheet.reach c.unit = [] → Completed s t slot .done 0) ∧
      t.clu = s.clu ∧ ∀ d ∈ s.sheet.reach c.unit, t.dm d = (s.dm d).awaitConfig slot c := by
  refine ⟨_, exec_creditConfig_of_chosen h, ?_⟩
  by_cases hnone : s.sheet.reach c.unit = []
  · rw [hnone, List.isEmpty_nil, if_pos rfl, complete_clu]
    exact ⟨fun _ => completed_dispatched h _ _, rfl, fun d hd => absurd hd List.not_mem_nil⟩
  · rw [if_neg (by simpa using hnone)]
    obtain ⟨dom, hdom⟩ := each_modDm_domOnly (s.sheet.reach c.unit) (Domain.awaitConfig slot c) (s.dispatched slot)
    refine ⟨fun hno => absurd hno hnone, ?_, fun d hd => dm_each_modDm hd (reach_nodup _ _) (reach_lt hd) _ _⟩
    rw [hdom]
    rfl

theorem exec_capSet_of_ceiling (h : Chosen s slot 0x0F c) (hmode : c.opnd 2 0 1 = 0) : exec (.capSet slot) s =
    .next (each (s.sheet.reach c.unit) (fun d s => s.modDm d (fun x => { x with ceilW := c.opnd 2 16 16 }))
      ((s.dispatched slot).modCmd slot (fun x => { x with wait := 1 }))) := by
  refine congrArg Host.Outcome.next ((opRow_of_chosen h _ _ _).trans ?_)
  rw [hmode]
  rfl

theorem exec_capSet_of_caps {x : Sec6} (h : Chosen s slot 0x0F c) (hmode : c.opnd 2 0 1 = 1) (hops : capOps c = some x) :
    exec (.capSet slot) s = .next (({ s.dispatched slot with pow := { s.pow with caps := x } } : State).modCmd slot
      (fun y => { y with wait := 2 })) := by
  refine congrArg Host.Outcome.next ((opRow_of_chosen h _ _ _).trans ?_)
  rw [hmode, hops]
  rfl

/-- CAP_SET MODE 0 sets the ceilings of its domains and waits for the next broadcast (R331). -/
theorem capSet_ceiling (h : Chosen s slot 0x0F c) (hmode : c.opnd 2 0 1 = 0) {t : State}
    (ht : exec (.capSet slot) s = .next t) : Running t slot ∧ t.pow = s.pow ∧ (∀ x, t.cmd? slot = some x → x.wait = 1) ∧
      ∀ d ∈ s.sheet.reach c.unit, t.dm d = { s.dm d with ceilW := c.opnd 2 16 16 } := by
  cases (exec_capSet_of_ceiling h hmode).symm.trans ht
  have hcmd := cmd?_modCmd_same (cmd?_dispatched h) (fun x : Cmd => { x with wait := 1 })
  have hdm (d : Nat) (hd : d ∈ s.sheet.reach c.unit) := dm_each_modDm hd (reach_nodup _ _) (reach_lt hd)
    (fun x => { x with ceilW := c.opnd 2 16 16 }) ((s.dispatched slot).modCmd slot (fun x => { x with wait := 1 }))
  obtain ⟨dom, hdom⟩ := each_modDm_domOnly (s.sheet.reach c.unit) (fun x => { x with ceilW := c.opnd 2 16 16 })
    ((s.dispatched slot).modCmd slot (fun x => { x with wait := 1 }))
  rw [hdom] at hdm ⊢
  refine ⟨⟨_, hcmd, rfl⟩, rfl, fun x hx => ?_, hdm⟩
  cases hcmd.symm.trans hx
  rfl

/-- CAP_SET MODE 1 sets the chip cap and the fractions and waits for two broadcasts (R331). -/
theorem capSet_caps {x : Sec6} (h : Chosen s slot 0x0F c) (hmode : c.opnd 2 0 1 = 1) (hops : capOps c = some x) {t : State}
    (ht : exec (.capSet slot) s = .next t) : Running t slot ∧ t.pow = { s.pow with caps := x } ∧ t.dom = s.dom ∧
      ∀ y, t.cmd? slot = some y → y.wait = 2 := by
  cases (exec_capSet_of_caps h hmode hops).symm.trans ht
  have hcmd := cmd?_modCmd_same (s := { s.dispatched slot with pow := { s.pow with caps := x } }) (cmd?_dispatched h)
    (fun y : Cmd => { y with wait := 2 })
  refine ⟨⟨_, hcmd, rfl⟩, rfl, rfl, fun y hy => ?_⟩
  cases hcmd.symm.trans hy
  rfl

end NoParts

/-- Settles O13: a command that arbitrate has chosen runs on its dispatched state; where it has a part for each domain it
reaches, the parts of the other domains leave a domain's view as it was, so its own part finds the domain as it stood. -/
theorem domainCommandsComplete : Obligations.DomainCommandsComplete := by
  unfold Obligations.DomainCommandsComplete
  refine fun slot c s => ⟨nop_completed, fence_completed, fun h => ?_, fun h => ?_, fun h => ⟨?_, ?_⟩, fun h => ⟨?_, ?_⟩,
    creditConfig_awaits, fun h => ⟨_, congrArg Host.Outcome.next (opRow_of_chosen h _ _ _), ?_, ?_⟩⟩
  · refine ⟨_, exec_setTarget_of_chosen h, fun hnone => perDomain_completed h hnone _, fun d hd hreset p hp => ?_⟩
    exact setPoint_chg hd hreset hp
  · refine ⟨_, exec_ramp_of_chosen h, fun hnone => perDomain_completed h hnone _, fun d hd hreset p hp => ?_⟩
    exact setPoint_chg hd hreset hp
  · exact fun st res hcheck => ⟨_, exec_domainOn_of_refused h hcheck, completed_dispatched h _ _, complete_dom _ _ _ _⟩
  · refine fun hcheck => ⟨_, exec_domainOn_of_passed h hcheck, fun hnone => perDomain_completed h hnone _, fun d hd hreset => ?_⟩
    exact perDomain_startDomain (s := s.dispatched slot) hd hreset
  · exact fun st res hcheck => ⟨_, exec_domainOff_of_refused h hcheck, completed_dispatched h _ _, complete_dom _ _ _ _⟩
  · refine fun hcheck => ⟨_, exec_domainOff_of_passed h hcheck, fun hnone => perDomain_completed h hnone _, fun d hd hreset => ?_⟩
    exact perDomain_startOff (s := s.dispatched slot) hd hreset (stages_of_offCheck hcheck hd)
  · exact fun hmode => capSet_ceiling h hmode (congrArg Host.Outcome.next (opRow_of_chosen h _ _ _))
  · exact fun x hmode hops => capSet_caps h hmode hops (congrArg Host.Outcome.next (opRow_of_chosen h _ _ _))

end Sys2Proof.Machine
end

section
/-! PROOFS. The next broadcast instant and its grid (05 R150): which rows place it, and that the others leave it. -/

namespace Sys2Proof.Machine
open Sys2Proof

/-! ## The broadcast instant as one of the calm parts -/

/-- The broadcast instant is one of the parts that only a few operations change: what leaves those parts leaves it. -/
theorem busAt_eq_calm (s : State) : s.busAt = s.calm.busAt := rfl

/-- Where an outcome is a next state, its broadcast instant is that of `s`. -/
def KeepsBus (s : State) : Host.Outcome State Fault Refusal → Prop
  | .next t => t.calm.busAt = s.calm.busAt
  | _ => True

section Combinators
variable {α : Type}

@[simp] theorem keepsBus_next (s t : State) : KeepsBus s (.next t) ↔ t.calm.busAt = s.calm.busAt := Iff.rfl

@[simp] theorem keepsBus_ite (c : Prop) [Decidable c] (s : State) (o o' : Host.Outcome State Fault Refusal) :
    KeepsBus s (if c then o else o') ↔ if c then KeepsBus s o else KeepsBus s o' := by
  split <;> rfl

@[simp] theorem busAt_calm_ite (c : Prop) [Decidable c] (s t : State) :
    (if c then s else t).calm.busAt = if c then s.calm.busAt else t.calm.busAt :=
  apply_ite (fun u : State => u.calm.busAt) c s t

@[simp] theorem busAt_each {f : α → State → State} (h : ∀ x s, (f x s).calm.busAt = s.calm.busAt) (l : List α)
    (s : State) : (each l f s).calm.busAt = s.calm.busAt :=
  each_keeps (P := fun t => t.calm.busAt = s.calm.busAt) (fun x t ht => (h x t).trans ht) l rfl

end Combinators

/-! ## Shared operations that carry an action -/

@[simp] theorem busAt_opRow {act : Cmd → State → State} (h : ∀ c s, (act c s).calm.busAt = s.calm.busAt)
    (slot opc : Nat) (limits : Cmd → Bool) (check : Cmd → State → Option (Status × Nat)) (s : State) :
    (s.opRow slot opc limits check act).calm.busAt = s.calm.busAt := by
  unfold State.opRow
  dsimp only
  repeat' split
  all_goals simp [h]

@[simp] theorem busAt_regWrite {f : Reg → State → State} (h : ∀ r s, (f r s).calm.busAt = s.calm.busAt) (row : Instr)
    (id off : Nat) (s : State) : (s.regWrite row id off f).calm.busAt = s.calm.busAt := by
  unfold State.regWrite
  repeat' split
  all_goals simp [h, busAt_eq_calm, State.calm_mk]

@[simp] theorem busAt_recvMk {act : State → State} (h : ∀ s, (act s).calm.busAt = s.calm.busAt) (p k : Nat)
    (pay : BitVec 16) (chk : BitVec 8) (up pair : Bool) (s : State) :
    (s.recvMk p k pay chk up pair act).calm.busAt = s.calm.busAt := by
  unfold State.recvMk
  dsimp only
  repeat' split
  all_goals simp [h]

@[simp] theorem busAt_recvCtrl {act : State → State} (h : ∀ s, (act s).calm.busAt = s.calm.busAt) (p op : Nat)
    (arg : BitVec 12) (chk : BitVec 8) (up : Bool) (s : State) :
    (s.recvCtrl p op arg chk up act).calm.busAt = s.calm.busAt := by
  unfold State.recvCtrl
  simp [h]

@[simp] theorem busAt_regStore (id : Nat) (v : Word32) (be : BitVec 4) (r : Reg) (s : State) :
    (s.regStore id v be r).calm.busAt = s.calm.busAt := by
  obtain ⟨e, h | ⟨n, h⟩⟩ := State.regStore_calm id v be r s <;> rw [h]

@[simp] theorem busAt_sampleStep (n : Nat) (mism : BitVec 16) (s : State) :
    (s.sampleStep n mism).calm.busAt = s.calm.busAt := by
  obtain ⟨e, -, h⟩ := State.sampleStep_calm n mism s
  rw [h]

/-! ## Events of a ledger (07 R227) -/

@[simp] theorem busAt_giveIn (w : Word64) (s : State) : (s.giveIn w).calm.busAt = s.calm.busAt := by
  unfold State.giveIn
  dsimp only
  repeat' split
  all_goals simp [State.calm_mk, busAt_eq_calm]

@[simp] theorem busAt_callIn (w : Word64) (s : State) : (s.callIn w).calm.busAt = s.calm.busAt := by
  unfold State.callIn
  dsimp only
  repeat' split
  all_goals simp [State.calm_mk, busAt_eq_calm]

@[simp] theorem busAt_recallIn (w : Word64) (s : State) : (s.recallIn w).calm.busAt = s.calm.busAt := by
  unfold State.recallIn
  dsimp only
  repeat' split
  all_goals simp [State.calm_mk, busAt_eq_calm]

@[simp] theorem busAt_brollRelease (n h : Nat) (s : State) : (s.brollRelease n h).calm.busAt = s.calm.busAt := by
  simp [State.brollRelease]

@[simp] theorem busAt_prepStart (n h : Nat) (s : State) : (s.prepStart n h).calm.busAt = s.calm.busAt := by
  unfold State.prepStart
  repeat' split
  all_goals simp

@[simp] theorem busAt_stepWin (n h : Nat) (s : State) : (s.stepWin n h).calm.busAt = s.calm.busAt := by
  simp [State.stepWin]

@[simp] theorem busAt_recordIn (n : Nat) (seq : BitVec 8) (s : State) :
    (s.recordIn n seq).calm.busAt = s.calm.busAt := by
  simp [State.recordIn]

@[simp] theorem busAt_ledgerDo (c : Instr) (s : State) : (s.ledgerDo c).calm.busAt = s.calm.busAt := by
  unfold State.ledgerDo
  split <;> simp

@[simp] theorem busAt_ledgerEvent (c : Instr) (s : State) : (s.ledgerEvent c).calm.busAt = s.calm.busAt := by
  unfold State.ledgerEvent
  dsimp only
  repeat' split
  all_goals simp

/-! ## Events of the slate (08 R276) -/

theorem busAt_tickMissing (s : State) : s.tickMissing.calm.busAt = s.calm.busAt := by
  simp [State.tickMissing]

theorem busAt_mkRelease (p : SltPort) (pay : BitVec 16) (chk : BitVec 8) (s : State) :
    (s.mkRelease p pay chk).calm.busAt = s.calm.busAt := by
  simp [State.mkRelease]

theorem busAt_mkAbort (p : SltPort) (pay : BitVec 16) (chk : BitVec 8) (s : State) :
    (s.mkAbort p pay chk).calm.busAt = s.calm.busAt := by
  simp [State.mkAbort]

theorem busAt_mkArrive (p : SltPort) (pay : BitVec 16) (chk : BitVec 8) (s : State) :
    (s.mkArrive p pay chk).calm.busAt = s.calm.busAt := by
  simp [State.mkArrive]

theorem busAt_mkJoin (p : SltPort) (arg : BitVec 12) (chk : BitVec 8) (s : State) :
    (s.mkJoin p arg chk).calm.busAt = s.calm.busAt := by
  simp [State.mkJoin]

theorem busAt_mkAdmit (p : SltPort) (arg : BitVec 12) (chk : BitVec 8) (s : State) :
    (s.mkAdmit p arg chk).calm.busAt = s.calm.busAt := by
  refine busAt_recvCtrl (fun u => ?_) p 8 arg chk false s
  split <;> simp

theorem busAt_arriveSend (s : State) : s.arriveSend.calm.busAt = s.calm.busAt := by
  unfold State.arriveSend
  dsimp only
  repeat' split
  all_goals simp

theorem busAt_slateTimeout (s : State) : s.slateTimeout.calm.busAt = s.calm.busAt := by
  unfold State.slateTimeout
  split <;> simp

theorem busAt_localTimeout (s : State) : s.localTimeout.calm.busAt = s.calm.busAt := by
  unfold State.localTimeout
  split <;> simp

@[simp] theorem busAt_slateDo (c : Instr) (s : State) : (s.slateDo c).calm.busAt = s.calm.busAt := by
  cases c with
  | laneDown p => exact congrArg Calm.busAt (State.laneDown_calm p s)
  | tickMissing => exact busAt_tickMissing s
  | mkTime p pay chk =>
    exact busAt_recvMk (fun u => congrArg Calm.busAt (State.takeTime_calm pay u)) p kTime pay chk false false s
  | mkRelease p pay chk => exact busAt_mkRelease p pay chk s
  | mkAbort p pay chk => exact busAt_mkAbort p pay chk s
  | mkDetach p arg chk => exact congrArg Calm.busAt (State.mkDetach_calm p arg chk s)
  | mkDissolve p arg chk => exact congrArg Calm.busAt (State.mkDissolve_calm p arg chk s)
  | mkArrive p pay chk => exact busAt_mkArrive p pay chk s
  | arriveSend => exact busAt_arriveSend s
  | slateTimeout => exact busAt_slateTimeout s
  | localTimeout => exact busAt_localTimeout s
  | mkEnum p arg chk => exact congrArg Calm.busAt (State.mkEnum_calm p arg chk s)
  | mkCount p arg chk => exact congrArg Calm.busAt (State.mkCount_calm p arg chk s)
  | mkCountOver p arg chk => exact congrArg Calm.busAt (State.mkCountOver_calm p arg chk s)
  | mkReach p arg chk => exact congrArg Calm.busAt (State.mkReach_calm p arg chk s)
  | mkSize p arg chk => exact congrArg Calm.busAt (State.mkSize_calm p arg chk s)
  | mkStart p arg chk => exact congrArg Calm.busAt (State.mkStart_calm p arg chk s)
  | mkJoin p arg chk => exact busAt_mkJoin p arg chk s
  | mkAdmit p arg chk => exact busAt_mkAdmit p arg chk s
  | mkLeave p arg chk => exact congrArg Calm.busAt (State.mkLeave_calm p arg chk s)
  | _ => rfl

@[simp] theorem busAt_slateEvent (c : Instr) (s : State) : (s.slateEvent c).calm.busAt = s.calm.busAt := by
  unfold State.slateEvent
  dsimp only
  repeat' split
  all_goals simp

/-! ## Switches of a context (06 R196) -/

@[simp] theorem busAt_switchGo (c : Nat) (q : Nat × Option Nat × Nat) (s : State) :
    (s.switchGo c q).calm.busAt = s.calm.busAt := by
  unfold State.switchGo
  split <;> simp

@[simp] theorem busAt_switchWaiting (c : Nat) (s : State) : (s.switchWaiting c).calm.busAt = s.calm.busAt := by
  unfold State.switchWaiting
  dsimp only
  repeat' split
  all_goals simp

/-! ## The broadcast itself (05 R150) -/

@[simp] theorem busAt_busApply (rep : Nat) (s : State) : (s.busApply rep).calm.busAt = s.calm.busAt := by
  unfold State.busApply
  split <;> simp [State.calm_mk, busAt_eq_calm]

@[simp] theorem busAt_busSent (s : State) : s.busSent.calm.busAt = s.calm.busAt := by
  unfold State.busSent
  split <;> simp [State.calm_mk, busAt_eq_calm]

/-- The broadcast that is due goes out without moving the next one. -/
@[simp] theorem busAt_sendDue (s : State) : s.sendDue.calm.busAt = s.calm.busAt := by
  unfold State.sendDue
  split
  · rfl
  extract_lets t
  have ht : t.calm.busAt = s.calm.busAt := busAt_busSent s
  split
  · exact ht
  rw [State.watchGaf_calm, State.memRead_calm, busAt_each (fun d u => ?_), ht]
  repeat' split
  all_goals simp

/-! ## A cluster's clock runs again: the accesses that waited are made (01 R28) -/

@[simp] theorem busAt_serveAcc (i : Instr) (s : State) : (s.serveAcc i).calm.busAt = s.calm.busAt := by
  unfold State.serveAcc
  extract_lets o
  have ho : KeepsBus s o := by
    unfold o
    split <;> simp [execRingEnable, execRingDisable, execEventRingEnable, execEventRingDisable, execIrqVecRead,
      execIrqFvecRead, execIrqAck, execIrqFack, execIrqPendSet, execIrqPendClr, execIrqMaskSet, execIrqMaskClr,
      execCallSheetGo, execPairLoRead, execQueueHeadRead, execLegacyDataRead, execRegisterWrite, execEpochWrite,
      execBootLock, execLcRequest, execFirstErrorClear, execFaultInjection, execSingleShot, execLegacySelectWrite]
  clear_value o
  cases o with
  | next t => exact ho
  | fault => rfl
  | refused => rfl

@[simp] theorem busAt_serveStalled (s : State) : s.serveStalled.calm.busAt = s.calm.busAt := by
  simp [State.serveStalled, busAt_eq_calm, State.calm_mk]

theorem busAt_cluRuns (n : Nat) (s : State) : (s.cluRuns n).calm.busAt = s.calm.busAt := by
  simp [State.cluRuns]

/-! ## The rows that leave the broadcast instant, where a row waits for something or goes several ways -/

/-! ### Throttling (10 R318 to R324) -/

@[simp] theorem execVfStepDown_keepsBus (d : DomIx) (s : State) : KeepsBus s (execVfStepDown d s) := by
  unfold execVfStepDown
  split <;> simp

/-! ### Credits (07) -/

@[simp] theorem execBorrow_keepsBus (w : Word64) (s : State) : KeepsBus s (execBorrow w s) := by
  unfold execBorrow
  dsimp only
  repeat' split
  all_goals simp [busAt_eq_calm, State.calm_mk]

@[simp] theorem execLend_keepsBus (w : Word64) (s : State) : KeepsBus s (execLend w s) := by
  unfold execLend
  split <;> simp [busAt_eq_calm, State.calm_mk]

@[simp] theorem execBank_keepsBus (w : Word64) (s : State) : KeepsBus s (execBank w s) := by
  unfold execBank
  split <;> simp [busAt_eq_calm, State.calm_mk]

@[simp] theorem execWithhold_keepsBus (w : Word64) (s : State) : KeepsBus s (execWithhold w s) := by
  unfold execWithhold
  split <;> simp [busAt_eq_calm, State.calm_mk]

@[simp] theorem execBorrowRetry_keepsBus (n : CluIx) (h : HalfIx) (s : State) :
    KeepsBus s (execBorrowRetry n h s) := by
  unfold execBorrowRetry
  split <;> simp

/-! ### Steps of a margin probe (14 R453) -/

@[simp] theorem execMarginProbeDwell_keepsBus (slot : Slot) (s : State) :
    KeepsBus s (execMarginProbeDwell slot s) := by
  unfold execMarginProbeDwell
  split <;> simp

/-! ### The end of a shot and the watermark (06 R210, R211) -/

@[simp] theorem execShotEndEvaluation_keepsBus (c : CtxIx) (s : State) : KeepsBus s (execShotEndEvaluation c s) := by
  unfold execShotEndEvaluation
  split <;> simp

@[simp] theorem execWatermarkWrite_keepsBus (c : CtxIx) (s : State) : KeepsBus s (execWatermarkWrite c s) := by
  unfold execWatermarkWrite
  dsimp only
  split <;> simp

/-! ### The Storyboard (06) -/

@[simp] theorem execShotSwitch_keepsBus (c : CtxIx) (s : State) : KeepsBus s (execShotSwitch c s) := by
  unfold execShotSwitch
  split <;> simp

@[simp] theorem execShotOnset_keepsBus (c : CtxIx) (s : State) : KeepsBus s (execShotOnset c s) := by
  unfold execShotOnset
  dsimp only
  repeat' split
  all_goals simp

@[simp] theorem execMissingCue_keepsBus (c : CtxIx) (s : State) : KeepsBus s (execMissingCue c s) := by
  unfold execMissingCue
  dsimp only
  repeat' split
  all_goals simp

/-! ### The power cell and its carrier (03) -/

@[simp] theorem execOverloadTimer_keepsBus (n : CluIx) (k : CellIx) (s : State) :
    KeepsBus s (execOverloadTimer n k s) := by
  unfold execOverloadTimer
  split <;> simp

@[simp] theorem execRetryReset_keepsBus (n : CluIx) (k : CellIx) (s : State) : KeepsBus s (execRetryReset n k s) := by
  unfold execRetryReset
  dsimp only
  split <;> simp

@[simp] theorem execSenseImplausible_keepsBus (n : CluIx) (k : CellIx) (periods : Nat) (s : State) :
    KeepsBus s (execSenseImplausible n k periods s) := by
  unfold execSenseImplausible
  dsimp only
  repeat' split
  all_goals simp

/-! ### Sensing (09) -/

@[simp] theorem execBackgroundCorrection_keepsBus (n : CluIx) (s : State) :
    KeepsBus s (execBackgroundCorrection n s) := by
  unfold execBackgroundCorrection
  dsimp only
  repeat' split
  all_goals simp

@[simp] theorem busAt_takeRef (s : State) : s.takeRef.calm.busAt = s.calm.busAt := rfl

@[simp] theorem execBoardSenseReading_keepsBus (b : Fin 3) (mv : Int) (s : State) :
    KeepsBus s (execBoardSenseReading b mv s) := by
  unfold execBoardSenseReading
  dsimp only
  repeat' split
  all_goals simp [busAt_eq_calm, State.calm_mk]

@[simp] theorem execBoardSenseCheck_keepsBus (moved0 moved1 : Int) (s : State) :
    KeepsBus s (execBoardSenseCheck moved0 moved1 s) := by
  unfold execBoardSenseCheck
  simp [busAt_eq_calm, State.calm_mk]

/-! ### The control engine and bank swaps (04, 05 R163) -/

@[simp] theorem execSettleTimeout_keepsBus (d : DomIx) (s : State) : KeepsBus s (execSettleTimeout d s) := by
  unfold execSettleTimeout
  dsimp only
  repeat' split
  all_goals simp

@[simp] theorem execSwapEffect_keepsBus (n : CluIx) (s : State) : KeepsBus s (execSwapEffect n s) := by
  unfold execSwapEffect
  split <;> simp

@[simp] theorem execSwapTimeout_keepsBus (n : CluIx) (s : State) : KeepsBus s (execSwapTimeout n s) := by
  unfold execSwapTimeout
  split <;> simp

/-! ### Temperature and capacitor bonds (10, 12 R389) -/

@[simp] theorem execThermalSampleDelivered_keepsBus (n : CluIx) (t : List Int) (s : State) :
    KeepsBus s (execThermalSampleDelivered n t s) := by
  unfold execThermalSampleDelivered
  split <;> simp

@[simp] theorem execAgeingMeasurement_keepsBus (n : CluIx) (stressed reference : Nat) (s : State) :
    KeepsBus s (execAgeingMeasurement n stressed reference s) := by
  unfold execAgeingMeasurement
  dsimp only
  repeat' split
  all_goals simp

@[simp] theorem busAt_tripNow (n : Nat) (s : State) : (s.tripNow n).calm.busAt = s.calm.busAt := by
  rw [State.tripNow_calm]
  split <;> rfl

@[simp] theorem execCriticalTrip_keepsBus (n : CluIx) (e : Fin 8) (s : State) :
    KeepsBus s (execCriticalTrip n e s) := by
  unfold execCriticalTrip
  split
  · rfl
  · exact busAt_tripNow n s

@[simp] theorem execCapacitanceEstimate_keepsBus (n : CluIx) (est : List (Nat × Nat)) (s : State) :
    KeepsBus s (execCapacitanceEstimate n est s) := by
  unfold execCapacitanceEstimate
  split
  · rfl
  extract_lets s₁ int cells old
  split
  next ms s₂ h =>
    have h₂ : s₂.calm = s₁.calm :=
      (congrArg (fun p => p.2.calm) h).symm.trans (foldl2_calm cells _ (fun a k => by exact State.capOf_calm n k _ a.2) _)
    simp [h₂, s₁]

/-! ### The slate port (08) -/

@[simp] theorem execMkEcho_keepsBus (p : SltPort) (pay : BitVec 16) (chk : BitVec 8) (rtt : Nat) (s : State) :
    KeepsBus s (execMkEcho p pay chk rtt s) := by
  refine busAt_recvMk (fun u => ?_) _ _ _ _ _ _ s
  split <;> simp

@[simp] theorem execPingTimeout_keepsBus (s : State) : KeepsBus s (execPingTimeout s) := by
  unfold execPingTimeout
  split <;> simp

@[simp] theorem execSlateReleaseInstant_keepsBus (s : State) : KeepsBus s (execSlateReleaseInstant s) := by
  unfold execSlateReleaseInstant
  split <;> simp [busAt_eq_calm, State.calm_mk]

@[simp] theorem execJoinTimeout_keepsBus (s : State) : KeepsBus s (execJoinTimeout s) := by
  unfold execJoinTimeout
  split <;> simp

/-! ### The vertical channels (12) -/

@[simp] theorem execChannelRead_keepsBus (ch : ChIx) (m : LineMeas) (s : State) :
    KeepsBus s (execChannelRead ch m s) := by
  unfold execChannelRead
  extract_lets c bad
  split
  · rfl
  split
  · rfl
  extract_lets arch s₁ beats inj flt s₂ s₃ s₄ s₅ s₆
  have h₅ : s₅.calm.busAt = s₄.calm.busAt := by
    unfold s₅
    split <;> simp
  clear_value s₅
  simp [s₆, h₅, s₄, s₃, s₂, s₁, busAt_eq_calm, State.calm_mk]

/-! ### Domains and waves (11 R353 to R361) -/

@[simp] theorem execSetpointSettled_keepsBus (d : DomIx) (s : State) : KeepsBus s (execSetpointSettled d s) := by
  unfold execSetpointSettled
  repeat' split
  all_goals simp

@[simp] theorem execHeaderStage_keepsBus (d : DomIx) (s : State) : KeepsBus s (execHeaderStage d s) := by
  unfold execHeaderStage
  repeat' split
  all_goals simp

@[simp] theorem execNbWaitExpiry_keepsBus (d : DomIx) (s : State) : KeepsBus s (execNbWaitExpiry d s) := by
  unfold execNbWaitExpiry
  repeat' split
  all_goals simp

@[simp] theorem execWaveStart_keepsBus (s : State) : KeepsBus s (execWaveStart s) := by
  unfold execWaveStart
  split <;> simp [busAt_eq_calm, State.calm_mk]

@[simp] theorem execWaveSettleExpiry_keepsBus (d : DomIx) (s : State) : KeepsBus s (execWaveSettleExpiry d s) := by
  unfold execWaveSettleExpiry
  repeat' split
  all_goals simp

@[simp] theorem execDomainOnTimeout_keepsBus (d : DomIx) (s : State) : KeepsBus s (execDomainOnTimeout d s) := by
  unfold execDomainOnTimeout
  repeat' split
  all_goals simp

@[simp] theorem execCellsModeOff_keepsBus (d : DomIx) (s : State) : KeepsBus s (execCellsModeOff d s) := by
  unfold execCellsModeOff
  dsimp only
  repeat' split
  all_goals simp

/-! ### VIN (11 R343 to R349) -/

@[simp] theorem execLongDip_keepsBus (s : State) : KeepsBus s (execLongDip s) := by
  unfold execLongDip
  split <;> simp [busAt_eq_calm, State.calm_mk]

@[simp] theorem execVcutRestore_keepsBus (s : State) : KeepsBus s (execVcutRestore s) := by
  unfold execVcutRestore
  split <;> simp [busAt_eq_calm, State.calm_mk]

/-! ### The record store (14 R444 to R449) -/

@[simp] theorem execSectorErase_keepsBus (s : State) : KeepsBus s (execSectorErase s) := by
  unfold execSectorErase
  repeat' split
  all_goals simp [busAt_eq_calm, State.calm_mk]

/-! ### Cluster reset (11 R368) -/

@[simp] theorem execClusterResetRelease_keepsBus (n : CluIx) (s : State) :
    KeepsBus s (execClusterResetRelease n s) := by
  unfold execClusterResetRelease
  split <;> simp [busAt_eq_calm, State.calm_mk]

@[simp] theorem execQuietEnd_keepsBus (n : CluIx) (s : State) : KeepsBus s (execQuietEnd n s) := by
  unfold execQuietEnd
  split <;> simp

/-! ### Faults (14) -/

@[simp] theorem execFaultRecord_keepsBus (s : State) : KeepsBus s (execFaultRecord s) := by
  unfold execFaultRecord
  dsimp only
  repeat' split
  all_goals simp [busAt_eq_calm, State.calm_mk]

@[simp] theorem execMergeExpiry_keepsBus (code : Nat) (sc : Scope) (s : State) :
    KeepsBus s (execMergeExpiry code sc s) := by
  unfold execMergeExpiry
  split <;> simp

@[simp] theorem execCorrectedFaultClose_keepsBus (code : Nat) (sc : Scope) (s : State) :
    KeepsBus s (execCorrectedFaultClose code sc s) := by
  unfold execCorrectedFaultClose
  split <;> simp

/-! ### Bring-up (11) -/

@[simp] theorem execNvReplay_keepsBus (r : NvDiscovery) (s : State) : KeepsBus s (execNvReplay r s) := by
  unfold execNvReplay
  repeat' split
  all_goals simp

@[simp] theorem execSecurePageFill_keepsBus (st : SecStore) (sramFail : Bool) (s : State) :
    KeepsBus s (execSecurePageFill st sramFail s) := by
  unfold execSecurePageFill
  dsimp only
  repeat' split
  all_goals simp [busAt_eq_calm, State.calm_mk]

@[simp] theorem execCallSheetAccepted_keepsBus (s : State) : KeepsBus s (execCallSheetAccepted s) := by
  unfold execCallSheetAccepted
  repeat' split
  all_goals simp [busAt_eq_calm, State.calm_mk]

@[simp] theorem execClusterWakeReport_keepsBus (n : CluIx) (m : WakeMeas) (s : State) :
    KeepsBus s (execClusterWakeReport n m s) := by
  unfold execClusterWakeReport
  split <;> simp

/-! ### The host port (13 R394 to R427) -/

@[simp] theorem execDescriptorFetch_keepsBus (s : State) : KeepsBus s (execDescriptorFetch s) := by
  unfold execDescriptorFetch
  repeat' split
  all_goals simp [busAt_eq_calm, State.calm_mk]

@[simp] theorem execDescriptorDecode_keepsBus (s : State) : KeepsBus s (execDescriptorDecode s) := by
  unfold execDescriptorDecode
  repeat' split
  all_goals simp [busAt_eq_calm, State.calm_mk]

@[simp] theorem execCommandDispatch_keepsBus (slot : Slot) (s : State) : KeepsBus s (execCommandDispatch slot s) := by
  unfold execCommandDispatch
  split <;> simp

@[simp] theorem execCompletionRecord_keepsBus (q : Fin 16) (s : State) : KeepsBus s (execCompletionRecord q s) := by
  unfold execCompletionRecord
  dsimp only
  repeat' split
  all_goals simp [busAt_eq_calm, State.calm_mk]

@[simp] theorem execEventRecordWrite_keepsBus (j : Fin 4) (s : State) : KeepsBus s (execEventRecordWrite j s) := by
  unfold execEventRecordWrite
  dsimp only
  repeat' split
  all_goals simp [State.refillBuf_calm, busAt_eq_calm, State.calm_mk]

@[simp] theorem execWriteAcknowledge_keepsBus (pid : PortId) (err : Bool) (s : State) :
    KeepsBus s (execWriteAcknowledge pid err s) := by
  unfold execWriteAcknowledge
  repeat' split
  all_goals simp [busAt_eq_calm, State.calm_mk]

@[simp] theorem execWriteReissue_keepsBus (pid : PortId) (s : State) : KeepsBus s (execWriteReissue pid s) := by
  unfold execWriteReissue
  repeat' split
  all_goals simp [busAt_eq_calm, State.calm_mk]

/-! ### Commands of units (13 Table 13-5) -/

@[simp] theorem execDomainOn_keepsBus (slot : Slot) (s : State) : KeepsBus s (execDomainOn slot s) := by
  refine busAt_opRow (fun c u => ?_) _ _ _ _ s
  split <;> simp

@[simp] theorem execDomainOff_keepsBus (slot : Slot) (s : State) : KeepsBus s (execDomainOff slot s) := by
  refine busAt_opRow (fun c u => ?_) _ _ _ _ s
  split <;> simp

@[simp] theorem execSwapBank_keepsBus (slot : Slot) (s : State) : KeepsBus s (execSwapBank slot s) := by
  refine busAt_opRow (fun c u => ?_) _ _ _ _ s
  dsimp only
  split <;> simp

@[simp] theorem execCapSet_keepsBus (slot : Slot) (s : State) : KeepsBus s (execCapSet slot s) := by
  refine busAt_opRow (fun c u => ?_) _ _ _ _ s
  repeat' split
  all_goals simp [busAt_eq_calm, State.calm_mk]

@[simp] theorem execTelemetryRead_keepsBus (slot : Slot) (s : State) : KeepsBus s (execTelemetryRead slot s) := by
  refine busAt_opRow (fun c u => ?_) _ _ _ _ s
  simp [State.writeLong_calm]

/-! ### Commands of plans (06) -/

@[simp] theorem execPlanArm_keepsBus (slot : Slot) (s : State) : KeepsBus s (execPlanArm slot s) := by
  refine busAt_opRow (fun c u => ?_) _ _ _ _ s
  dsimp only
  split <;> simp

/-! ### Probes, self-tests, stamps (14) -/

@[simp] theorem execMarginProbe_keepsBus (slot : Slot) (s : State) : KeepsBus s (execMarginProbe slot s) := by
  refine busAt_opRow (fun c u => ?_) _ _ _ _ s
  dsimp only
  repeat' split
  all_goals simp

@[simp] theorem execSelfTest_keepsBus (slot : Slot) (s : State) : KeepsBus s (execSelfTest slot s) := by
  refine busAt_opRow (fun c u => ?_) _ _ _ _ s
  split <;> simp [busAt_eq_calm, State.calm_mk]

@[simp] theorem execMarchComplete_keepsBus (slot : Slot) (failing : Nat) (s : State) :
    KeepsBus s (execMarchComplete slot failing s) := by
  unfold execMarchComplete
  split <;> simp [busAt_eq_calm, State.calm_mk]

@[simp] theorem execStampConfig_keepsBus (slot : Slot) (s : State) : KeepsBus s (execStampConfig slot s) := by
  refine busAt_opRow (fun c u => ?_) _ _ _ _ s
  rfl

/-! ### Reads (13 R394) -/

@[simp] theorem execReadData_keepsBus (pid : PortId) (beats : List Beat) (bad : Bool) (s : State) :
    KeepsBus s (execReadData pid beats bad s) := by
  unfold execReadData
  repeat' split
  all_goals simp [busAt_eq_calm, State.calm_mk]

/-! ### Moderation (14 R440) -/

@[simp] theorem execModerationTimer_keepsBus (p : ProcIx) (s : State) : KeepsBus s (execModerationTimer p s) := by
  unfold execModerationTimer
  dsimp only
  split <;> simp

/-! ### Sleep (01) -/

@[simp] theorem execClusterSleep_keepsBus (n : CluIx) (s : State) : KeepsBus s (execClusterSleep n s) := by
  unfold execClusterSleep
  split <;> simp

@[simp] theorem execGafferSleep_keepsBus (s : State) : KeepsBus s (execGafferSleep s) := by
  unfold execGafferSleep
  split <;> simp [busAt_eq_calm, State.calm_mk]

@[simp] theorem execWake_keepsBus (x : SleepDom) (s : State) : KeepsBus s (execWake x s) := by
  unfold execWake
  split <;> simp

/-! ### The secure store (15 R461, R473) -/

@[simp] theorem execLcProgramDone_keepsBus (ok : Bool) (s : State) : KeepsBus s (execLcProgramDone ok s) := by
  unfold execLcProgramDone
  split <;> simp [busAt_eq_calm, State.calm_mk]

@[simp] theorem execSecureWordRefill_keepsBus (w : Fin 2048) (ok : Bool) (val : Word64) (s : State) :
    KeepsBus s (execSecureWordRefill w ok val s) := by
  unfold execSecureWordRefill
  split <;> simp [busAt_eq_calm, State.calm_mk]

/-! ## The rows that place the broadcast instant (05 R150, 11 R353, 01 R26) -/

/-- Where an outcome is a next state, its broadcast instant stands on the grid of 1,000 ns if that of `s` does. -/
def KeepsGrid (s : State) : Host.Outcome State Fault Refusal → Prop
  | .next t => s.calm.busAt % 1000 = 0 → t.calm.busAt % 1000 = 0
  | _ => True

theorem KeepsBus.grid {s : State} {o : Host.Outcome State Fault Refusal} (h : KeepsBus s o) : KeepsGrid s o := by
  cases o with
  | next t => exact fun hs => (congrArg (· % 1000) h).trans hs
  | fault => trivial
  | refused => trivial

theorem nextBoundary_mod (per now : Nat) : nextBoundary per now % per = 0 := Nat.mul_mod_left _ _

theorem execShareBusBroadcast_grid (s : State) : KeepsGrid s (execShareBusBroadcast s) := by
  intro hs
  unfold State.busReport
  split
  · rwa [busAt_sendDue]
  · dsimp only
    rw [each_calm _ _ fun d u => State.snapDom_calm d u, State.accumulate_calm]
    exact nextBoundary_mod _ _

theorem execTreeAssembly_grid (s : State) : KeepsGrid s (execTreeAssembly s) := by
  intro hs
  split
  · exact hs
  · dsimp only
    split
    · rw [State.stepSeven_calm]
      exact nextBoundary_mod _ _
    · exact nextBoundary_mod _ _

theorem gafRuns_grid (s : State) (hs : s.calm.busAt % 1000 = 0) : s.gafRuns.calm.busAt % 1000 = 0 := by
  unfold State.gafRuns
  split
  · exact hs
  · dsimp only
    rw [busAt_serveStalled, each_calm _ _ fun (p : Word64 × Nat) u => State.takeCue_calm p.1 p.2 u]
    exact nextBoundary_mod _ _

theorem execClockRunning_grid (x : SleepDom) (s : State) : KeepsGrid s (execClockRunning x s) := by
  cases x with
  | clu n => exact KeepsBus.grid (busAt_cluRuns n s)
  | gaf => exact gafRuns_grid s

theorem reset_grid : State.reset.calm.busAt % 1000 = 0 := rfl

theorem fresh_grid (s : State) : s.fresh.calm.busAt % 1000 = 0 := by
  rw [State.fresh_calm]
  exact reset_grid

theorem execPowerUp_grid (v : Bool) (s : State) : KeepsGrid s (execPowerUp v s) := by
  intro hs
  split
  · exact fresh_grid s
  · split
    · exact hs
    · exact fresh_grid s

theorem execPowerLoss_grid (v : Bool) (s : State) : KeepsGrid s (execPowerLoss v s) := by
  intro hs
  split <;> exact fresh_grid s

theorem execBlockReset_grid (s : State) : KeepsGrid s (execBlockReset s) := by
  intro hs
  split
  · exact hs
  · exact fresh_grid s

/-! ## One step -/

/-- The broadcast, the tree's assembly and the Gaffer's wake place the next instant on a boundary, power and block reset put
it back to its reset value; every other row leaves it. -/
theorem exec_grid (c : Instr) (s : State) : KeepsGrid s (exec c s) := by
  cases c with
  | shareBusBroadcast => exact execShareBusBroadcast_grid s
  | treeAssembly => exact execTreeAssembly_grid s
  | clockRunning x => exact execClockRunning_grid x s
  | powerUp v => exact execPowerUp_grid v s
  | powerLoss v => exact execPowerLoss_grid v s
  | blockReset => exact execBlockReset_grid s
  | _ =>
    refine KeepsBus.grid ?_
    simp [exec, execNop, execFence, execSetTarget, execRamp, execLoadBank, execCallSheetLoad, execContextOpen,
      execContextClose, execReelLoad, execPlanDisarm, execCreditConfig, execSlateJoin, execSlateLeave, execMarch,
      execNvRead, execUnitDisable, execUnitEnable, execDoorbell, execRingEnable, execRingDisable, execEventRingEnable,
      execEventRingDisable, execCallSheetGo, execEpochWrite, execPairLoRead, execBootLock, execLcRequest,
      execIrqVecRead, execIrqFvecRead, execIrqAck, execIrqFack, execIrqPendSet, execIrqPendClr, execIrqMaskSet,
      execIrqMaskClr, execFirstErrorClear, execFaultInjection, execSingleShot, execQueueHeadRead, execLegacyDataRead,
      execLegacySelectWrite, execRegisterWrite, execBlockResetRelease, execHostFunctionalReset, execHostResetRelease,
      execTamper, execExternalThrottle, execExternalThrottleEnd, execCue, execStampRequest, execVinWarning,
      execVinRecovery, execVinReset, execCellVinStop, execCellVinResume, execVudcLoss, execSyncQualified, execSyncLock,
      execSyncLoss, execDitherStep, execCellCommandWord, execParkTimeout, execKick, execKickEnd, execKickRearm,
      execTruncation, execTruncationEnd, execShunt, execShuntEnd, execHiccup, execHiccupHold, execCellSelfTest,
      execStartDone, execStartTimeout, execStuckSwitch, execNoSwitching, execOpenPhase, execControlSample,
      execContinuityWindow, execShareBusRecord, execGafferLoss, execSenseFrame, execOpenWireTest, execOpenWirePhase,
      execThermalSample, execRequest, execReturnW, execDigest, execAdmissionRound, execGive, execCall, execRecall,
      execSliceBoundary, execBrollRelease, execPreparationStart, execStepWinExpiry, execLaneUp, execLaneDown,
      execMkArrive, execMkRelease, execMkAbort, execMkTime, execMkPing, execMkEnum, execMkCount, execMkCountOver,
      execMkReach, execMkSize, execMkStart, execMkJoin, execMkAdmit, execMkLeave, execMkDetach, execMkDissolve,
      execPingInterval, execTimeTick, execTickMissing, execArriveSend, execSlateTimeout, execLocalTimeout,
      execChannelTraining, execRecalibration, execScrub, execNvProgram, execBringupVinReady, execUpperDieClear,
      execReady, execWakeFailure, execAvsStatusPoll, execAvsCurrentPoll, execPmbusPoll, execShuntRearm,
      execProcessorIdle, execSectorEraseDone, busAt_eq_calm, State.calm_mk]

theorem tick_busAt (s : State) : s.tick.calm.busAt = s.calm.busAt := by
  simp [State.tick, busAt_eq_calm, State.calm_mk]

/-- Settles O8: a row leaves the next broadcast instant, or places it on a boundary of 1,000 ns (`exec_grid`); a tick
leaves it. -/
theorem broadcastInstantStaysOnGrid : Obligations.BroadcastInstantStaysOnGrid := by
  unfold Obligations.BroadcastInstantStaysOnGrid
  intro s t hs hstep
  unfold step at hstep
  split at hstep
  case h_1 =>
    cases hstep
    exact (congrArg (· % 1000) (tick_busAt s)).trans hs
  case h_2 c rest _ =>
    have h := exec_grid c { s with pending := rest }
    rw [hstep] at h
    exact h hs

/-- Settles O9: at reset the first broadcast instant is 1,000 ns, and the pin is high with the latch clear. -/
theorem invariantsAtReset : Obligations.InvariantsAtReset := by
  unfold Obligations.InvariantsAtReset
  exact ⟨reset_grid, rfl⟩

end Sys2Proof.Machine
end

section
/-! PROOFS. What the beginning of a preparation and the end of its window do once they end their ledger's cycle
(05 R155, R157, 07 R222, R224, R227). -/

namespace Sys2Proof.Machine
open Sys2Proof

/-! ## An event that ends its cycle -/

/-- An event that ends its cycle acts at an instant of its own or at the present one. -/
theorem ledgerEvent_of_last {c : Instr} {n r : Nat} {s : State} (hc : s.ledgerOf c = some (n, r))
    (hl : LastEvent s n r) : ∃ t, s.ledgerEvent c = State.ledgerDo c (s.advanceTo t) := by
  rw [State.ledgerEvent_last c n r s hc hl]
  cases s.ledgerAt c with
  | none => exact ⟨0, by rw [State.advanceTo, if_neg (Nat.not_lt_zero _)]⟩
  | some t => exact ⟨t, rfl⟩

/-! ## Budgets and borrowing leave a half's preparation and its credits -/

/-- What every half keeps under a change, a change of one half keeps of each. -/
theorem modHalf_keeps {P : Half → Prop} {f : Half → Half} (hf : ∀ x, P x → P (f x)) {s : State} {m g : Nat}
    (h : P (s.half m g)) (n i : Nat) : P ((s.modHalf n i f).half m g) := by
  refine modCl_keeps (P := fun c => P (vget c.halves g)) (fun c hc => ?_) h n
  by_cases hi : i < 2
  · by_cases hig : i = g
    · subst hig
      rw [vget_vmod_same _ _ _ hi]
      exact hf _ hc
    · rwa [vget_vmod_ne _ _ _ _ hig]
  · rwa [vget_vmod_ge _ _ _ _ hi]

/-- A change of a cluster that leaves its halves. -/
theorem modCl_half {f : Cluster → Cluster} (n m g : Nat) (s : State) (hf : ∀ c, (f c).halves = c.halves) :
    (s.modCl n f).half m g = s.half m g :=
  modCl_keeps (P := fun c => vget c.halves g = s.half m g)
    (fun c hc => (congrArg (fun v => vget v g) (hf c)).trans hc) rfl n

/-- `y` is half `x` with another fade-in budget. -/
def SameButBudget (x y : Half) : Prop := ∃ b, y = { x with acc := { x.acc with b := b } }

/-- The counting of a ledger's budgets changes of a half its fade-in budget alone. -/
theorem accrue_half (n m g : Nat) (s : State) : SameButBudget (s.half m g) ((s.accrue n).half m g) := by
  unfold State.accrue
  extract_lets t0 burst u
  rw [modCl_half n m g u (by exact fun _ => rfl)]
  refine each_keeps (P := fun u => SameButBudget (s.half m g) (u.half m g)) (fun i u hu => ?_) _ ⟨_, rfl⟩
  refine modHalf_keeps (P := SameButBudget (s.half m g)) ?_ hu n i
  rintro _ ⟨b, rfl⟩
  exact ⟨_, rfl⟩

@[simp] theorem send_half (msg : LMsg) (s : State) (m g : Nat) : (s.send msg).half m g = s.half m g := by
  unfold State.send
  split <;> rfl

/-- `y` is half `x` with another instant by which its BORROW must be answered. -/
def SameButBorrow (x y : Half) : Prop := ∃ o, y = { x with acc := { x.acc with borrowBy := o } }

/-- A BORROW changes of a half the instant alone by which it must be answered. -/
theorem borrow_half (n h m g : Nat) (s : State) : SameButBorrow (s.half m g) ((s.borrow n h).half m g) := by
  unfold State.borrow
  split
  · exact ⟨_, rfl⟩
  · extract_lets a wait pend asks has need q amt
    split
    · exact ⟨_, rfl⟩
    · refine modHalf_keeps (P := SameButBorrow (s.half m g)) ?_ ?_ n h
      · rintro _ ⟨o, rfl⟩
        exact ⟨_, rfl⟩
      · exact ⟨_, send_half _ _ _ _⟩

/-! ## Preparations (R155, R157) -/

/-- A preparation that begins takes its shot and its onset, clears the fade-in budget and moves credits from ORD to RES. -/
theorem beginPrep_half (n : CluIx) (h : HalfIx) (shot onset rise : Nat) (s : State) :
    ((s.beginPrep n h shot onset rise).half n h).prep.on = true ∧
      ((s.beginPrep n h shot onset rise).half n h).prep.key = some shot ∧
      ((s.beginPrep n h shot onset rise).half n h).prep.onset = onset ∧
      ((s.beginPrep n h shot onset rise).half n h).acc.b = 0 ∧
      ((s.beginPrep n h shot onset rise).half n h).acc.ord + ((s.beginPrep n h shot onset rise).half n h).acc.res =
        (s.half n h).acc.ord + (s.half n h).acc.res := by
  obtain ⟨b, hacc⟩ := accrue_half n n h s
  unfold State.beginPrep
  extract_lets u q run nr mask want v
  obtain ⟨o, hbor⟩ := borrow_half n h n h v
  have hv : v.half n h = _ := half_modHalf u n h _ n.isLt h.isLt
  rw [hbor, hv, hacc]
  exact ⟨rfl, rfl, rfl, rfl, Nat.sub_add_cancel (Nat.min_le_left _ _)⟩

/-- The end of a preparation's window gives its reservation back and lets the headroom fall. -/
theorem stepWin_half (n : CluIx) (h : HalfIx) (s : State) (hkey : (s.half n h).prep.key.isNone = false) :
    ((s.stepWin n h).half n h).prep.on = false ∧ ((s.stepWin n h).half n h).prep.key = none ∧
      ((s.stepWin n h).half n h).prep.falling = true ∧ ((s.stepWin n h).half n h).acc.res = 0 ∧
      ((s.stepWin n h).half n h).acc.short = 0 ∧
      ((s.stepWin n h).half n h).acc.ord = (s.half n h).acc.ord + (s.half n h).acc.res := by
  obtain ⟨b, hacc⟩ := accrue_half n n h s
  rw [State.stepWin, if_neg (by simp [hkey]), half_modHalf _ _ _ _ n.isLt h.isLt, hacc]
  exact ⟨rfl, rfl, rfl, rfl, rfl, rfl⟩

/-- Settles O38: each row ends its cycle, so it acts at its own instant, and neither the budgets nor a BORROW touch what
it sets. -/
theorem preparationRowsComplete : Obligations.PreparationRowsComplete := by
  unfold Obligations.PreparationRowsComplete
  intro n h s hlast
  constructor
  · intro shot onset rise hnext hoff
    obtain ⟨t, ht⟩ := ledgerEvent_of_last (c := .preparationStart n h) rfl hlast
    refine ⟨_, congrArg Host.Outcome.next ht, ?_⟩
    have hdo : State.ledgerDo (.preparationStart n h) (s.advanceTo t) = (s.advanceTo t).beginPrep n h shot onset rise := by
      simp [State.ledgerDo, State.prepStart, State.advanceTo_nextPrep, hnext, hoff]
    rw [hdo, ← advanceTo_half t s]
    exact beginPrep_half n h shot onset rise _
  · intro k hkey
    obtain ⟨t, ht⟩ := ledgerEvent_of_last (c := .stepWinExpiry n h) rfl hlast
    refine ⟨_, congrArg Host.Outcome.next ht, ?_⟩
    rw [← advanceTo_half t s]
    exact stepWin_half n h (s.advanceTo t) (by simp [hkey])

end Sys2Proof.Machine
end
section
/-! PROOFS. Which operations leave what a cluster keeps of the share bus, and what a record and the loss of the Gaffer make
of it (05 R152, 07 R227, R235). -/

namespace Sys2Proof.Machine
open Sys2Proof

/-! ## What a cluster keeps of the share bus (R152) -/

/-- The number of the last record, the count of missing ones, those missing in a row, and the loss of the Gaffer. -/
structure Reception where
  seq : Nat
  miss : Nat
  row : Nat
  lost : Bool

/-- What a cluster keeps of the share bus. -/
def Cluster.reception (c : Cluster) : Reception := ⟨c.busSeq, c.busMiss, c.busMissRow, c.gafLost⟩

/-- What cluster `m` keeps of the share bus. -/
def State.reception (s : State) (m : Nat) : Reception := (s.cl m).reception

theorem reception_modCl {f : Cluster → Cluster} (n : Nat) (s : State) (m : Nat)
    (hf : ∀ c, (f c).reception = c.reception) : (s.modCl n f).reception m = s.reception m :=
  modCl_keeps (P := fun c => c.reception = s.reception m) (fun c hc => (hf c).trans hc) rfl n

theorem reception_each {α : Type} {f : α → State → State} {m : Nat}
    (hf : ∀ x u, (f x u).reception m = u.reception m) (l : List α) (s : State) :
    (each l f s).reception m = s.reception m :=
  each_keeps (P := fun u => u.reception m = s.reception m) (fun x u hu => (hf x u).trans hu) l rfl

@[simp] theorem reception_modHalf (n h : Nat) (f : Half → Half) (s : State) (m : Nat) :
    (s.modHalf n h f).reception m = s.reception m := reception_modCl n s m fun _ => rfl

@[simp] theorem reception_modSense (n : Nat) (f : Sense → Sense) (s : State) (m : Nat) :
    (s.modSense n f).reception m = s.reception m := reception_modCl n s m fun _ => rfl

@[simp] theorem reception_accrue (n : Nat) (s : State) (m : Nat) : (s.accrue n).reception m = s.reception m := by
  obtain ⟨hs, led, h⟩ := accrue_cl n m s
  rw [State.reception, h]
  rfl

@[simp] theorem reception_advanceTo (t : Nat) (s : State) (m : Nat) : (s.advanceTo t).reception m = s.reception m :=
  congrArg Cluster.reception (advanceTo_cl t s m)

@[simp] theorem reception_put (o : Out) (s : State) (m : Nat) : (s.put o).reception m = s.reception m := rfl

@[simp] theorem reception_sendUp (op n h d amt : Nat) (s : State) (m : Nat) :
    (s.sendUp op n h d amt).reception m = s.reception m := by
  unfold State.sendUp
  split <;> rfl

@[simp] theorem reception_withdraw (n h : Nat) (s : State) (m : Nat) : (s.withdraw n h).reception m = s.reception m := by
  simp [State.withdraw]

@[simp] theorem reception_fillZero (n h : Nat) (s : State) (m : Nat) : (s.fillZero n h).reception m = s.reception m := by
  unfold State.fillZero
  extract_lets l rs u
  have hu : u.reception m = s.reception m := reception_each (fun r v => reception_put _ v m) rs s
  rw [← hu]
  exact reception_modCl n u m fun _ => rfl

theorem reception_wakeClu (n : Nat) (s : State) (m : Nat) : (s.wakeClu n).reception m = s.reception m := by
  unfold State.wakeClu
  split
  · exact reception_modCl n s m fun _ => rfl
  · exact reception_modCl n s m fun _ => rfl

/-- A raise below FATAL wakes clusters, which leaves what they have received. -/
theorem reception_collect (r : Raise) (s : State) (hr : r.cls ≠ 4) (m : Nat) :
    (s.collect r).reception m = s.reception m := by
  have h4 : (r.cls == 4) = false := by simpa using hr
  unfold State.collect
  dsimp only
  rw [h4, if_neg Bool.false_ne_true]
  generalize hwoken : State.wakeGaf _ = x
  have hx : x.reception m = s.reception m := by
    rw [← hwoken]
    split
    · exact reception_wakeClu _ s m
    · rfl
  split <;> exact hx

@[simp] theorem reception_vinSusp (n : Nat) (s : State) (m : Nat) : (s.vinSusp n).reception m = s.reception m := by
  unfold State.vinSusp
  split
  · rfl
  · exact (reception_collect _ _ (show (fltClass 0x023).getD 1 ≠ 4 by decide) m).trans (reception_modSense n _ s m)

/-! ## Records and losses -/

@[simp] theorem reception_applyRec (n h : Nat) (s : State) (m : Nat) : (s.applyRec n h).reception m = s.reception m := by
  unfold State.applyRec
  split
  · rfl
  · extract_lets u b cfg lim g con sum many offs capC v a tot allot k
    have hv : v.reception m = s.reception m := by simp [v, u]
    split
    · rw [reception_sendUp, reception_modHalf, hv]
    · exact hv

@[simp] theorem reception_vinRecord (n : Nat) (s : State) (m : Nat) : (s.vinRecord n).reception m = s.reception m := by
  unfold State.vinRecord
  extract_lets mv u d c3 out x good bad v
  have hu : u.reception m = s.reception m := reception_modSense n _ s m
  have hv : v.reception m = s.reception m := (reception_modSense n _ u m).trans hu
  split
  · split <;> rw [reception_modSense, hu]
  · split
    · rw [reception_vinSusp, hv]
    · exact hv

/-- A cluster that loses the Gaffer keeps its counts. -/
theorem reception_loseGaffer (n : CluIx) (s : State) :
    (s.loseGaffer n).reception n = { s.reception n with lost := true } := by
  unfold State.loseGaffer
  extract_lets u
  have hu : u.reception n = s.reception n := reception_each (fun h v => by simp) _ s
  exact (congrArg Cluster.reception (cl_modCl u n _ n.isLt)).trans
    (congrArg (fun r : Reception => { r with lost := true }) hu)

/-- `k` records counted as missing: from four in a row on the Gaffer is lost. -/
theorem reception_missRecord (n : CluIx) (k : Nat) (s : State) :
    (s.missRecord n k).reception n =
      ⟨(s.cl n).busSeq, satAdd 7 (s.cl n).busMiss k, (s.cl n).busMissRow + k,
        decide (4 ≤ (s.cl n).busMissRow + k) || (s.cl n).gafLost⟩ := by
  unfold State.missRecord
  extract_lets u
  have hcl : u.cl n = _ := cl_modCl s n _ n.isLt
  have hu : u.reception n = ⟨(s.cl n).busSeq, satAdd 7 (s.cl n).busMiss k, (s.cl n).busMissRow + k, (s.cl n).gafLost⟩ :=
    congrArg Cluster.reception hcl
  rw [hcl]
  cases hlost : (s.cl n).gafLost with
  | true => simp [hu, hlost]
  | false =>
    by_cases hrow : 4 ≤ (s.cl n).busMissRow + k
    · simp [hrow, hu, reception_loseGaffer]
    · simp [hrow, hu, hlost]

/-- A record out of sequence: it ends a loss, and the records it shows missing start the row again. -/
theorem reception_oddRecord (n : CluIx) (k : Nat) (s : State) :
    (s.oddRecord n k).reception n =
      if (s.cl n).gafLost then ⟨(s.cl n).busSeq, satAdd 7 (s.cl n).busMiss k, 1, false⟩
      else ⟨(s.cl n).busSeq, satAdd 7 (s.cl n).busMiss k, (s.cl n).busMissRow + k,
        decide (4 ≤ (s.cl n).busMissRow + k)⟩ := by
  unfold State.oddRecord
  split
  · exact congrArg Cluster.reception (cl_modCl s n _ n.isLt)
  · next hlost => simp [reception_missRecord, hlost]

section Records
variable {n : CluIx} {q : BitVec 8} {s : State}

/-- A record in sequence takes its number and ends the row of missing ones, and with it a loss. -/
theorem reception_recordIn_next (hs : s.samples n = true) (hq : (q.toNat + 256 - (s.cl n).busSeq) % 256 = 1) :
    (s.recordIn n q).reception n = ⟨q.toNat, (s.cl n).busMiss, 0, false⟩ := by
  simp only [State.recordIn, hs, hq, Bool.not_true, Bool.false_eq_true, if_false, beq_self_eq_true, if_true]
  rw [reception_vinRecord, reception_each (fun h u => reception_applyRec n h u n)]
  simp [State.reception, Cluster.reception, n.isLt]

/-- A record that shows `g` steps since the last counts those missing beyond the ones counted before it. -/
theorem reception_recordIn_odd {g k : Nat} (hs : s.samples n = true)
    (hq : g = (q.toNat + 256 - (s.cl n).busSeq) % 256) (hg : 1 < g) (hg' : g ≤ 128)
    (hk : k = max 1 (g - (s.cl n).busGone)) :
    (s.recordIn n q).reception n =
      if (s.cl n).gafLost then ⟨q.toNat, satAdd 7 (s.cl n).busMiss k, 1, false⟩
      else ⟨q.toNat, satAdd 7 (s.cl n).busMiss k, (s.cl n).busMissRow + k,
        decide (4 ≤ (s.cl n).busMissRow + k)⟩ := by
  have hne : (g == 1) = false := beq_eq_false_iff_ne.mpr hg.ne'
  simp only [State.recordIn, hs, ← hq, hne, hg, hg', ← hk, Bool.not_true, Bool.false_eq_true, if_false, decide_true,
    Bool.and_self, if_true, reception_oddRecord]
  simp [n.isLt]

end Records

/-- A cluster that has the Gaffer loses it at the fourth record missing in a row. -/
theorem gafLost_execGafferLoss (n : CluIx) (s : State) (hs : s.samples n = true) (hlost : (s.cl n).gafLost = false) :
    ∃ t, execGafferLoss n s = .next t ∧ (t.cl n).gafLost = true := by
  have hfour : 4 ≤ (s.cl n).busMissRow + (4 - (s.cl n).busMissRow) := by omega
  simp only [execGafferLoss, hs, hlost, Bool.not_false, Bool.and_self, if_true]
  refine ⟨_, rfl, (congrArg Reception.lost (reception_missRecord n _ _)).trans ?_⟩
  rw [cl_modCl _ _ _ n.isLt]
  simp [hfour]

/-- A record that ends its cycle is applied at its instant, to the cluster that the broadcast left, which samples. -/
theorem shareBusRecord_of_last {n : CluIx} {s : State} (q : BitVec 8) (hlast : LastEvent s.sendDue n 3)
    (hs : s.sendDue.samples n = true) :
    ∃ u : State, exec (.shareBusRecord n q) s = .next (u.recordIn n q) ∧ u.cl n = s.sendDue.cl n ∧ u.samples n = true := by
  obtain ⟨t, ht⟩ := ledgerEvent_of_last (c := .shareBusRecord n q) rfl hlast
  refine ⟨_, congrArg Host.Outcome.next ht, advanceTo_cl t _ n, ?_⟩
  rw [← hs, State.samples, State.samples, advanceTo_cl, advanceTo_sheet]

/-- Settles O40: a record that ends its cycle is applied at its own instant, and what it applies to the halves leaves the
counts. -/
theorem shareBusRowsComplete : Obligations.ShareBusRowsComplete := by
  unfold Obligations.ShareBusRowsComplete
  rintro n s u rfl hlast hs hseq
  refine ⟨fun q hq => ?_, fun q g k hg h1 h128 hk => ?_, gafLost_execGafferLoss n s⟩
  · obtain ⟨u, hexec, hcl, hsu⟩ := shareBusRecord_of_last q hlast hs
    have hstep : (q.toNat + 256 - (u.cl n).busSeq) % 256 = 1 := by
      rw [hcl]
      omega
    have hrec := reception_recordIn_next hsu hstep
    rw [hcl] at hrec
    exact ⟨_, hexec, congrArg Reception.seq hrec, congrArg Reception.row hrec, congrArg Reception.lost hrec,
      congrArg Reception.miss hrec⟩
  · obtain ⟨u, hexec, hcl, hsu⟩ := shareBusRecord_of_last q hlast hs
    rw [← hcl] at hg hk ⊢
    have hrec := reception_recordIn_odd hsu hg h1 h128 hk
    refine ⟨_, hexec, ?_⟩
    cases hlost : (u.cl n).gafLost
    · rw [hlost] at hrec
      exact ⟨congrArg Reception.seq hrec, congrArg Reception.miss hrec,
        fun _ => ⟨congrArg Reception.row hrec, congrArg Reception.lost hrec⟩, nofun⟩
    · rw [hlost] at hrec
      exact ⟨congrArg Reception.seq hrec, congrArg Reception.miss hrec, nofun,
        fun _ => ⟨congrArg Reception.row hrec, congrArg Reception.lost hrec⟩⟩

end Sys2Proof.Machine
end
